-- ==== Sys2Proof/Word.lean ====
section
/-! DEFINITION. The byte: the one bit-vector type of the model (frames, records and the configuration image are bytes). -/

namespace Sys2Proof

/-- A byte of a frame, a record, the recipe store or the configuration image (R187, R190, R194). -/
abbrev Byte := BitVec 8

end Sys2Proof
end

