-- ==== Sys2Proof/Syntax.lean ====
section
/-! DEFINITION. The commands of the part: one constructor of `Instr` per row of spec/opcode_table.json, with the
operands the rows' rules give them. A row is an order, a frame, an input event, or the expiry of one of the part's own timers. -/

namespace Sys2Proof

/-- The four shared feeds, indices 0 to 3 (section 0.6). -/
inductive Feed where
  | a | b | c | d
  deriving DecidableEq, Repr

/-- The two dispense channels (R38), numbered 0 and 1 in notices (R189). -/
inductive Channel where
  | main | additive
  deriving DecidableEq, Repr

/-- One valve path of a channel: the path of a feed, or (on MAIN) the DI path (R38). -/
inductive Path where
  | feed (f : Feed)
  | di
  deriving DecidableEq, Repr

/-- The six pressure channels of the head (R113). -/
inductive HeadCh where
  | z1 | z2 | z3 | z4 | z5 | rr
  deriving DecidableEq, Repr

/-- The eight interlock lines (R163). -/
inductive Line where
  | il0 | il1 | il2 | il3 | il4 | il5 | il6 | il7
  deriving DecidableEq, Repr

/-- The two drives (section 9.4). -/
inductive Drive where
  | platen | head
  deriving DecidableEq, Repr

/-- What LNK knows of a received ORDER besides its payload (R184, R187): the source number, whether it was addressed to
all nodes (destination 15) or to the station's own number, and the tag its ANSWER echoes. -/
structure OrderMeta where
  source : Nat
  toAll : Bool
  tag : Byte
  deriving DecidableEq, Repr

/-- One command. An order row begins where LNK has accepted the ORDER frame (R184); FRAME_RECEIVED begins at the end of a
carrier, with the bytes heard. -/
inductive Instr where
  | powerOn
  | resetLine
  | settleEnd
  | listenEnd
  | refreshTick
  | entryStale (node : Nat)
  | entryRemoved (node : Nat)
  | isolationBegun
  | derateDecrement (f : Feed)
  | holdOffExpiry (f : Feed)
  | frameReceived (bytes : List Byte)
  | demandReceived (source : Nat) (payload : List Byte)
  | stopReceived
  | unknownOrder (m : OrderMeta) (payload : List Byte)
  | load (m : OrderMeta) (slot : Byte)
  | unload (m : OrderMeta)
  | start (m : OrderMeta)
  | hold (m : OrderMeta)
  | resume (m : OrderMeta)
  | abort (m : OrderMeta)
  | clearFault (m : OrderMeta)
  | readResult (m : OrderMeta) (position : Byte)
  | writeHeader (m : OrderMeta) (slot part : Byte) (contents : List Byte)
  | writeStep (m : OrderMeta) (slot index : Byte) (contents : List Byte)
  | closeRecipe (m : OrderMeta) (slot : Byte)
  | eraseRecipe (m : OrderMeta) (slot : Byte)
  | eraseStore (m : OrderMeta)
  | eraseStoreTargetDone
  | lockStore (m : OrderMeta)
  | readRecipe (m : OrderMeta) (slot kind part : Byte)
  | sumRecipe (m : OrderMeta) (slot : Byte)
  | writeProfile (m : OrderMeta) (profile count : Byte) (contents : List Byte)
  | storeOpComplete
  | diskReplaced (m : OrderMeta)
  | padReplaced (m : OrderMeta)
  | accumulationTimeout
  | queryStatus (m : OrderMeta) (page : Byte)
  | clearEvents (m : OrderMeta) (mask : BitVec 16)
  | restart (m : OrderMeta)
  | transmitStart
  | frameSent
  | echoMismatch
  | valveFeedbackFault (ch : Channel) (p : Path)
  | nonOverlapEnd (ch : Channel)
  | flushDone
  | postRinseWaitEnd
  | postRinseDone
  | warmUpEnd (ch : Channel)
  | strokePulse (ch : Channel)
  | flowmeterPulse (ch : Channel)
  | crossCheckWindow (ch : Channel)
  | flowMismatch (ch : Channel)
  | flowRestored (ch : Channel)
  | supplyLowRaise (ch : Channel)
  | supplyLowClear (ch : Channel)
  | supplyPersist
  | pumpBlocked (ch : Channel)
  | stepStart
  | minTimeReached
  | stepLimitReached
  | overpolishEnd
  | waitLong
  | endingComplete
  | abortingComplete
  | abortTimeout
  | rampTick
  | rampEnd
  | regulationTimeout (c : HeadCh)
  | overpressure (c : HeadCh)
  | supplyWarn
  | warnRearm
  | supplyAir
  | armArrival
  | armParked
  | segmentBoundary
  | homeFound
  | homeTimeout
  | armPositionFault
  | diskStall
  | diskLifeIncrement
  | padLifeIncrement
  | currentSample (counts : Nat)
  | symbolPeriodExpiry
  | lineLevelChange (l : Line) (high : Bool)
  | debounceExpiry (l : Line)
  | modeLinesChange (first second : Bool)
  | modeDecoded
  | driveFeedback (d : Drive) (tach estimate : Nat)
  | atSpeed (d : Drive)
  | tachPulse (d : Drive)
  | tachLost (d : Drive)
  | tachRestored (d : Drive)
  | driveTrip (d : Drive)
  | driveTripRelease (d : Drive)
  | resetLineActive
  | carrierBegins
  | driveCommandAtSetpoint (d : Drive)
  | measuredPressureChange (c : HeadCh) (value : Nat)
  deriving DecidableEq, Repr

end Sys2Proof
end

