-- ==== Sys2Proof/Config.lean ====
section
/-! DEFINITION. The free values: what the manual leaves open, as constants with no body. Nothing can be proved of their
values, so a claim holds whatever they are. What an implementation fixes (node number, limits, periods) is the
configuration image, which the part reads at every start and State holds (R194). -/

namespace Sys2Proof

/-- Which of several events of the part's own that fall due at one instant is taken first. The manual gives both
orders of such pairs (R5, R22, R35, R84, R178) and prefers none: log entry 3. -/
opaque Config.dueOrder : Nat → Nat

/-- A byte of a store part that a reset cut while it was being written or erased: "which may be a part partly
written" (R112). The arguments are the free-value counter and the byte's position: log entry 4. -/
opaque Config.cutByte : Nat → Nat → BitVec 8

/-- A written mark of a slot that a reset cut during an operation on the slot: "their stored marks" (R94, R108, R112).
The arguments are the free-value counter and the part's position: log entry 4. -/
opaque Config.cutMark : Nat → Nat → Bool

end Sys2Proof
end

