-- ==== Sys2Proof/Machine/State.lean ====
section
/-! DEFINITION. Every piece of state the manual gives the PSC-640, as plain data, block by block, and the state after
power-on. All times are whole microseconds (one bit time of the Station Link, Table 0-3), so that every duration of the
manual is a whole number; what the manual shows in 0.1 s is the floor of it (log entry 2). -/

namespace Sys2Proof.Machine

open Sys2Proof

/-! ### Fixed families of like things -/

/-- One value for each feed. -/
structure PerFeed (α : Type) where
  a : α
  b : α
  c : α
  d : α
  deriving DecidableEq, Repr

/-- One value for each head channel. -/
structure PerHead (α : Type) where
  z1 : α
  z2 : α
  z3 : α
  z4 : α
  z5 : α
  rr : α
  deriving DecidableEq, Repr

/-- One value for each interlock line. -/
structure PerLine (α : Type) where
  il0 : α
  il1 : α
  il2 : α
  il3 : α
  il4 : α
  il5 : α
  il6 : α
  il7 : α
  deriving DecidableEq, Repr

/-- One value for each drive. -/
structure PerDrive (α : Type) where
  platen : α
  head : α
  deriving DecidableEq, Repr

/-- One value for each dispense channel. -/
structure PerChannel (α : Type) where
  main : α
  additive : α
  deriving DecidableEq, Repr

/-- One value for each of the three signatures or matchers. -/
structure PerSig (α : Type) where
  s0 : α
  s1 : α
  s2 : α
  deriving DecidableEq, Repr

/-! ### CFG: the configuration image, start-up (Chapter 11) -/

/-- Start-up states (Table 11-2). LOADING takes no time (R195): SETTLE_END passes through it. -/
inductive StartUp where
  | settle | loading | listen | ready | configFault | duplicateNode
  deriving DecidableEq, Repr

/-- Reset causes (R199), in the order of the status record (Table 10-11). -/
inductive ResetCause where
  | powerOn | resetLine | restartOrder
  deriving DecidableEq, Repr

/-- STOP reaction (Table 11-1 byte 8). -/
inductive StopReaction where
  | hold | abort
  deriving DecidableEq, Repr

/-- Routing of an interlock event (Table 9-2). -/
inductive Routing where
  | note | hold | abort | linkStop
  deriving DecidableEq, Repr

/-- Type of an interlock line (R165). -/
inductive LineType where
  | edge | level
  deriving DecidableEq, Repr

/-- Settings of one interlock line as the image stores them (Table 11-1 bytes 83 to 90). Debounce in ms. -/
structure LineSettings where
  activeHigh : Bool
  type : LineType
  debounce : Nat
  routing : Routing
  deriving DecidableEq, Repr

/-- The configuration image in force: the adjusted fields of Table 11-1, in the units of that table. -/
structure Image where
  node : Nat
  cmdNode : Nat
  refreshPeriod : Nat
  serial : Nat
  stopReaction : StopReaction
  capacity : PerFeed Nat
  isolatedShare : PerFeed Nat
  plumbedMain : PerFeed Bool
  plumbedAdditive : PerFeed Bool
  pumpMax : PerChannel Nat
  pulseVolume : PerChannel Nat
  strokeVolume : PerChannel Nat
  tolerance : Nat
  threshold : PerChannel Nat
  nonOverlap : Nat
  flushVolume : Nat
  clampTimeout : Nat
  headMax : PerHead Nat
  zoneDiff : Nat
  zoneHold : Nat
  ringHold : Nat
  overMargin : Nat
  regTolerance : Nat
  settleLimit : Nat
  airWarn : Nat
  airTrip : Nat
  maxDownforce : Nat
  diskLimit : Nat
  padLimit : Nat
  lines : PerLine LineSettings
  acceleration : PerDrive Nat
  waitingLimit : Nat
  deriving DecidableEq, Repr

/-- CFG's state. `imageSum` is the stored sum of the image in force, which STARTED carries (R196); `settleTimer` runs
in SETTLE; `listenTicks` counts the refresh ticks of LISTEN (R195); `held` says that the reset input holds the part (R199). -/
structure Cfg where
  startUp : StartUp
  image : Option Image
  imageSum : Nat
  retry : Nat
  clampCount : Nat
  cause : ResetCause
  restartPending : Bool
  settleTimer : Nat
  listenTicks : Nat
  held : Bool
  deriving DecidableEq, Repr

/-! ### PEER (Chapter 1) -/

/-- Summary states (Table 10-6 numbers them 0 to 3). -/
inductive Summary where
  | idle | waiting | running | holding
  deriving DecidableEq, Repr

/-- State of a peer entry (Table 1-1). -/
inductive Presence where
  | present | stale
  deriving DecidableEq, Repr

/-- A demand item: feed, request, floor, weight, supply-low mark (R1). -/
structure Item where
  feed : Feed
  q : Nat
  m : Nat
  w : Nat
  low : Bool
  deriving DecidableEq, Repr

/-- A peer entry (Table 1-1). -/
structure PeerEntry where
  node : Nat
  presence : Presence
  summary : Summary
  items : List Item
  age : Nat
  deriving DecidableEq, Repr

/-- The own demand record (section 1.3). -/
structure OwnRecord where
  summary : Summary
  main : Option Item
  additive : Option Item
  deriving DecidableEq, Repr

/-- PEER's state. The table is a list with strictly rising node numbers (R1); the refresh timer is absent while stopped and
else holds the time since the last tick (R4). -/
structure Peer where
  table : List PeerEntry
  own : OwnRecord
  lowFeeds : PerFeed Bool
  refresh : Option Nat
  quiet : Nat
  isolated : Bool
  deriving DecidableEq, Repr

/-! ### SHR (Chapter 2) -/

/-- Share calculator state of one feed (Table 2-1). `markSeen`: a supply-low mark was seen since the previous refresh tick
(R22). Times are instants of `State.now`; `holdOff` is the expiry time. -/
structure FeedShare where
  k : Nat
  lastIncrement : Option Nat
  markFree : Nat
  markSeen : Bool
  computed : Nat
  effective : Nat
  holdOff : Option Nat
  deriving DecidableEq, Repr

/-! ### SDU (Chapter 3) -/

/-- Valve path states (Table 3-1). -/
inductive ValveState where
  | closed | opened | faultClosed
  deriving DecidableEq, Repr

/-- One valve path: its command state, the time since the last command that changed it (up to the 500 ms check), and how
long its feedback has disagreed since (R40). -/
structure Valve where
  state : ValveState
  sinceCommand : Nat
  disagree : Nat
  deriving DecidableEq, Repr

/-- The line feed (R41). -/
inductive LineFeed where
  | feed (f : Feed)
  | none
  | unknown
  deriving DecidableEq, Repr

/-- Target of a feed switch (Table 3-2). -/
inductive Target where
  | feed (f : Feed)
  | di
  | none
  deriving DecidableEq, Repr

/-- Switch state of a channel (R46). The POST_RINSE state of R46 is `postRinseWait` (its non-overlap wait, with the time
of its end) and then `postRinse` (with the volume counted, in µL). -/
inductive Switch where
  | idle
  | nonOverlap (ends : Nat)
  | flush (volume : Nat)
  | postRinseWait (ends : Nat)
  | postRinse (volume : Nat)
  deriving DecidableEq, Repr

/-- Measurement source of a channel (R53). -/
inductive FlowSource where
  | flowmeter | fallback
  deriving DecidableEq, Repr

/-- One dispense channel (R38, R41, R46, R49, R51, R54, R57, R60). `rate` 0 is a stopped pump; `warm` says that the warm-up
has ended; `vf` and `vs` are the volumes of the last closed window, which FLOW_MISMATCH carries (R55). -/
structure Dispense where
  valves : PerFeed Valve
  lineFeed : LineFeed
  switch : Switch
  target : Target
  rate : Nat
  warmTimer : Nat
  warm : Bool
  source : FlowSource
  calibrated : Nat
  windowOpen : Bool
  strokes : Nat
  pulses : Nat
  disagreeing : Nat
  agreeing : Nat
  vf : Nat
  vs : Nat
  supplyLow : Bool
  lowTimer : Nat
  recoveryTimer : Nat
  clampTimer : Nat
  deriving DecidableEq, Repr

/-- SDU's state. `di` and `diVolume` are the DI valve path and the volume of its present opening (R41); `dose` is the
totalizer in µL (R52); `rinseDone` is the report that the post-rinse is complete (R47). -/
structure Sdu where
  ch : PerChannel Dispense
  di : Valve
  diVolume : Nat
  u : Nat
  blend : Nat
  share : Bool
  dose : Nat
  persist : Nat
  mismatch : Bool
  rinseDone : Bool
  deriving DecidableEq, Repr

/-! ### Recipes and SEQ (Chapters 4 and 5) -/

/-- Step kinds (Table 5-4). -/
inductive StepKind where
  | polish | rinse | condition
  deriving DecidableEq, Repr

/-- Step terminations (Table 5-4). -/
inductive Termination where
  | time | dose | endpoint
  deriving DecidableEq, Repr

/-- Miss actions (Table 5-4). -/
inductive MissAction where
  | next | hold | abort
  deriving DecidableEq, Repr

/-- A step record (Table 5-4), decoded. -/
structure StepRec where
  kind : StepKind
  termination : Termination
  limit : Nat
  minTime : Nat
  doseTarget : Nat
  sigIndex : Option Nat
  overpolish : Nat
  miss : MissAction
  pressure : PerHead Nat
  rampTime : Nat
  platenSpeed : Nat
  headSpeed : Nat
  mainFeed : Option Feed
  flow : Nat
  floor : Nat
  weight : Nat
  addFeed : Option Feed
  ratio : Nat
  postRinse : Nat
  inSitu : Bool
  downforce : Nat
  profile : Nat
  deriving DecidableEq, Repr

/-- Symbols of the motor current (Table 8-2, Table 10-8). -/
inductive Symbol where
  | flat | rise | fall
  deriving DecidableEq, Repr

/-- A signature element (R96). -/
structure Elem where
  symbol : Symbol
  min : Nat
  max : Nat
  deriving DecidableEq, Repr

/-- SEQ's working copy of a recipe (R64, Table 5-3): the name's 12 bytes, the symbolizer settings (period in ms), the stored sum, the
signatures and the steps, whose number is the step count. -/
structure Recipe where
  name : List Byte
  threshold : Nat
  period : Nat
  recovery : Nat
  sum : Nat
  sigs : PerSig (List Elem)
  steps : List StepRec
  deriving DecidableEq, Repr

/-- Sequencer states, in the order of Table 4-1. -/
inductive SeqState where
  | empty | loaded | waiting | running | holding | ending | aborting | done | faulted
  deriving DecidableEq, Repr

/-- Hold causes, in the order of R77. -/
inductive Cause where
  | ordered | interlock | stop | mode | share | supply | conditioner | endpoint
  deriving DecidableEq, Repr

/-- A set of hold causes: each cause at most once (R77). -/
structure CauseSet where
  ordered : Bool
  interlock : Bool
  stop : Bool
  mode : Bool
  share : Bool
  supply : Bool
  conditioner : Bool
  endpoint : Bool
  deriving DecidableEq, Repr

/-- Fault kinds, in the order of Table 4-6. -/
inductive FaultKind where
  | leak | overpressure | supplyAir | valve | pumpBlocked | driveTrip | interlock | duplicateNode
  deriving DecidableEq, Repr

/-- The later-faults set: each kind at most once (R87). -/
structure KindSet where
  leak : Bool
  overpressure : Bool
  supplyAir : Bool
  valve : Bool
  pumpBlocked : Bool
  driveTrip : Bool
  interlock : Bool
  duplicateNode : Bool
  deriving DecidableEq, Repr

/-- Resume targets (R77). -/
inductive ResumeTarget where
  | waiting | running
  deriving DecidableEq, Repr

/-- The step's disposition (section 4.4). -/
inductive Disposition where
  | normal | conditioningOff | skip | concluded
  deriving DecidableEq, Repr

/-- Step results, in the order of Table 4-7. -/
inductive StepResult where
  | doneTime | doneDose | doneEndpoint | doseShort | endpointMissed | skipped | cut
  deriving DecidableEq, Repr

/-- Run results (R90), numbered 0 to 5 by R191. -/
inductive RunResult where
  | none | completed | aborted | stopped | faulted | lockedOut
  deriving DecidableEq, Repr

/-- The flags of a step (Table 4-7). -/
structure StepFlags where
  clamped : Bool
  shareShort : Bool
  flowFallback : Bool
  tachFallback : Bool
  condLost : Bool
  deriving DecidableEq, Repr

/-- A run record entry (Table 4-7). -/
structure RunEntry where
  index : Nat
  result : StepResult
  elapsed : Nat
  hold : Nat
  dose : Nat
  endpoint : Option Nat
  flags : StepFlags
  deriving DecidableEq, Repr

/-- SEQ's state. `elapsed`, `hold`, `waiting` and `abortTimer` are in µs; `endpoint` and `overEnd` in 0.1 s. `minReached`
says that the step's MIN_TIME_REACHED has been taken, `sinceStart` that no return to RUNNING has followed the step's start (R140). -/
structure Seq where
  state : SeqState
  copy : Option Recipe
  index : Nat
  causes : CauseSet
  deferred : CauseSet
  resume : Option ResumeTarget
  disposition : Disposition
  elapsed : Nat
  hold : Nat
  waiting : Nat
  waitLongSent : Bool
  minReached : Bool
  sinceStart : Bool
  endpoint : Option Nat
  overEnd : Option Nat
  abortTimer : Option Nat
  flags : StepFlags
  record : List RunEntry
  result : RunResult
  first : Option FaultKind
  later : KindSet
  deriving DecidableEq, Repr

/-! ### RCP (Chapter 5) -/

/-- Recipe slot states (Table 5-2). -/
inductive SlotState where
  | erased | opened | closed | corrupt
  deriving DecidableEq, Repr

/-- Sweep profile states (R99). -/
inductive ProfileState where
  | unwritten | written | corrupt
  deriving DecidableEq, Repr

/-- One recipe slot (R94): the bytes of header part 0 as written (16: name, threshold, period code, recovery periods), the
step count and stored sum, the three signature images (25 bytes each), the step records (24 of 32 bytes), and the written
marks. -/
structure Slot where
  state : SlotState
  part0 : List Byte
  stepCount : Nat
  sum : Nat
  sigs : PerSig (List Byte)
  steps : List (List Byte)
  markPart0 : Bool
  markSigs : PerSig Bool
  markSteps : List Bool
  deriving DecidableEq, Repr

/-- One segment of a sweep profile: outer radius in mm and speed in mm/s (R99). -/
structure Segment where
  outer : Nat
  speed : Nat
  deriving DecidableEq, Repr

/-- One sweep profile (R99). -/
structure Profile where
  state : ProfileState
  segments : List Segment
  deriving DecidableEq, Repr

/-- A store operation and what it writes (R101). `eraseStore` counts the targets already erased (R106). -/
inductive StoreOp where
  | writeHeader (slot part : Nat) (contents : List Byte)
  | writeStep (slot index : Nat) (contents : List Byte)
  | closeRecipe (slot count : Nat)
  | eraseRecipe (slot : Nat)
  | eraseStore (done : Nat)
  | writeProfile (profile : Nat) (segments : List Segment)
  deriving DecidableEq, Repr

/-- RCP's state. `inProgress` is the non-volatile in-progress mark (R101, R112); `op` is the volatile operation in flight,
with the time of its acceptance; `accumulation` is the accumulation timer in µs (R110). -/
structure Rcp where
  slots : List Slot
  profiles : List Profile
  diskStored : Nat
  padStored : Nat
  lock : Bool
  inProgress : Option StoreOp
  op : Option (StoreOp × Nat)
  accumulation : Nat
  deriving DecidableEq, Repr

/-! ### HPC (Chapter 6) -/

/-- Head channel states, in the order of Table 6-2. -/
inductive ChanState where
  | vented | ramping | regulating | channelFault
  deriving DecidableEq, Repr

/-- One pressure channel (Table 6-1). -/
structure HeadChan where
  state : ChanState
  requested : Nat
  target : Nat
  applied : Nat
  measured : Nat
  regTimer : Nat
  highReported : Bool
  overTimer : Nat
  deriving DecidableEq, Repr

/-- A ramp in progress (R120): the start values, the number of ticks n, the ticks taken k and the time since the last. -/
structure Ramp where
  starts : PerHead Nat
  n : Nat
  k : Nat
  timer : Nat
  deriving DecidableEq, Repr

/-- HPC's state. `inForce` says that the channels' targets are a target set in force (no vent since); `atTarget` is the
latest "at target" report; `warn` is the SUPPLY_WARN sticky event (R127). -/
structure Hpc where
  ch : PerHead HeadChan
  ramp : Option Ramp
  stepTargets : PerHead Nat
  inForce : Bool
  atTarget : Bool
  warn : Bool
  armed : Bool
  rearmTimer : Nat
  tripTimer : Nat
  deriving DecidableEq, Repr

/-! ### PCC (Chapter 7) -/

/-- Arm states, in the order of Table 7-1. -/
inductive ArmState where
  | parked | movingIn | sweeping | lifting | lost
  deriving DecidableEq, Repr

/-- Sweep directions. -/
inductive Direction where
  | outward | inward
  deriving DecidableEq, Repr

/-- Arm fault causes, in the order of R143. -/
inductive ArmCause where
  | position | stall | profile | home
  deriving DecidableEq, Repr

/-- A resume point: a radius (nm), a segment index (from 1) and a direction (R131). -/
structure ResumePoint where
  radius : Nat
  segment : Nat
  direction : Direction
  deriving DecidableEq, Repr

/-- PCC's state. Radii are in nm, so that a speed in mm/s moves whole nm in a µs. `search` is the time of the home search
in progress, absent before it begins. `diskRemainder` is in N·µs and `padRemainder` in µs (a thousand times finer than R139
and R140 show them). `destination` is the radius a MOVING_IN arm travels toward. -/
structure Pcc where
  arm : ArmState
  radius : Nat
  destination : Nat
  homeFound : Bool
  search : Option Nat
  segments : List Segment
  segment : Nat
  direction : Direction
  downforce : Nat
  resume : Option ResumePoint
  withdrawn : Bool
  diskLife : Nat
  diskRemainder : Nat
  padLife : Nat
  padRemainder : Nat
  diskWarned : Bool
  padWarned : Bool
  condLost : Bool
  positionTimer : Nat
  stallTimer : Nat
  deriving DecidableEq, Repr

/-! ### EPM (Chapter 8) -/

/-- Symbolizer states (Table 8-1). -/
inductive SymState where
  | stopped | reference | classifying | suspended
  deriving DecidableEq, Repr

/-- A matcher: progress and recovery count (R153). -/
structure Matcher where
  p : Nat
  recovery : Nat
  deriving DecidableEq, Repr

/-- EPM's step settings (R148). Period in ms, min time in 0.1 s. -/
structure EpmSettings where
  threshold : Nat
  period : Nat
  recovery : Nat
  sigs : PerSig (List Elem)
  sigIndex : Option Nat
  minTime : Nat
  deriving DecidableEq, Repr

/-- EPM's state. The window holds its samples oldest first (R147); `current` is the current symbol with the period count
at which it began (R151). -/
structure Epm where
  window : List Nat
  sampleTimer : Nat
  state : SymState
  periodTimer : Nat
  count : Nat
  previous : Nat
  current : Option (Symbol × Nat)
  matchers : PerSig Matcher
  settings : Option EpmSettings
  deriving DecidableEq, Repr

/-! ### ILK (Chapter 9) -/

/-- Debounced level of an interlock line (Table 9-1). -/
inductive Level where
  | active | inactive | unknown
  deriving DecidableEq, Repr

/-- State of one interlock line (Table 9-1). -/
structure LineState where
  level : Level
  timer : Nat
  armed : Bool
  sticky : Bool
  deriving DecidableEq, Repr

/-- Tool modes, in the order of Table 9-3. -/
inductive ToolMode where
  | run | service | lockout
  deriving DecidableEq, Repr

/-- ILK's state. `decoded` is the decoded combination of the two mode lines, absent before the first decoding (R176). -/
structure Ilk where
  lines : PerLine LineState
  mode : ToolMode
  decoded : Option (Bool × Bool)
  modeTimer : Nat
  modeIllegal : Bool
  deriving DecidableEq, Repr

/-! ### DRV (Chapter 9) -/

/-- Feedback sources (R174). -/
inductive TachSource where
  | tach | estimate
  deriving DecidableEq, Repr

/-- One drive (R172 to R175). `ramp` holds the start value and the time of a ramp in progress. -/
structure DriveState where
  setpoint : Nat
  command : Nat
  ramp : Option (Nat × Nat)
  source : TachSource
  atSpeed : Bool
  atSpeedTimer : Nat
  tachLoss : Nat
  agreement : Nat
  silence : Nat
  deriving DecidableEq, Repr

/-- DRV's state, with the TACH_LOST sticky event. -/
structure Drv where
  drive : PerDrive DriveState
  tachLost : Bool
  deriving DecidableEq, Repr

/-! ### LNK (Chapter 10) -/

/-- Frame kinds, with the classes of Table 10-1. -/
inductive FrameKind where
  | stop | order | answer | demand | notice
  deriving DecidableEq, Repr

/-- A frame waiting in a queue or slot: kind, tag, payload, and its collision count (R178, R179). Source and destination
follow from the kind (R13, R167, R185); a NOTICE's lost count is written in when it starts (R186). -/
structure Frame where
  kind : FrameKind
  tag : Byte
  payload : List Byte
  collisions : Nat
  deriving DecidableEq, Repr

/-- The frame on the line: the transmitter's own copy, the time it has been driven, the notices-lost count it carries, and
whether its slot has been filled anew meanwhile (R178). -/
structure Sending where
  frame : Frame
  timer : Nat
  lost : Nat
  replaced : Bool
  deriving DecidableEq, Repr

/-- LNK's state. `carrier` is absent on a quiet line, and else says whether the frame of the other node's carrier may be
taken (R181); `received` is the receive buffer; `dupFound` keeps the FAULT line asserted by LNK (R182). -/
structure Lnk where
  stopSlot : Option Frame
  answers : List Frame
  demandSlot : Option Frame
  notices : List Frame
  sending : Option Sending
  carrier : Option Bool
  received : List Byte
  quiet : Nat
  lost : Nat
  collisionSeen : Bool
  checkErrorSeen : Bool
  malformedSeen : Bool
  dupFound : Bool
  deriving DecidableEq, Repr

/-! ### Inputs -/

/-- The levels and readings at the part's input pins (section 0.4). They belong to the outside: commands with a reading
write them, and those that have no row of the table are set from outside like the queue (log entry 6). Electrical levels are
true for high; pressures in 0.1 kPa; the arm feedback in nm; `configMemory` is the 128 bytes the memory answers, or none;
`supplyLow` says that the logic supply stands below its working level (R199). -/
structure Pins where
  supplyLow : Bool
  lines : PerLine Bool
  modeFirst : Bool
  modeSecond : Bool
  configMemory : Option (List Byte)
  valveOpen : PerChannel (PerFeed Bool)
  diOpen : Bool
  inlet : PerChannel Nat
  clampSense : PerChannel Bool
  air : Nat
  armFeedback : Nat
  homeSwitch : Bool
  diskPulsing : Bool
  tachSpeed : PerDrive Nat
  estimate : PerDrive Nat
  trip : PerDrive Bool
  motorCurrent : Nat
  deriving DecidableEq, Repr

/-! ### The whole part -/

/-- The machine: the blocks of Table 0-1, the pins, the model's clock, the counter of free values, and the queue of commands
waiting, first in, first out. -/
structure State where
  cfg : Cfg
  peer : Peer
  shr : PerFeed FeedShare
  sdu : Sdu
  seq : Seq
  rcp : Rcp
  hpc : Hpc
  pcc : Pcc
  epm : Epm
  ilk : Ilk
  drv : Drv
  lnk : Lnk
  pins : Pins
  now : Nat
  freeCount : Nat
  pending : List Instr
  deriving DecidableEq, Repr

/-- No command of this part ends in a fault: the manual gives every event its effect in every state, and a machine stop is
none of them (a FAULT of the station is the sequencer state FAULTED, R87). Closed and empty. -/
inductive Fault where
  deriving DecidableEq, Repr

/-- Why a command has no meaning. -/
inductive Refusal where
  /-- Raised by an arm of `exec` whose command has not been modelled yet; safe. No arm raises it now. -/
  | notModelled (mnemonic : String)
  deriving DecidableEq, Repr

/-! ### The values after reset -/

def CauseSet.empty : CauseSet := ⟨false, false, false, false, false, false, false, false⟩
def KindSet.empty : KindSet := ⟨false, false, false, false, false, false, false, false⟩
def StepFlags.empty : StepFlags := ⟨false, false, false, false, false⟩
def OwnRecord.empty : OwnRecord := ⟨.idle, none, none⟩
def PerFeed.all {α : Type} (x : α) : PerFeed α := ⟨x, x, x, x⟩
def PerHead.all {α : Type} (x : α) : PerHead α := ⟨x, x, x, x, x, x⟩
def PerLine.all {α : Type} (x : α) : PerLine α := ⟨x, x, x, x, x, x, x, x⟩
def PerDrive.all {α : Type} (x : α) : PerDrive α := ⟨x, x⟩
def PerChannel.all {α : Type} (x : α) : PerChannel α := ⟨x, x⟩
def PerSig.all {α : Type} (x : α) : PerSig α := ⟨x, x, x⟩

/-- PEER after any reset (R17). -/
def Peer.reset : Peer :=
  { table := [], own := .empty, lowFeeds := .all false, refresh := none, quiet := 0, isolated := false }

/-- A feed of SHR after any reset (R37). The mark of a DEMAND seen since the last tick, which R37 does not list, is clear: DESIGN CHOICE,
log entry 8. -/
def FeedShare.reset : FeedShare :=
  { k := 0, lastIncrement := none, markFree := 0, markSeen := false, computed := 0, effective := 0, holdOff := none }

/-- A valve path after any reset (R61). Its two times, which R61 does not list, are 0: DESIGN CHOICE, log entry 8. -/
def Valve.reset : Valve := { state := .closed, sinceCommand := 0, disagree := 0 }

/-- A dispense channel after any reset (R61). The calibrated stroke volume takes the nominal value of the image when the
image is loaded (R54); before that no image gives one. The switch target NONE, the warm-up timer and mark, no window open and the last
window's volumes 0, none of which R61 lists, are like it DESIGN CHOICE, log entry 8. -/
def Dispense.reset : Dispense :=
  { valves := .all .reset, lineFeed := .unknown, switch := .idle, target := .none, rate := 0, warmTimer := 0,
    warm := false, source := .flowmeter, calibrated := 0, windowOpen := false, strokes := 0, pulses := 0,
    disagreeing := 0, agreeing := 0, vf := 0, vs := 0, supplyLow := false, lowTimer := 0, recoveryTimer := 0,
    clampTimer := 0 }

/-- SDU after any reset (R61). The DI volume of the present opening and the blend rate, which R61 does not list, are 0, and the post-rinse
is not reported complete: DESIGN CHOICE, log entry 8. -/
def Sdu.reset : Sdu :=
  { ch := .all .reset, di := .reset, diVolume := 0, u := 0, blend := 0, share := false, dose := 0, persist := 0,
    mismatch := false, rinseDone := false }

/-- SEQ after any reset (R92). The step's flags and the marks of WAIT_LONG sent, of the min time and of the step's start, which R92 does not
list, are clear: DESIGN CHOICE, log entry 8. -/
def Seq.reset : Seq :=
  { state := .empty, copy := none, index := 0, causes := .empty, deferred := .empty, resume := none,
    disposition := .normal, elapsed := 0, hold := 0, waiting := 0, waitLongSent := false, minReached := false,
    sinceStart := false, endpoint := none, overEnd := none, abortTimer := none, flags := .empty, record := [], result := .none,
    first := none, later := .empty }

/-- A signature image of an unwritten part: length 0 and eight positions of FLAT, min 0, max 0 (R96, R190). -/
def Slot.unusedSig : List Byte := List.replicate 25 0

/-- A slot as erased (R105): no part written, step count 0, every signature unused. Its stored sum, 0 until CLOSE_RECIPE sets one, and the
bytes of header part 0 and of the step records, 0 until a write, are not spoken of by R105: DESIGN CHOICE, log entry 39. -/
def Slot.erased : Slot :=
  { state := .erased, part0 := List.replicate 16 0, stepCount := 0, sum := 0, sigs := .all Slot.unusedSig,
    steps := List.replicate 24 (List.replicate 32 0), markPart0 := false, markSigs := .all false,
    markSteps := List.replicate 24 false }

/-- An unwritten profile (R99). -/
def Profile.erased : Profile := { state := .unwritten, segments := [] }

/-- A store that has never been written (R93). -/
def Rcp.fresh : Rcp :=
  { slots := List.replicate 16 .erased, profiles := List.replicate 4 .erased, diskStored := 0, padStored := 0,
    lock := false, inProgress := none, op := none, accumulation := 0 }

/-- A head channel after any reset, its sensor reading aside (R130). -/
def HeadChan.reset (measured : Nat) : HeadChan :=
  { state := .vented, requested := 0, target := 0, applied := 0, measured := measured, regTimer := 0,
    highReported := false, overTimer := 0 }

/-- HPC after any reset, with the six sensor readings, which follow the sensors (R130). The mark of a target set in force and the at-target
report, which R130 does not list, are clear: DESIGN CHOICE, log entry 8. -/
def Hpc.reset (measured : PerHead Nat) : Hpc :=
  { ch := ⟨.reset measured.z1, .reset measured.z2, .reset measured.z3, .reset measured.z4, .reset measured.z5,
      .reset measured.rr⟩,
    ramp := none, stepTargets := .all 0, inForce := false, atTarget := false, warn := false, armed := true,
    rearmTimer := 0, tripTimer := 0 }

/-- 1 mm in the model's radius unit. -/
def Pcc.mm : Nat := 1000000

/-- PCC after any reset, with the live counters at their stored copies (R111, R146). The commanded radius stands at park until the home
search begins, and the sweep record's segment is 1 and its direction OUTWARD: DESIGN CHOICE, log entry 8. -/
def Pcc.reset (disk pad : Nat) : Pcc :=
  { arm := .parked, radius := 420 * Pcc.mm, destination := 420 * Pcc.mm, homeFound := false, search := none,
    segments := [], segment := 1, direction := .outward, downforce := 0, resume := none, withdrawn := false,
    diskLife := disk, diskRemainder := 0, padLife := pad, padRemainder := 0, diskWarned := false, padWarned := false,
    condLost := false, positionTimer := 0, stallTimer := 0 }

/-- EPM after any reset (R162). Sampling begins at the reset: the first sample is due at once, so that the window holds 16 after 150 ms
(R147). -/
def Epm.reset : Epm :=
  { window := [], sampleTimer := 10000, state := .stopped, periodTimer := 0, count := 0, previous := 0, current := none,
    matchers := .all ⟨0, 0⟩, settings := none }

/-- ILK after any reset (R176). -/
def Ilk.reset : Ilk :=
  { lines := .all { level := .unknown, timer := 0, armed := false, sticky := false }, mode := .lockout,
    decoded := none, modeTimer := 0, modeIllegal := false }

/-- A drive after any reset (R176). No ramp is in progress and the time without a tach pulse, which R176 does not list, is 0: DESIGN
CHOICE, log entry 8. -/
def DriveState.reset : DriveState :=
  { setpoint := 0, command := 0, ramp := none, source := .tach, atSpeed := false, atSpeedTimer := 0, tachLoss := 0,
    agreement := 0, silence := 0 }

/-- DRV after any reset (R176). -/
def Drv.reset : Drv := { drive := .all .reset, tachLost := false }

/-- LNK after any reset, with another node's carrier standing on the line as it stood (R193). -/
def Lnk.reset (carrier : Option Bool) : Lnk :=
  { stopSlot := none, answers := [], demandSlot := none, notices := [], sending := none, carrier := carrier,
    received := [], quiet := 0, lost := 0, collisionSeen := false, checkErrorSeen := false, malformedSeen := false,
    dupFound := false }

/-- CFG after a reset of the given cause (R195, R199). -/
def Cfg.reset (cause : ResetCause) (held : Bool) : Cfg :=
  { startUp := .settle, image := none, imageSum := 0, retry := 0, clampCount := 0, cause := cause,
    restartPending := false, settleTimer := 0, listenTicks := 0, held := held }

/-- The pins as State.reset presents them: every level low, every reading 0, and a configuration memory that does not
answer. The outside owns them: log entry 8. -/
def Pins.quiet : Pins :=
  { supplyLow := false, lines := .all false, modeFirst := false, modeSecond := false, configMemory := none,
    valveOpen := .all (.all false), diOpen := false, inlet := .all 0, clampSense := .all false, air := 0,
    armFeedback := 0, homeSwitch := false, diskPulsing := false, tachSpeed := .all 0, estimate := .all 0,
    trip := .all false, motorCurrent := 0 }

/-- The machine right after power-on, with a store that has never been written (R93, R199). The six measured values, which follow the
sensors (R130), start at 0: DESIGN CHOICE, log entry 8. -/
def State.reset : State :=
  { cfg := .reset .powerOn false, peer := .reset, shr := .all .reset, sdu := .reset, seq := .reset, rcp := .fresh,
    hpc := .reset (.all 0), pcc := .reset 0 0, epm := .reset, ilk := .reset, drv := .reset, lnk := .reset none,
    pins := .quiet, now := 0, freeCount := 0, pending := [] }

end Sys2Proof.Machine
end

