-- ==== Sys2Proof/Machine/Tables.lean ====
section
/-! DEFINITION. Reading and updating the fixed families of State (one value per feed, head channel, line, drive, dispense
channel, signature), and the sets of causes and fault kinds. -/

namespace Sys2Proof.Machine

open Sys2Proof

/-! ### PerFeed -/

/-- The value at an index. -/
def PerFeed.get {α : Type} (v : PerFeed α) (i : Feed) : α :=
  match i with
  | .a => v.a
  | .b => v.b
  | .c => v.c
  | .d => v.d

/-- The family with one value replaced. -/
def PerFeed.set {α : Type} (v : PerFeed α) (i : Feed) (x : α) : PerFeed α :=
  match i with
  | .a => { v with a := x }
  | .b => { v with b := x }
  | .c => { v with c := x }
  | .d => { v with d := x }

/-- The family with every value mapped. -/
def PerFeed.map {α β : Type} (f : α → β) (v : PerFeed α) : PerFeed β :=
  ⟨f v.a, f v.b, f v.c, f v.d⟩

/-- The family given value by value. -/
def PerFeed.of {α : Type} (f : Feed → α) : PerFeed α :=
  ⟨f .a, f .b, f .c, f .d⟩

/-- The values in index order. -/
def PerFeed.toList {α : Type} (v : PerFeed α) : List α := [v.a, v.b, v.c, v.d]

/-- The indices in order. -/
def PerFeed.indices : List Feed := [.a, .b, .c, .d]

/-! ### PerHead -/

/-- The value at an index. -/
def PerHead.get {α : Type} (v : PerHead α) (i : HeadCh) : α :=
  match i with
  | .z1 => v.z1
  | .z2 => v.z2
  | .z3 => v.z3
  | .z4 => v.z4
  | .z5 => v.z5
  | .rr => v.rr

/-- The family with one value replaced. -/
def PerHead.set {α : Type} (v : PerHead α) (i : HeadCh) (x : α) : PerHead α :=
  match i with
  | .z1 => { v with z1 := x }
  | .z2 => { v with z2 := x }
  | .z3 => { v with z3 := x }
  | .z4 => { v with z4 := x }
  | .z5 => { v with z5 := x }
  | .rr => { v with rr := x }

/-- The family with every value mapped. -/
def PerHead.map {α β : Type} (f : α → β) (v : PerHead α) : PerHead β :=
  ⟨f v.z1, f v.z2, f v.z3, f v.z4, f v.z5, f v.rr⟩

/-- The family given value by value. -/
def PerHead.of {α : Type} (f : HeadCh → α) : PerHead α :=
  ⟨f .z1, f .z2, f .z3, f .z4, f .z5, f .rr⟩

/-- The values in index order. -/
def PerHead.toList {α : Type} (v : PerHead α) : List α := [v.z1, v.z2, v.z3, v.z4, v.z5, v.rr]

/-- The indices in order. -/
def PerHead.indices : List HeadCh := [.z1, .z2, .z3, .z4, .z5, .rr]

/-! ### PerLine -/

/-- The value at an index. -/
def PerLine.get {α : Type} (v : PerLine α) (i : Line) : α :=
  match i with
  | .il0 => v.il0
  | .il1 => v.il1
  | .il2 => v.il2
  | .il3 => v.il3
  | .il4 => v.il4
  | .il5 => v.il5
  | .il6 => v.il6
  | .il7 => v.il7

/-- The family with one value replaced. -/
def PerLine.set {α : Type} (v : PerLine α) (i : Line) (x : α) : PerLine α :=
  match i with
  | .il0 => { v with il0 := x }
  | .il1 => { v with il1 := x }
  | .il2 => { v with il2 := x }
  | .il3 => { v with il3 := x }
  | .il4 => { v with il4 := x }
  | .il5 => { v with il5 := x }
  | .il6 => { v with il6 := x }
  | .il7 => { v with il7 := x }

/-- The family with every value mapped. -/
def PerLine.map {α β : Type} (f : α → β) (v : PerLine α) : PerLine β :=
  ⟨f v.il0, f v.il1, f v.il2, f v.il3, f v.il4, f v.il5, f v.il6, f v.il7⟩

/-- The family given value by value. -/
def PerLine.of {α : Type} (f : Line → α) : PerLine α :=
  ⟨f .il0, f .il1, f .il2, f .il3, f .il4, f .il5, f .il6, f .il7⟩

/-- The values in index order. -/
def PerLine.toList {α : Type} (v : PerLine α) : List α := [v.il0, v.il1, v.il2, v.il3, v.il4, v.il5, v.il6, v.il7]

/-- The indices in order. -/
def PerLine.indices : List Line := [.il0, .il1, .il2, .il3, .il4, .il5, .il6, .il7]

/-! ### PerDrive -/

/-- The value at an index. -/
def PerDrive.get {α : Type} (v : PerDrive α) (i : Drive) : α :=
  match i with
  | .platen => v.platen
  | .head => v.head

/-- The family with one value replaced. -/
def PerDrive.set {α : Type} (v : PerDrive α) (i : Drive) (x : α) : PerDrive α :=
  match i with
  | .platen => { v with platen := x }
  | .head => { v with head := x }

/-- The family with every value mapped. -/
def PerDrive.map {α β : Type} (f : α → β) (v : PerDrive α) : PerDrive β :=
  ⟨f v.platen, f v.head⟩

/-- The family given value by value. -/
def PerDrive.of {α : Type} (f : Drive → α) : PerDrive α :=
  ⟨f .platen, f .head⟩

/-- The values in index order. -/
def PerDrive.toList {α : Type} (v : PerDrive α) : List α := [v.platen, v.head]

/-- The indices in order. -/
def PerDrive.indices : List Drive := [.platen, .head]

/-! ### PerChannel -/

/-- The value at an index. -/
def PerChannel.get {α : Type} (v : PerChannel α) (i : Channel) : α :=
  match i with
  | .main => v.main
  | .additive => v.additive

/-- The family with one value replaced. -/
def PerChannel.set {α : Type} (v : PerChannel α) (i : Channel) (x : α) : PerChannel α :=
  match i with
  | .main => { v with main := x }
  | .additive => { v with additive := x }

/-- The family with every value mapped. -/
def PerChannel.map {α β : Type} (f : α → β) (v : PerChannel α) : PerChannel β :=
  ⟨f v.main, f v.additive⟩

/-- The family given value by value. -/
def PerChannel.of {α : Type} (f : Channel → α) : PerChannel α :=
  ⟨f .main, f .additive⟩

/-- The values in index order. -/
def PerChannel.toList {α : Type} (v : PerChannel α) : List α := [v.main, v.additive]

/-- The indices in order. -/
def PerChannel.indices : List Channel := [.main, .additive]

/-! ### Numbers of the enumerations (R187: numbered from 0 in the order of their owning table) -/

/-- The number of a Feed. -/
def numFeed (i : Feed) : Nat :=
  match i with
  | .a => 0
  | .b => 1
  | .c => 2
  | .d => 3

/-- The number of a HeadCh. -/
def numHeadCh (i : HeadCh) : Nat :=
  match i with
  | .z1 => 0
  | .z2 => 1
  | .z3 => 2
  | .z4 => 3
  | .z5 => 4
  | .rr => 5

/-- The number of a Line. -/
def numLine (i : Line) : Nat :=
  match i with
  | .il0 => 0
  | .il1 => 1
  | .il2 => 2
  | .il3 => 3
  | .il4 => 4
  | .il5 => 5
  | .il6 => 6
  | .il7 => 7

/-- The number of a Drive. -/
def numDrive (i : Drive) : Nat :=
  match i with
  | .platen => 0
  | .head => 1

/-- The number of a Channel. -/
def numChannel (i : Channel) : Nat :=
  match i with
  | .main => 0
  | .additive => 1

/-- The feed of an index, if it names one (0 to 3). -/
def feedOf (n : Nat) : Option Feed :=
  match n with
  | 0 => some .a
  | 1 => some .b
  | 2 => some .c
  | 3 => some .d
  | _ => none

/-! ### Signatures and matchers, by index 0 to 2 -/

/-- The value of signature or matcher `i`; indices from 2 on read the last. -/
def PerSig.get {α : Type} (v : PerSig α) (i : Nat) : α :=
  match i with
  | 0 => v.s0
  | 1 => v.s1
  | _ => v.s2

/-- The family with the value of signature `i` replaced. -/
def PerSig.set {α : Type} (v : PerSig α) (i : Nat) (x : α) : PerSig α :=
  match i with
  | 0 => { v with s0 := x }
  | 1 => { v with s1 := x }
  | _ => { v with s2 := x }

/-! ### Hold causes (R77) -/

/-- Whether a set holds a cause. -/
def CauseSet.has (v : CauseSet) (c : Cause) : Bool :=
  match c with
  | .ordered => v.ordered
  | .interlock => v.interlock
  | .stop => v.stop
  | .mode => v.mode
  | .share => v.share
  | .supply => v.supply
  | .conditioner => v.conditioner
  | .endpoint => v.endpoint

/-- The set with the membership of one cause set. -/
def CauseSet.put (v : CauseSet) (c : Cause) (x : Bool) : CauseSet :=
  match c with
  | .ordered => { v with ordered := x }
  | .interlock => { v with interlock := x }
  | .stop => { v with stop := x }
  | .mode => { v with mode := x }
  | .share => { v with share := x }
  | .supply => { v with supply := x }
  | .conditioner => { v with conditioner := x }
  | .endpoint => { v with endpoint := x }

/-- The set with one cause added. -/
def CauseSet.add (v : CauseSet) (c : Cause) : CauseSet := v.put c true

/-- The set with one cause removed. -/
def CauseSet.remove (v : CauseSet) (c : Cause) : CauseSet := v.put c false

/-- The members in order, as bits: bit 0 for the first (R187). -/
def CauseSet.bits (v : CauseSet) : List Bool := [v.ordered, v.interlock, v.stop, v.mode, v.share, v.supply, v.conditioner, v.endpoint]

/-- Whether the set is empty. -/
def CauseSet.isEmpty (v : CauseSet) : Bool :=
  !(v.ordered || v.interlock || v.stop || v.mode || v.share || v.supply || v.conditioner || v.endpoint)

/-- The union of two sets. -/
def CauseSet.union (v w : CauseSet) : CauseSet :=
  ⟨v.ordered || w.ordered, v.interlock || w.interlock, v.stop || w.stop, v.mode || w.mode, v.share || w.share,
    v.supply || w.supply, v.conditioner || w.conditioner, v.endpoint || w.endpoint⟩

/-- Whether the set holds a cause other than SHARE and SUPPLY (R9). -/
def CauseSet.notForSlurry (v : CauseSet) : Bool :=
  v.ordered || v.interlock || v.stop || v.mode || v.conditioner || v.endpoint

/-! ### Fault kinds (R87) -/

/-- Whether a set holds a kind. -/
def KindSet.has (v : KindSet) (c : FaultKind) : Bool :=
  match c with
  | .leak => v.leak
  | .overpressure => v.overpressure
  | .supplyAir => v.supplyAir
  | .valve => v.valve
  | .pumpBlocked => v.pumpBlocked
  | .driveTrip => v.driveTrip
  | .interlock => v.interlock
  | .duplicateNode => v.duplicateNode

/-- The set with the membership of one kind set. -/
def KindSet.put (v : KindSet) (c : FaultKind) (x : Bool) : KindSet :=
  match c with
  | .leak => { v with leak := x }
  | .overpressure => { v with overpressure := x }
  | .supplyAir => { v with supplyAir := x }
  | .valve => { v with valve := x }
  | .pumpBlocked => { v with pumpBlocked := x }
  | .driveTrip => { v with driveTrip := x }
  | .interlock => { v with interlock := x }
  | .duplicateNode => { v with duplicateNode := x }

/-- The set with one kind added. -/
def KindSet.add (v : KindSet) (c : FaultKind) : KindSet := v.put c true

/-- The set with one kind removed. -/
def KindSet.remove (v : KindSet) (c : FaultKind) : KindSet := v.put c false

/-- The members in order, as bits: bit 0 for the first (R187). -/
def KindSet.bits (v : KindSet) : List Bool := [v.leak, v.overpressure, v.supplyAir, v.valve, v.pumpBlocked, v.driveTrip, v.interlock, v.duplicateNode]

/-- The number of a fault kind, its position in Table 4-6. -/
def numKind (k : FaultKind) : Nat :=
  match k with
  | .leak => 0
  | .overpressure => 1
  | .supplyAir => 2
  | .valve => 3
  | .pumpBlocked => 4
  | .driveTrip => 5
  | .interlock => 6
  | .duplicateNode => 7

end Sys2Proof.Machine
end

