-- ==== Sys2Proof/Machine/Operands.lean ====
section
/-! DEFINITION. The byte layouts: little-endian values, bit sets, step records, header parts, signatures, sweep profiles, run
record entries (R187, R190, Table 10-8, Table 10-10). -/

namespace Sys2Proof.Machine

open Sys2Proof

/-! ### Bytes -/

/-- The low byte of a number. -/
def byteOf (n : Nat) : Byte := BitVec.ofNat 8 n

/-- A two-byte value, little-endian (R187). -/
def le2 (n : Nat) : List Byte := [byteOf n, byteOf (n / 256)]

/-- A four-byte value, little-endian (R187). -/
def le4 (n : Nat) : List Byte := [byteOf n, byteOf (n / 256), byteOf (n / 65536), byteOf (n / 16777216)]

/-- The byte at a position, as a number; 0 beyond the end. -/
def rd (bs : List Byte) (i : Nat) : Nat := (bs.getD i 0).toNat

/-- The two-byte value at a position. -/
def rd2 (bs : List Byte) (i : Nat) : Nat := rd bs i + 256 * rd bs (i + 1)

/-- The four-byte value at a position. -/
def rd4 (bs : List Byte) (i : Nat) : Nat := rd2 bs i + 65536 * rd2 bs (i + 2)

/-- `w` bits of a number from bit `lo`. -/
def bitsAt (n lo w : Nat) : Nat := n / 2 ^ lo % 2 ^ w

/-- The sum of bytes. -/
def byteSum (bs : List Byte) : Nat := bs.foldr (fun b n => b.toNat + n) 0

/-- A bit set as a number, bit 0 for the first member (R187). -/
def bitSet (bs : List Bool) : Nat := bs.foldr (fun b n => (if b then 1 else 0) + 2 * n) 0

/-- Yes is 1 and no is 0 (R189). -/
def yesNo (b : Bool) : Byte := if b then 1 else 0

/-! ### Step records (Table 10-8) -/

/-- A feed field of a step record: 0 to 3 A to D, 7 NONE. -/
def feedField (n : Nat) : Option Feed := feedOf n

/-- The six pressures: 10 bits each from bit 0 of byte 11 upward. -/
def pressureBits (bs : List Byte) : Nat := rd4 bs 11 + 4294967296 * rd4 bs 15

/-- R190: no coded field holds a value with no meaning, and no bit or byte shown as zero is set. -/
def stepMeaningful (bs : List Byte) : Bool :=
  bitsAt (rd bs 0) 0 2 ≤ 2 && bitsAt (rd bs 0) 2 2 ≤ 2 && bitsAt (rd bs 1) 2 2 ≤ 2 && bitsAt (rd bs 1) 7 1 == 0 &&
  (bitsAt (rd bs 2) 0 3 ≤ 3 || bitsAt (rd bs 2) 0 3 == 7) && (bitsAt (rd bs 2) 3 3 ≤ 3 || bitsAt (rd bs 2) 3 3 == 7) &&
  bitsAt (rd bs 2) 6 2 == 0 && bitsAt (rd bs 18) 4 4 == 0 && rd bs 30 == 0 && rd bs 31 == 0

/-- A step record read from its 32 bytes (Table 10-8). -/
def readStep (bs : List Byte) : StepRec :=
  { kind := if bitsAt (rd bs 0) 0 2 == 0 then .polish else if bitsAt (rd bs 0) 0 2 == 1 then .rinse else .condition
    termination := if bitsAt (rd bs 0) 2 2 == 0 then .time else if bitsAt (rd bs 0) 2 2 == 1 then .dose else .endpoint
    weight := bitsAt (rd bs 0) 4 4
    sigIndex := if bitsAt (rd bs 1) 0 2 == 3 then none else some (bitsAt (rd bs 1) 0 2)
    miss := if bitsAt (rd bs 1) 2 2 == 0 then .next else if bitsAt (rd bs 1) 2 2 == 1 then .hold else .abort
    profile := bitsAt (rd bs 1) 4 2
    inSitu := bitsAt (rd bs 1) 6 1 == 1
    mainFeed := feedField (bitsAt (rd bs 2) 0 3)
    addFeed := feedField (bitsAt (rd bs 2) 3 3)
    limit := rd2 bs 3
    minTime := rd2 bs 5
    doseTarget := rd2 bs 7
    overpolish := rd2 bs 9
    pressure := ⟨bitsAt (pressureBits bs) 0 10, bitsAt (pressureBits bs) 10 10, bitsAt (pressureBits bs) 20 10,
      bitsAt (pressureBits bs) 30 10, bitsAt (pressureBits bs) 40 10, bitsAt (pressureBits bs) 50 10⟩
    rampTime := rd bs 19
    platenSpeed := rd bs 20
    headSpeed := rd bs 21
    flow := rd2 bs 22
    floor := rd2 bs 24
    ratio := rd bs 26
    postRinse := rd2 bs 27
    downforce := rd bs 29 }

/-- Every field is in its range (Table 5-4, R97). -/
def stepInRange (r : StepRec) : Bool :=
  (1 ≤ r.limit && r.limit ≤ 6000) && r.minTime ≤ 6000 && r.doseTarget ≤ 65535 && r.overpolish ≤ 600 &&
  (r.pressure.z1 ≤ 600 && r.pressure.z2 ≤ 600 && r.pressure.z3 ≤ 600 && r.pressure.z4 ≤ 600 && r.pressure.z5 ≤ 600) &&
  r.pressure.rr ≤ 800 && r.rampTime ≤ 100 && r.platenSpeed ≤ 150 && r.headSpeed ≤ 150 && r.flow ≤ 1000 &&
  r.floor ≤ 1000 && (1 ≤ r.weight && r.weight ≤ 8) && (1 ≤ r.ratio && r.ratio ≤ 100) && r.postRinse ≤ 500 &&
  r.downforce ≤ 100

/-- The cross-field checks of Table 5-5 (R98). -/
def stepCrossOk (r : StepRec) : Bool :=
  r.floor ≤ r.flow && r.minTime ≤ r.limit && !(r.termination == .endpoint && r.sigIndex.isNone) &&
  !(r.mainFeed.isNone && r.addFeed.isSome) && !(r.mainFeed.isSome && r.mainFeed == r.addFeed) &&
  !(r.kind != .polish && (r.mainFeed.isSome || r.addFeed.isSome)) && !(r.kind == .rinse && r.inSitu) &&
  !(r.kind == .condition && !r.inSitu)

/-- WRITE_STEP's checks on the record it carries (R97, R98, R190). -/
def stepOk (bs : List Byte) : Bool :=
  bs.length == 32 && stepMeaningful bs && stepInRange (readStep bs) && stepCrossOk (readStep bs)

/-! ### Header parts (R95, R96, Table 10-8) -/

/-- The symbol period of its code, in ms. -/
def periodOf (code : Nat) : Nat :=
  match code with
  | 0 => 500
  | 1 => 1000
  | 2 => 2000
  | _ => 4000

/-- Header part 0 as WRITE_HEADER carries it (16 bytes: name, threshold, period code, recovery periods) is in range (R95). -/
def part0Ok (bs : List Byte) : Bool :=
  bs.length == 16 && (bs.take 12).all (fun b => 32 ≤ b.toNat && b.toNat ≤ 126) &&
  (1 ≤ rd2 bs 12 && rd2 bs 12 ≤ 1023) && rd bs 14 ≤ 3 && rd bs 15 ≤ 15

/-- The element at a position of a signature image. -/
def readElem (bs : List Byte) (i : Nat) : Elem :=
  { symbol := if rd bs (1 + 3 * i) == 0 then .flat else if rd bs (1 + 3 * i) == 1 then .rise else .fall
    min := rd bs (2 + 3 * i)
    max := rd bs (3 + 3 * i) }

/-- A signature's elements (R96). -/
def readSig (bs : List Byte) : List Elem := (List.range (min (rd bs 0) 8)).map (readElem bs)

/-- One position of a signature image passes R96's checks. -/
def elemOk (bs : List Byte) (i : Nat) : Bool :=
  if i < rd bs 0 then
    rd bs (1 + 3 * i) ≤ 2 && (rd bs (3 + 3 * i) == 0 || rd bs (2 + 3 * i) ≤ rd bs (3 + 3 * i))
  else rd bs (1 + 3 * i) == 0 && rd bs (2 + 3 * i) == 0 && rd bs (3 + 3 * i) == 0

/-- A signature part passes WRITE_HEADER's checks (R96). -/
def sigOk (bs : List Byte) : Bool :=
  bs.length == 25 && rd bs 0 ≤ 8 && (List.range 8).all (elemOk bs)

/-! ### Slots -/

/-- The step record of index `i` (from 1) as stored. -/
def Slot.step (sl : Slot) (i : Nat) : List Byte := sl.steps.getD (i - 1) []

/-- The written mark of step `i` (from 1). -/
def Slot.markStep (sl : Slot) (i : Nat) : Bool := sl.markSteps.getD (i - 1) false

/-- Bytes 0 to 91 of a slot's header image, with the given step count (R104, Table 10-8). -/
def Slot.header (sl : Slot) (count : Nat) : List Byte :=
  sl.part0.take 12 ++ [byteOf count] ++ (sl.part0.drop 12).take 4 ++ sl.sigs.s0 ++ sl.sigs.s1 ++ sl.sigs.s2

/-- The sum of R104 over the header image without the stored sum and the records of steps 1 to `n`, kept to 16 bits. -/
def Slot.sumOf (sl : Slot) (n : Nat) : Nat :=
  (byteSum (sl.header n) + ((sl.steps.take n).map byteSum).sum) % 65536

/-- The highest step index whose written mark is set, 0 when none is (R104). -/
def Slot.highestStep (sl : Slot) : Nat :=
  ((List.range 24).map (fun i => if sl.markStep (i + 1) then i + 1 else 0)).foldl max 0

/-- Whether every step from 1 to `n` is written (R104). -/
def Slot.stepsWritten (sl : Slot) (n : Nat) : Bool := (List.range n).all (fun i => sl.markStep (i + 1))

/-- The working copy LOAD takes of a slot: the header with its name, settings and stored sum, the signatures, and steps 1 to the step
count (R64, Table 5-3). -/
def Slot.recipe (sl : Slot) : Recipe :=
  { name := sl.part0.take 12
    threshold := rd2 sl.part0 12
    period := periodOf (rd sl.part0 14)
    recovery := rd sl.part0 15
    sum := sl.sum
    sigs := ⟨readSig sl.sigs.s0, readSig sl.sigs.s1, readSig sl.sigs.s2⟩
    steps := (sl.steps.take sl.stepCount).map readStep }

/-! ### Sweep profiles (R99) -/

/-- The segments WRITE_PROFILE carries: outer radius (2 bytes) and speed (1 byte) each. -/
def readSegments (bs : List Byte) (count : Nat) : List Segment :=
  (List.range count).map (fun i => ⟨rd2 bs (3 * i), rd bs (3 * i + 2)⟩)

/-- The outer radii strictly increase along the list. -/
def radiiRise (l : List Segment) : Bool :=
  match l with
  | a :: b :: rest => a.outer < b.outer && radiiRise (b :: rest)
  | _ => true

/-- A list of segments passes WRITE_PROFILE's checks (R99). -/
def segmentsOk (l : List Segment) : Bool :=
  (1 ≤ l.length && l.length ≤ 12) &&
  l.all (fun g => (40 ≤ g.outer && g.outer ≤ 380) && (5 ≤ g.speed && g.speed ≤ 200)) && radiiRise l

/-! ### Run record entries (Table 10-10) -/

/-- The number of a step result. -/
def numResult (r : StepResult) : Nat :=
  match r with
  | .doneTime => 0
  | .doneDose => 1
  | .doneEndpoint => 2
  | .doseShort => 3
  | .endpointMissed => 4
  | .skipped => 5
  | .cut => 6

/-- The flags of a step in order. -/
def StepFlags.bits (f : StepFlags) : List Bool := [f.clamped, f.shareShort, f.flowFallback, f.tachFallback, f.condLost]

/-- The 11 bytes of an entry. -/
def RunEntry.bytes (e : RunEntry) : List Byte :=
  [byteOf e.index, byteOf (numResult e.result)] ++ le2 e.elapsed ++ le2 e.hold ++ le2 e.dose ++
  le2 (e.endpoint.getD 65535) ++ [byteOf (bitSet e.flags.bits)]

/-! ### Numbers of the states (Tables 4-1, 6-2, 7-1, 9-3, R191) -/

/-- The number of a sequencer state, in the order of Table 4-1. -/
def numState (s : SeqState) : Nat :=
  match s with
  | .empty => 0
  | .loaded => 1
  | .waiting => 2
  | .running => 3
  | .holding => 4
  | .ending => 5
  | .aborting => 6
  | .done => 7
  | .faulted => 8

/-- The number of a run result (R191). -/
def numRun (r : RunResult) : Nat :=
  match r with
  | .none => 0
  | .completed => 1
  | .aborted => 2
  | .stopped => 3
  | .faulted => 4
  | .lockedOut => 5

/-- The number of a summary state (Table 10-6). -/
def numSummary (s : Summary) : Nat :=
  match s with
  | .idle => 0
  | .waiting => 1
  | .running => 2
  | .holding => 3

/-- The number of a slot state, in the order of Table 5-2. -/
def numSlot (s : SlotState) : Nat :=
  match s with
  | .erased => 0
  | .opened => 1
  | .closed => 2
  | .corrupt => 3

/-- The number of a head channel state, in the order of Table 6-2. -/
def numChan (s : ChanState) : Nat :=
  match s with
  | .vented => 0
  | .ramping => 1
  | .regulating => 2
  | .channelFault => 3

/-- The number of an arm state, in the order of Table 7-1. -/
def numArm (s : ArmState) : Nat :=
  match s with
  | .parked => 0
  | .movingIn => 1
  | .sweeping => 2
  | .lifting => 3
  | .lost => 4

/-- The number of an arm fault cause, in the order of R143. -/
def numArmCause (c : ArmCause) : Nat :=
  match c with
  | .position => 0
  | .stall => 1
  | .profile => 2
  | .home => 3

/-- The number of a tool mode, in the order of Table 10-11. -/
def numMode (m : ToolMode) : Nat :=
  match m with
  | .run => 0
  | .service => 1
  | .lockout => 2

/-- The number of a reset cause, in the order of Table 10-11. -/
def numReset (c : ResetCause) : Nat :=
  match c with
  | .powerOn => 0
  | .resetLine => 1
  | .restartOrder => 2

/-- The number of a routing, in the order of Table 9-2. -/
def numRouting (r : Routing) : Nat :=
  match r with
  | .note => 0
  | .hold => 1
  | .abort => 2
  | .linkStop => 3

end Sys2Proof.Machine
end

