-- ==== Sys2Proof/Machine/Image.lean ====
section
/-! DEFINITION. The configuration image: reading its fields, adjusting each (R194), and judging the load (R195). -/

namespace Sys2Proof.Machine

open Sys2Proof

/-- One adjusted field of Table 11-1: its first byte, its width in bytes, its range, its default for 0 (0 when it has none), and
the step its value is rounded down to (50 for the refresh period, else 1). -/
structure FieldSpec where
  at_ : Nat
  wide : Bool
  lo : Nat
  hi : Nat
  default : Nat
  step : Nat
  deriving DecidableEq, Repr

/-- The stored value of a field. -/
def fieldRaw (f : FieldSpec) (b : List Byte) : Nat := if f.wide then rd2 b f.at_ else rd b f.at_

/-- Step 1 of R194: a field with a default that holds 0 takes it. -/
def fieldDefaulted (f : FieldSpec) (b : List Byte) : Nat :=
  if fieldRaw f b = 0 then f.default else fieldRaw f b

/-- Steps 2 and 3 of R194: rounding down, then clamping to the nearer bound. -/
def fieldAdjust (f : FieldSpec) (v : Nat) : Nat := max f.lo (min (v - v % f.step) f.hi)

/-- A field's value in force. -/
def fieldValue (f : FieldSpec) (b : List Byte) : Nat := fieldAdjust f (fieldDefaulted f b)

/-- Whether steps 2 or 3 changed the field, which adds 1 to the clamp count. -/
def fieldChanged (f : FieldSpec) (b : List Byte) : Bool := fieldValue f b != fieldDefaulted f b

/-- A one-byte field of the given range. -/
def byteField (at_ lo hi : Nat) (default : Nat := 0) : FieldSpec := ⟨at_, false, lo, hi, default, 1⟩

/-- A two-byte field of the given range. -/
def wordField (at_ lo hi : Nat) (default : Nat := 0) : FieldSpec := ⟨at_, true, lo, hi, default, 1⟩

/-- Table 11-1: CMDNODE. -/
def fCmdNode : FieldSpec := byteField 1 0 14
/-- Table 11-1: the refresh period, rounded to 50 ms, default 250. -/
def fRefresh : FieldSpec := ⟨2, true, 100, 1000, 250, 50⟩
/-- Table 11-1: the capacities of feeds A to D. -/
def fCapacity : PerFeed FieldSpec := ⟨wordField 9 0 4000, wordField 11 0 4000, wordField 13 0 4000, wordField 15 0 4000⟩
/-- Table 11-1: the isolated shares of feeds A to D. -/
def fIsolated : PerFeed FieldSpec := ⟨wordField 17 0 1000, wordField 19 0 1000, wordField 21 0 1000, wordField 23 0 1000⟩
/-- Table 11-1: the pump maxima. -/
def fPumpMax : PerChannel FieldSpec := ⟨wordField 26 0 1000, wordField 28 0 1000⟩
/-- Table 11-1: the flowmeter pulse volumes. -/
def fPulse : PerChannel FieldSpec := ⟨wordField 30 10 500, wordField 32 10 500⟩
/-- Table 11-1: the nominal stroke volumes. -/
def fStroke : PerChannel FieldSpec := ⟨wordField 34 10 5000, wordField 36 10 5000⟩
/-- Table 11-1: the mismatch tolerance, default 8. -/
def fTolerance : FieldSpec := byteField 38 1 25 8
/-- Table 11-1: the starvation threshold codes. -/
def fThreshold : PerChannel FieldSpec := ⟨byteField 39 0 31, byteField 40 0 31⟩
/-- Table 11-1: the flush volume. -/
def fFlush : FieldSpec := wordField 42 0 500
/-- Table 11-1: the pump clamp timeout. -/
def fClampTimeout : FieldSpec := wordField 44 500 2000
/-- Table 11-1: the channel maxima. -/
def fHeadMax : PerHead FieldSpec :=
  ⟨wordField 46 0 600, wordField 48 0 600, wordField 50 0 600, wordField 52 0 600, wordField 54 0 600, wordField 56 0 800⟩
/-- Table 11-1: the adjacent-zone difference limit. -/
def fZoneDiff : FieldSpec := wordField 58 10 300
/-- Table 11-1: the zone hold level. -/
def fZoneHold : FieldSpec := wordField 60 0 600
/-- Table 11-1: the ring hold level. -/
def fRingHold : FieldSpec := wordField 62 0 800
/-- Table 11-1: the overpressure margin. -/
def fOverMargin : FieldSpec := wordField 64 0 200
/-- Table 11-1: the regulation tolerance, default 10. -/
def fRegTolerance : FieldSpec := wordField 66 1 100 10
/-- Table 11-1: the settle limit, default 2000. -/
def fSettleLimit : FieldSpec := wordField 68 200 10000 2000
/-- Table 11-1: the air supply warn level. -/
def fAirWarn : FieldSpec := wordField 70 0 9000
/-- Table 11-1: the air supply trip level. -/
def fAirTrip : FieldSpec := wordField 72 0 9000
/-- Table 11-1: the maximum downforce. -/
def fDownforce : FieldSpec := byteField 74 0 100
/-- Table 11-1: the accelerations. -/
def fAcceleration : PerDrive FieldSpec := ⟨byteField 91 1 50, byteField 92 1 50⟩
/-- Table 11-1: the waiting limit, default 120. -/
def fWaitingLimit : FieldSpec := wordField 93 10 600 120

/-- Every field that steps 2 and 3 of R194 can change, each counting separately. -/
def allFields : List FieldSpec :=
  [fCmdNode, fRefresh] ++ fCapacity.toList ++ fIsolated.toList ++ fPumpMax.toList ++ fPulse.toList ++ fStroke.toList ++
  [fTolerance] ++ fThreshold.toList ++ [fFlush, fClampTimeout] ++ fHeadMax.toList ++
  [fZoneDiff, fZoneHold, fRingHold, fOverMargin, fRegTolerance, fSettleLimit, fAirWarn, fAirTrip, fDownforce] ++
  fAcceleration.toList ++ [fWaitingLimit]

/-- The clamp count of an image, which stops at 255 (R194). -/
def clampCountOf (b : List Byte) : Nat := min 255 (allFields.filter (fun f => fieldChanged f b)).length

/-- The four flags of a nibble, feed A first. -/
def plumbed (n : Nat) : PerFeed Bool :=
  ⟨bitsAt n 0 1 == 1, bitsAt n 1 1 == 1, bitsAt n 2 1 == 1, bitsAt n 3 1 == 1⟩

/-- The settings byte of an interlock line (Table 11-1). -/
def lineSettings (n : Nat) : LineSettings :=
  { activeHigh := bitsAt n 0 1 == 0
    type := if bitsAt n 1 1 == 0 then .edge else .level
    debounce := match bitsAt n 2 2 with | 0 => 0 | 1 => 5 | 2 => 20 | _ => 80
    routing := match bitsAt n 4 2 with | 0 => .note | 1 => .hold | 2 => .abort | _ => .linkStop }

/-- The image with every field adjusted (R194, Table 11-1). -/
def readImage (b : List Byte) : Image :=
  { node := rd b 0
    cmdNode := fieldValue fCmdNode b
    refreshPeriod := fieldValue fRefresh b
    serial := rd4 b 4
    stopReaction := if bitsAt (rd b 8) 0 1 == 0 then .hold else .abort
    capacity := fCapacity.map (fieldValue · b)
    isolatedShare := fIsolated.map (fieldValue · b)
    plumbedMain := plumbed (bitsAt (rd b 25) 0 4)
    plumbedAdditive := plumbed (bitsAt (rd b 25) 4 4)
    pumpMax := fPumpMax.map (fieldValue · b)
    pulseVolume := fPulse.map (fieldValue · b)
    strokeVolume := fStroke.map (fieldValue · b)
    tolerance := fieldValue fTolerance b
    threshold := fThreshold.map (fieldValue · b)
    nonOverlap := match bitsAt (rd b 41) 0 2 with | 0 => 500 | 1 => 1000 | 2 => 2000 | _ => 4000
    flushVolume := fieldValue fFlush b
    clampTimeout := fieldValue fClampTimeout b
    headMax := fHeadMax.map (fieldValue · b)
    zoneDiff := fieldValue fZoneDiff b
    zoneHold := fieldValue fZoneHold b
    ringHold := fieldValue fRingHold b
    overMargin := fieldValue fOverMargin b
    regTolerance := fieldValue fRegTolerance b
    settleLimit := fieldValue fSettleLimit b
    airWarn := fieldValue fAirWarn b
    airTrip := fieldValue fAirTrip b
    maxDownforce := fieldValue fDownforce b
    diskLimit := rd4 b 75
    padLimit := rd4 b 79
    lines := ⟨lineSettings (rd b 83), lineSettings (rd b 84), lineSettings (rd b 85), lineSettings (rd b 86),
      lineSettings (rd b 87), lineSettings (rd b 88), lineSettings (rd b 89), lineSettings (rd b 90)⟩
    acceleration := fAcceleration.map (fieldValue · b)
    waitingLimit := fieldValue fWaitingLimit b }

/-- The stored sum of an image (R194). -/
def storedSum (b : List Byte) : Nat := rd2 b 126

/-- What LOADING judges (R195): a memory that answers its 128 bytes, whose sum agrees, with a node number of at most 14 that
differs from the clamped CMDNODE. -/
def loadGood (b : List Byte) : Bool :=
  b.length == 128 && byteSum (b.take 126) % 65536 == storedSum b && rd b 0 ≤ 14 && fieldValue fCmdNode b != rd b 0

/-- The image before any is in force; no rule reads it, since the blocks that use the image act only after LOADING. -/
def noImage : Image := readImage []

/-- The image in force. -/
def State.img (s : State) : Image := s.cfg.image.getD noImage

end Sys2Proof.Machine
end

