-- ==== Sys2Proof/Machine/Times.lean ====
section
/-! DEFINITION. The fixed times and lengths of the manual in the model's units (µs, µL, nm), each with the rule that states it. -/

namespace Sys2Proof.Machine

/-- A time in ms. -/
def ms (n : Nat) : Nat := n * 1000

/-- A time in units of 0.1 s, as recipes give it. -/
def tenths (n : Nat) : Nat := n * 100000

/-- A time shown in whole units of 0.1 s (R71). -/
def inTenths (t : Nat) : Nat := t / 100000

/-- A volume in units of 0.1 mL, in µL (R52). -/
def tenthsMl (n : Nat) : Nat := n * 100

/-- SETTLE lasts 50 ms (R195). -/
def settleTime : Nat := ms 50

/-- A valve's feedback is compared 500 ms after its command; a later disagreement counts after 500 ms (R40). -/
def feedbackTime : Nat := ms 500

/-- The warm-up of a pump start lasts 2 s (R51). -/
def warmUpTime : Nat := ms 2000

/-- SUPPLY-LOW is raised after 500 ms below the threshold (R57). -/
def lowTime : Nat := ms 500

/-- SUPPLY-LOW clears after 2 s at or above the threshold (R57). -/
def recoveryTime : Nat := ms 2000

/-- The SUPPLY cause is reported after 5 s (R59). -/
def persistTime : Nat := ms 5000

/-- The abort timer runs 10 s (R85). -/
def abortTime : Nat := ms 10000

/-- The hold time stays at 65535 tenths of a second (R71). -/
def holdCap : Nat := tenths 65535

/-- A ramp tick is 20 ms (R120). -/
def rampTickTime : Nat := ms 20

/-- The overpressure timer runs to 100 ms (R125). -/
def overTime : Nat := ms 100

/-- The air warning is armed again after 1 s (R127). -/
def rearmTime : Nat := ms 1000

/-- The air trip timer runs to 50 ms (R128). -/
def airTripTime : Nat := ms 50

/-- A home search that has not ended after 15 s has failed (R132). -/
def homeTime : Nat := ms 15000

/-- A position disagreement, and a silent disk, are found after 200 ms (R143). -/
def armCheckTime : Nat := ms 200

/-- The accumulation timer runs to 60 s (R110). -/
def accumulationTime : Nat := ms 60000

/-- EPM samples every 10 ms (R147). -/
def sampleTime : Nat := ms 10

/-- The debounce of the mode lines is 20 ms (R170). -/
def modeTime : Nat := ms 20

/-- At speed after 1 s within tolerance (R173). -/
def atSpeedTime : Nat := ms 1000

/-- A tach is lost after 500 ms without a pulse, and its speed is then 0 (R174). -/
def tachLossTime : Nat := ms 500

/-- A tach is taken back after 2 s of agreement (R174). -/
def agreementTime : Nat := ms 2000

/-- The park position, 420 mm (R131). -/
def parkRadius : Nat := 420 * Pcc.mm

/-- The inner end of every sweep, 40 mm (R99). -/
def innerRadius : Nat := 40 * Pcc.mm

/-- The pumps run at 200 mL/min on DI in the flush and the post-rinse (R44, R47). -/
def rinseRate : Nat := 200

end Sys2Proof.Machine
end

