-- ==== Sys2Proof/Machine/Ops.lean ====
section
/-! DEFINITION. The operations the blocks share: replacing one block of State, the conditions of start-up, and placing frames in
LNK's queues and slots (R178, R180, R186). -/

namespace Sys2Proof.Machine

open Sys2Proof

/-! ### Replacing one block -/

/-- The state with cfg replaced. -/
def State.setCfg (s : State) (x : Cfg) : State := { s with cfg := x }

/-- The state with peer replaced. -/
def State.setPeer (s : State) (x : Peer) : State := { s with peer := x }

/-- The state with shr replaced. -/
def State.setShr (s : State) (x : PerFeed FeedShare) : State := { s with shr := x }

/-- The state with sdu replaced. -/
def State.setSdu (s : State) (x : Sdu) : State := { s with sdu := x }

/-- The state with seq replaced. -/
def State.setSeq (s : State) (x : Seq) : State := { s with seq := x }

/-- The state with rcp replaced. -/
def State.setRcp (s : State) (x : Rcp) : State := { s with rcp := x }

/-- The state with hpc replaced. -/
def State.setHpc (s : State) (x : Hpc) : State := { s with hpc := x }

/-- The state with pcc replaced. -/
def State.setPcc (s : State) (x : Pcc) : State := { s with pcc := x }

/-- The state with epm replaced. -/
def State.setEpm (s : State) (x : Epm) : State := { s with epm := x }

/-- The state with ilk replaced. -/
def State.setIlk (s : State) (x : Ilk) : State := { s with ilk := x }

/-- The state with drv replaced. -/
def State.setDrv (s : State) (x : Drv) : State := { s with drv := x }

/-- The state with lnk replaced. -/
def State.setLnk (s : State) (x : Lnk) : State := { s with lnk := x }

/-- The state with pins replaced. -/
def State.setPins (s : State) (x : Pins) : State := { s with pins := x }

/-- The state with now replaced. -/
def State.setNow (s : State) (x : Nat) : State := { s with now := x }

/-- The state with freeCount replaced. -/
def State.setFreeCount (s : State) (x : Nat) : State := { s with freeCount := x }

/-- The state with pending replaced. -/
def State.setPending (s : State) (x : List Instr) : State := { s with pending := x }

/-! ### Conditions -/

/-- The part is held in reset: by the reset line, or by a logic supply below its working level (R199). -/
def State.inReset (s : State) : Bool := s.cfg.held || s.pins.supplyLow

/-- The image is in force and the blocks act on it: LISTEN, READY or DUPLICATE_NODE, and the part not held in reset (R195). -/
def State.started (s : State) : Bool :=
  !s.inReset && (s.cfg.startUp == .listen || s.cfg.startUp == .ready || s.cfg.startUp == .duplicateNode)

/-- LNK discards every frame placed, without counting notices as lost: CONFIG_FAULT and DUPLICATE_NODE (R180). -/
def State.silent (s : State) : Bool := s.cfg.startUp == .configFault || s.cfg.startUp == .duplicateNode

/-- The FAULT output line (R198). Every reset releases it, and it stays released while the part is held in reset (R199). -/
def State.faultLine (s : State) : Bool :=
  !s.inReset && (s.cfg.startUp == .configFault || s.lnk.dupFound || s.seq.first.isSome)

/-- An event with its condition: where the condition does not hold the event does not occur, and the state stands as it
was (log entry 5). -/
def whenDue (due : Bool) (s : State) (f : State → State) : State := if due then f s else s

/-! ### Placing frames (R178) -/

/-- A fresh frame: no collision yet. -/
def Frame.new (kind : FrameKind) (tag : Byte) (payload : List Byte) : Frame := ⟨kind, tag, payload, 0⟩

/-- The frame on the line has its slot filled anew when it came from a slot of the same kind (R178). -/
def markReplaced (sending : Option Sending) (kind : FrameKind) : Option Sending :=
  sending.map (fun t => if t.frame.kind == kind then { t with replaced := true } else t)

/-- The notices-lost count raised by one; it stays at 255 (R186). -/
def lostMore (n : Nat) : Nat := min 255 (n + 1)

/-- Placing a notice: it is appended, or, in a queue of 8, discarded and counted (R178, R186). Byte 1 of its payload, the
notices-lost count, is written when the frame starts. -/
def placeNotice (kind : Nat) (body : List Byte) (s : State) : State :=
  if s.silent then s
  else if 8 ≤ s.lnk.notices.length then s.setLnk { s.lnk with lost := lostMore s.lnk.lost }
  else s.setLnk { s.lnk with notices := s.lnk.notices ++ [Frame.new .notice 0 ([byteOf kind, 0] ++ body)] }

/-- Placing an ANSWER at the end of its queue (R178, R185). -/
def placeAnswer (tag : Byte) (payload : List Byte) (s : State) : State :=
  if s.silent then s
  else s.setLnk { s.lnk with answers := s.lnk.answers ++ [Frame.new .answer tag payload] }

/-- Placing a DEMAND replaces the one held (R13, R178). -/
def placeDemandFrame (payload : List Byte) (s : State) : State :=
  if s.silent then s
  else s.setLnk { s.lnk with
    demandSlot := some (Frame.new .demand 0 payload), sending := markReplaced s.lnk.sending .demand }

/-- Placing a STOP replaces the one held; its payload is the number of the line that caused it (R167, R178). -/
def placeStopFrame (line : Nat) (s : State) : State :=
  if s.silent then s
  else s.setLnk { s.lnk with
    stopSlot := some (Frame.new .stop 0 [byteOf line]), sending := markReplaced s.lnk.sending .stop }

end Sys2Proof.Machine
end

