-- ==== Sys2Proof/Machine/Shares.lean ====
section
/-! DEFINITION. SHR, the share calculator (Chapter 2): the participants of a run, the floor stage, the remainder stage, the
effective grant with its hold-off, and derating. -/

namespace Sys2Proof.Machine

open Sys2Proof

/-! ### Participants (R24) -/

/-- A participant in a run for one feed. -/
structure Part where
  own : Bool
  node : Nat
  rank : Nat
  q : Nat
  m : Nat
  w : Nat
  deriving DecidableEq, Repr

/-- The rank of a summary state: RUNNING 0, HOLDING 1, WAITING 2. IDLE never needs one (R24). -/
def rankOf (s : Summary) : Nat :=
  match s with
  | .running => 0
  | .holding => 1
  | .waiting => 2
  | .idle => 2

/-- A STALE entry's items rank as WAITING (R5, R24). -/
def PeerEntry.rank (e : PeerEntry) : Nat :=
  match e.presence with
  | .present => rankOf e.summary
  | .stale => 2

/-- An item takes part in a run for its feed when its request is above 0. -/
def Item.takesPart (i : Item) (f : Feed) : Bool := i.feed == f && 0 < i.q

/-- The participants an entry of the peer table gives. -/
def PeerEntry.parts (f : Feed) (e : PeerEntry) : List Part :=
  (e.items.filter (fun i => i.takesPart f)).map (fun i => ⟨false, e.node, e.rank, i.q, i.m, i.w⟩)

/-- The own items in order: MAIN, then ADDITIVE (R13). -/
def OwnRecord.items (r : OwnRecord) : List Item := r.main.toList ++ r.additive.toList

/-- The participants the own record gives. -/
def OwnRecord.parts (node : Nat) (f : Feed) (r : OwnRecord) : List Part :=
  (r.items.filter (fun i => i.takesPart f)).map (fun i => ⟨true, node, rankOf r.summary, i.q, i.m, i.w⟩)

/-- The participants of a run for feed `f` (R24): the own items, and while ISOLATED is clear those of every entry. -/
def participants (node : Nat) (p : Peer) (f : Feed) : List Part :=
  if p.isolated then p.own.parts node f else p.own.parts node f ++ p.table.flatMap (PeerEntry.parts f)

/-! ### The floor stage (R25, R26) -/

/-- A participant with its running grant; a denied one takes no part in the remainder stage. -/
structure Grant where
  part : Part
  grant : Nat
  denied : Bool
  deriving DecidableEq, Repr

/-- The scan of R26: each participant in turn is granted its floor where it fits in what remains, and is denied otherwise. -/
def floorScan (remaining : Nat) (ps : List Part) : List Grant :=
  match ps with
  | [] => []
  | p :: rest =>
    if p.m ≤ remaining then ⟨p, p.m, false⟩ :: floorScan (remaining - p.m) rest
    else ⟨p, 0, true⟩ :: floorScan remaining rest

/-- Ascending order of the pair (rank, node number) (R26). -/
abbrev scanBefore (x y : Part) : Prop := x.rank < y.rank ∨ (x.rank = y.rank ∧ x.node ≤ y.node)

/-- The participants in the order of the scan. -/
def scanOrder (ps : List Part) : List Part := ps.insertionSort scanBefore

/-- The sum of the floors, M. -/
def floorSum (ps : List Part) : Nat := (ps.map Part.m).sum

/-- The sum of the running grants. -/
def grantSum (gs : List Grant) : Nat := (gs.map Grant.grant).sum

/-- The floor stage for effective capacity `cap`. -/
def floorStage (cap : Nat) (ps : List Part) : List Grant :=
  if floorSum ps ≤ cap then ps.map (fun p => ⟨p, p.m, false⟩) else floorScan cap (scanOrder ps)

/-! ### The remainder stage (R27 to R29) -/

/-- What a grant can still receive: its request less what it has. In the active set this is the excess q − m. -/
def Grant.excess (g : Grant) : Nat := g.part.q - g.grant

/-- Membership of the active set: not denied, with an excess above 0 (R27). -/
def Grant.active (g : Grant) : Bool := !g.denied && 0 < g.excess

/-- W, the sum of the weights of the active set. -/
def weightSum (gs : List Grant) : Nat := ((gs.filter Grant.active).map (fun g => g.part.w)).sum

/-- The tentative extra of a participant: ⌊R × w / W⌋ (R27). -/
def tentative (r w : Nat) (g : Grant) : Nat := r * g.part.w / w

/-- Whether a member's tentative extra reaches its excess (R28). -/
def Grant.fills (r w : Nat) (g : Grant) : Bool := g.active && g.excess ≤ tentative r w g

/-- R28: a member that fills receives its excess. -/
def Grant.fill (r w : Nat) (g : Grant) : Grant := if g.fills r w then { g with grant := g.grant + g.excess } else g

/-- What R28 gives out in one round. -/
def filledSum (r w : Nat) (gs : List Grant) : Nat := ((gs.filter (Grant.fills r w)).map Grant.excess).sum

/-- R29: every member receives its tentative extra. -/
def Grant.extend (r w : Nat) (g : Grant) : Grant := if g.active then { g with grant := g.grant + tentative r w g } else g

/-- What R29 gives out before the leftover. -/
def extendedSum (r w : Nat) (gs : List Grant) : Nat := ((gs.filter Grant.active).map (tentative r w)).sum

/-- R29: the leftover goes out one unit each to the members of the active set, in the order of the list. -/
def giveLeftover (left : Nat) (gs : List Grant) : List Grant :=
  match left, gs with
  | 0, gs => gs
  | _ + 1, [] => []
  | n + 1, g :: rest =>
    if g.active then { g with grant := g.grant + 1 } :: giveLeftover n rest else g :: giveLeftover (n + 1) rest

/-- The rounds of the remainder stage, at most `fuel` of them. -/
def remainderStage (fuel r : Nat) (gs : List Grant) : List Grant :=
  match fuel with
  | 0 => gs
  | fuel + 1 =>
    if gs.any Grant.active && 0 < r then
      if gs.any (Grant.fills r (weightSum gs)) then
        remainderStage fuel (r - filledSum r (weightSum gs) gs) (gs.map (Grant.fill r (weightSum gs)))
      else giveLeftover (r - extendedSum r (weightSum gs) gs) (gs.map (Grant.extend r (weightSum gs)))
    else gs

/-- Grants in ascending order of node number (R29). -/
def byNode (gs : List Grant) : List Grant := gs.insertionSort (fun x y => x.part.node ≤ y.part.node)

/-- The whole share computation: every participant with its final grant (R25 to R30). Each round but the last removes a member
from the active set, so as many rounds as participants and one more are enough. -/
def shareGrants (cap : Nat) (ps : List Part) : List Grant :=
  let gs := byNode (floorStage cap ps)
  remainderStage (gs.length + 1) (cap - grantSum gs) gs

/-! ### A run (R18, R19, R30, R33, R34) -/

/-- The capacity in force: C, or the isolated share while ISOLATED (R19). -/
def capacityInForce (s : State) (f : Feed) : Nat :=
  if s.peer.isolated then s.img.isolatedShare.get f else s.img.capacity.get f

/-- The effective capacity C′ (R19). -/
def effectiveCapacity (inForce k : Nat) : Nat := inForce * (10 - k) / 10

/-- The grant the share computation gives to the own item on a feed, 0 if there is none (R18, R30). -/
def ownGrant (gs : List Grant) : Nat :=
  match gs.find? (fun g => g.part.own) with
  | some g => g.grant
  | none => 0

/-- The computed grant of a run for feed `f`, with the inputs as they stand (R18). -/
def computedGrant (s : State) (f : Feed) : Nat :=
  ownGrant (shareGrants (effectiveCapacity (capacityInForce s f) (s.shr.get f).k) (participants s.img.node s.peer f))

/-- One refresh period in µs. -/
def State.period (s : State) : Nat := ms s.img.refreshPeriod

/-- R33 and R34: the effective grant takes a computed grant at or below it at once and a running hold-off stops; above it, a
stopped hold-off is started and a running one is left running. -/
def FeedShare.take (fs : FeedShare) (computed now period : Nat) : FeedShare :=
  if computed ≤ fs.effective then { fs with computed := computed, effective := computed, holdOff := none }
  else { fs with computed := computed, holdOff := some (fs.holdOff.getD (now + period)) }

/-- A run of the share computation for feed `f`. In CONFIG_FAULT and before LISTEN SHR does not run (R37). -/
def shrRun (f : Feed) (s : State) : State :=
  if s.started then s.setShr (s.shr.set f ((s.shr.get f).take (computedGrant s f) s.now s.period)) else s

/-- A run for each feed that `touched` names. Runs for different feeds are independent (R18). -/
def shrRuns (touched : PerFeed Bool) (s : State) : State :=
  let s := if touched.a then shrRun .a s else s
  let s := if touched.b then shrRun .b s else s
  let s := if touched.c then shrRun .c s else s
  if touched.d then shrRun .d s else s

/-! ### Derating (R20 to R23) -/

/-- Whether a mark seen now raises k: none or a full refresh period since the last increment, and k below 4 (R21). -/
def FeedShare.raises (fs : FeedShare) (now period : Nat) : Bool :=
  fs.k < 4 &&
  match fs.lastIncrement with
  | none => true
  | some t => t + period ≤ now

/-- A supply-low mark seen on a feed: the mark-free count goes to 0 and k may rise (R21). -/
def FeedShare.mark (fs : FeedShare) (now period : Nat) : FeedShare :=
  if fs.raises now period then
    { fs with k := fs.k + 1, lastIncrement := some now, markFree := 0, markSeen := true }
  else { fs with markFree := 0, markSeen := true }

/-- SHR sees a supply-low mark on feed `f`; a change of k makes it run for the feed (R21, R23). -/
def markSeen (f : Feed) (s : State) : State :=
  let raised := (s.shr.get f).raises s.now s.period
  let s := s.setShr (s.shr.set f ((s.shr.get f).mark s.now s.period))
  if raised then shrRun f s else s

/-- The examination of a mark-free count at a refresh tick (R22): 0 if a mark was seen since the previous tick, else one more, up
to 16. The decrement of k is DERATE_DECREMENT's. -/
def FeedShare.tick (fs : FeedShare) : FeedShare :=
  { fs with markFree := if fs.markSeen then 0 else min 16 (fs.markFree + 1), markSeen := false }

/-- A feed's decrement is due: 16 mark-free ticks with k above 0 (R22). -/
def FeedShare.decrementDue (fs : FeedShare) : Bool := 16 ≤ fs.markFree && 0 < fs.k

/-- The decrement: k falls by 1 and the count returns to 0; the time of last increment stands (R22). -/
def FeedShare.decrement (fs : FeedShare) : FeedShare := { fs with k := fs.k - 1, markFree := 0 }

/-- A feed's hold-off has expired (R35). -/
def FeedShare.expiryDue (fs : FeedShare) (now : Nat) : Bool :=
  match fs.holdOff with
  | none => false
  | some t => t ≤ now

/-- At the expiry the effective grant takes the computed grant of that moment and the timer stops (R35). -/
def FeedShare.expire (fs : FeedShare) : FeedShare := { fs with effective := fs.computed, holdOff := none }

end Sys2Proof.Machine
end

