-- ==== Sys2Proof/Machine/Peer.lean ====
section
/-! DEFINITION. PEER (Chapter 1): the own demand record, placing the DEMAND, the peer table, ageing and isolation. -/

namespace Sys2Proof.Machine

open Sys2Proof

/-- The step at the sequencer's step index, in the working copy; none while no step is loaded or the index is 0. -/
def State.stepNow (s : State) : Option StepRec :=
  match s.seq.copy with
  | none => none
  | some r => if s.seq.index = 0 then none else r.steps[s.seq.index - 1]?

/-! ### The own demand record (R7 to R11) -/

/-- ⌈x / 100⌉. -/
def ceilHundredth (x : Nat) : Nat := (x + 99) / 100

/-- Whether the requests are lowered to the floors: HOLDING with a cause other than SHARE or SUPPLY (R9). -/
def State.lowered (s : State) : Bool := s.seq.state == .holding && s.seq.causes.notForSlurry

/-- The MAIN item of a step that names main feed `f` (R7, R9, R11). -/
def mainItem (s : State) (st : StepRec) (f : Feed) : Item :=
  let q := min st.flow s.img.pumpMax.main
  let m := min st.floor q
  { feed := f, q := if s.lowered then m else q, m := m, w := st.weight, low := s.peer.lowFeeds.get f }

/-- The ADDITIVE item, derived from the MAIN item as it stands (R8, R11). -/
def additiveItem (s : State) (st : StepRec) (main : Item) (g : Feed) : Item :=
  { feed := g
    q := min (ceilHundredth (main.q * st.ratio)) s.img.pumpMax.additive
    m := min (ceilHundredth (main.m * st.ratio)) s.img.pumpMax.additive
    w := st.weight
    low := s.peer.lowFeeds.get g }

/-- The items of the record, while the sequencer's state lets it hold any (R7, R8). -/
def recordOf (s : State) (summary : Summary) : OwnRecord :=
  match s.stepNow with
  | none => .empty
  | some st =>
    match st.mainFeed with
    | none => .empty
    | some f =>
      { summary := summary
        main := some (mainItem s st f)
        additive := st.addFeed.map (additiveItem s st (mainItem s st f)) }

/-- The own demand record that the sequencer's state, its step, the tool mode and the low-feed set give (R7 to R11). -/
def buildRecord (s : State) : OwnRecord :=
  if s.ilk.mode = .lockout then .empty
  else
    match s.seq.state with
    | .waiting => recordOf s .waiting
    | .running => recordOf s .running
    | .holding => recordOf s .holding
    | .empty | .loaded | .ending | .aborting | .done | .faulted => .empty

/-! ### Placing the DEMAND (R12, R13, R188) -/

/-- The five bytes of an item (Table 10-6). -/
def Item.bytes (i : Item) : List Byte :=
  [byteOf (numFeed i.feed + 8 * (if i.low then 1 else 0) + 16 * i.w)] ++ le2 i.q ++ le2 i.m

/-- The payload of a DEMAND that carries a record: summary state, item count, the items, MAIN first (R13, Table 10-6). -/
def OwnRecord.payload (r : OwnRecord) : List Byte :=
  [byteOf (numSummary r.summary), byteOf r.items.length] ++ r.items.flatMap Item.bytes

/-- PEER places a DEMAND that carries the record as it stands, from READY on (R12). -/
def placeDemand (s : State) : State :=
  if s.cfg.startUp = .ready then placeDemandFrame s.peer.own.payload s else s

/-- Whether a record has an item on a feed. -/
def OwnRecord.names (r : OwnRecord) (f : Feed) : Bool := r.items.any (fun i => i.feed == f)

/-- The feeds named by an own item before a change or after it (Table 1-2). -/
def touchedByRecord (old new : OwnRecord) : PerFeed Bool := .of (fun f => old.names f || new.names f)

/-- PEER rebuilds the own record; a change places a DEMAND and makes SHR run for the feeds it touches (R6, R12). -/
def rebuildRecord (s : State) : State :=
  let new := buildRecord s
  if new = s.peer.own then s
  else
    let old := s.peer.own
    shrRuns (touchedByRecord old new) (placeDemand (s.setPeer { s.peer with own := new }))

/-! ### The peer table (R1 to R3, R5) -/

/-- The entry of a node. -/
def findEntry (n : Nat) (table : List PeerEntry) : Option PeerEntry := table.find? (fun e => e.node == n)

/-- The table with the entry of its node replaced or created; node numbers stay strictly rising (R1, R2). -/
def putEntry (e : PeerEntry) (table : List PeerEntry) : List PeerEntry :=
  match table with
  | [] => [e]
  | x :: rest =>
    if e.node < x.node then e :: x :: rest
    else if e.node = x.node then e :: rest
    else x :: putEntry e rest

/-- The table without the entry of a node. -/
def dropEntry (n : Nat) (table : List PeerEntry) : List PeerEntry := table.filter (fun e => e.node != n)

/-- Whether an entry has an item on a feed. -/
def PeerEntry.names (e : PeerEntry) (f : Feed) : Bool := e.items.any (fun i => i.feed == f)

/-- The feed index of item `i` of a DEMAND payload (Table 10-6). -/
def itemFeed (p : List Byte) (i : Nat) : Nat := bitsAt (rd p (2 + 5 * i)) 0 3

/-- Item `i` of a DEMAND payload after the cleaning of R3. -/
def cleanItem (p : List Byte) (i : Nat) : Item :=
  let q := min (rd2 p (3 + 5 * i)) 1000
  { feed := (feedOf (itemFeed p i)).getD .a
    q := q
    m := min (rd2 p (5 + 5 * i)) q
    w := max 1 (min 8 (bitsAt (rd p (2 + 5 * i)) 4 4))
    low := bitsAt (rd p (2 + 5 * i)) 3 1 == 1 }

/-- The item count of a DEMAND payload. -/
def itemCount (p : List Byte) : Nat := rd p 1

/-- R3: the payload checks of a received DEMAND; a frame that fails one is dropped whole. -/
def demandOk (source : Nat) (p : List Byte) : Bool :=
  source != 15 && p.length == 2 + 5 * itemCount p && itemCount p ≤ 2 && rd p 0 ≤ 3 &&
  !(rd p 0 == 0 && itemCount p != 0) && (List.range (itemCount p)).all (fun i => itemFeed p i ≤ 3) &&
  !(itemCount p == 2 && itemFeed p 0 == itemFeed p 1)

/-- The summary state of a DEMAND payload. -/
def summaryOf (n : Nat) : Summary :=
  match n with
  | 0 => .idle
  | 1 => .waiting
  | 2 => .running
  | _ => .holding

/-- The entry an accepted DEMAND gives: PRESENT, age 0 (R2). -/
def entryOf (source : Nat) (p : List Byte) : PeerEntry :=
  { node := source, presence := .present, summary := summaryOf (rd p 0),
    items := (List.range (itemCount p)).map (cleanItem p), age := 0 }

/-- The supply-low marks of an entry's items, each reported to SHR (R2, R20). -/
def reportMarks (items : List Item) (s : State) : State :=
  items.foldl (fun s i => if i.low then markSeen i.feed s else s) s

/-- PEER takes a DEMAND delivered by LNK (R2, R3, R6). The marks are reported with the new entry in the table, before SHR runs for
the feeds its items named or name. A payload that fails is dropped whole and sets MALFORMED_SEEN. -/
def takeDemand (source : Nat) (p : List Byte) (s : State) : State :=
  if source = s.img.node then s
  else if demandOk source p then
    let old := findEntry source s.peer.table
    let new := entryOf source p
    let s := s.setPeer { s.peer with table := putEntry new s.peer.table }
    let s := reportMarks new.items s
    shrRuns (.of (fun f => (old.any (fun e => e.names f)) || new.names f)) s
  else s.setLnk { s.lnk with malformedSeen := true }

/-! ### Hearing a node, isolation (R14 to R16) -/

/-- A valid frame from another node sets the quiet count to 0 and clears ISOLATED (R14, R16). -/
def hearFrame (s : State) : State := s.setPeer { s.peer with quiet := 0, isolated := false }

/-- Every feed. -/
def allFeeds : PerFeed Bool := .all true

/-! ### Refresh ticks (R5, R14, R20, R22) -/

/-- Every entry's age rises by 1 (R5); an age never needs to pass 8, where the entry is removed. -/
def ageEntry (e : PeerEntry) : PeerEntry := { e with age := min 8 (e.age + 1) }

/-- Marks counted at a refresh tick for every feed in the low-feed set (R20). -/
def markLowFeeds (s : State) : State :=
  let s := if s.peer.lowFeeds.a then markSeen .a s else s
  let s := if s.peer.lowFeeds.b then markSeen .b s else s
  let s := if s.peer.lowFeeds.c then markSeen .c s else s
  if s.peer.lowFeeds.d then markSeen .d s else s

/-- What a refresh tick does in PEER and SHR: entries age, the quiet count rises up to 8, marks of the low-feed set are counted,
mark-free counts are examined, and PEER places its DEMAND (R5, R12, R14, R20, R22). The entries that reach age 3 or 8 at the tick become STALE
or leave after it, with rows of their own, so that a rise of k runs SHR on the entries as they were: DESIGN CHOICE, log entry 54. -/
def refresh (s : State) : State :=
  let s := s.setPeer { s.peer with
    table := s.peer.table.map ageEntry, quiet := min 8 (s.peer.quiet + 1), refresh := some 0 }
  let s := markLowFeeds s
  let s := s.setShr (s.shr.map FeedShare.tick)
  placeDemand s

/-- An entry whose age has reached 3 is to become STALE (R5). -/
def staleDue (n : Nat) (s : State) : Bool :=
  match findEntry n s.peer.table with
  | none => false
  | some e => e.presence == .present && 3 ≤ e.age

/-- The entry of a node becomes STALE, keeping its summary state and items; SHR runs for the feeds they name (R5, R6). -/
def makeStale (n : Nat) (s : State) : State :=
  match findEntry n s.peer.table with
  | none => s
  | some e =>
    shrRuns (.of (fun f => e.names f))
      (s.setPeer { s.peer with table := putEntry { e with presence := .stale } s.peer.table })

/-- An entry whose age has reached 8 is to be removed (R5). -/
def removeDue (n : Nat) (s : State) : Bool :=
  match findEntry n s.peer.table with
  | none => false
  | some e => 8 ≤ e.age

/-- The entry of a node is removed; SHR runs for the feeds its items named (R5, R6). -/
def removeEntry (n : Nat) (s : State) : State :=
  match findEntry n s.peer.table with
  | none => s
  | some e =>
    shrRuns (.of (fun f => e.names f)) (s.setPeer { s.peer with table := dropEntry n s.peer.table })

/-- Isolation is to begin: the quiet count has reached 8 with ISOLATED clear, and every entry of age 8 has been removed by then (R14,
R15). -/
def isolationDue (s : State) : Bool :=
  8 ≤ s.peer.quiet && !s.peer.isolated && s.peer.table.all (fun e => e.age < 8)

/-- ISOLATED is set, its notice is queued and SHR runs for all four feeds (R15). -/
def beginIsolation (s : State) : State :=
  shrRuns allFeeds (placeNotice 2 [] (s.setPeer { s.peer with isolated := true }))

end Sys2Proof.Machine
end

