-- ==== Sys2Proof/Machine/Dispense.lean ====
section
/-! DEFINITION. SDU, the slurry dispense unit (Chapter 3): valves, feed switches, post-rinse, blend and pump rates, counting,
cross-check, starvation, pump blockage. -/

namespace Sys2Proof.Machine

open Sys2Proof

/-- One dispense channel. -/
def State.chan (s : State) (c : Channel) : Dispense := s.sdu.ch.get c

/-- The state with one dispense channel replaced. -/
def State.setChan (s : State) (c : Channel) (d : Dispense) : State := s.setSdu { s.sdu with ch := s.sdu.ch.set c d }

/-! ### Valves (R38 to R41, R57) -/

/-- Whether a valve is commanded open. -/
def Valve.isOpen (v : Valve) : Bool := v.state == .opened

/-- The feed whose valve is open on a channel; at most one is (R39). -/
def Dispense.openFeed (d : Dispense) : Option Feed := PerFeed.indices.find? (fun f => (d.valves.get f).isOpen)

/-- A feed is plumbed to a channel (R38). -/
def plumbedTo (i : Image) (c : Channel) (f : Feed) : Bool :=
  match c with
  | .main => i.plumbedMain.get f
  | .additive => i.plumbedAdditive.get f

/-- A valve commanded closed; one that is not open stays as it is and its check is not restarted (R39, R40). -/
def Valve.close (v : Valve) : Valve := if v.isOpen then ⟨.closed, 0, 0⟩ else v

/-- A valve commanded open; a FAULT_CLOSED one never is, and an open one keeps its check (R38, R40). -/
def Valve.open_ (v : Valve) : Valve := if v.state = .closed then ⟨.opened, 0, 0⟩ else v

/-- The inlet monitor as it stands once inactive: SUPPLY-LOW clear and both timers 0 (R57). -/
def Dispense.quietMonitor (d : Dispense) : Dispense := { d with supplyLow := false, lowTimer := 0, recoveryTimer := 0 }

/-- PEER's low-feed set when the channel's monitor becomes inactive: its feed leaves it where SUPPLY-LOW was raised (R11, R57). -/
def lowFeedsAfterClose (d : Dispense) (low : PerFeed Bool) : PerFeed Bool :=
  match d.openFeed with
  | some f => if d.supplyLow then low.set f false else low
  | none => low

/-- Every open feed valve of a channel is commanded closed; its inlet monitor becomes inactive (R39, R57). -/
def closeFeeds (c : Channel) (s : State) : State :=
  let d := s.chan c
  if d.openFeed.isSome then
    let s := s.setPeer { s.peer with lowFeeds := lowFeedsAfterClose d s.peer.lowFeeds }
    s.setChan c { d.quietMonitor with valves := d.valves.map Valve.close }
  else s

/-- The DI valve is commanded closed; having delivered the flush volume in this opening it leaves the MAIN line feed NONE (R41). -/
def closeDi (s : State) : State :=
  if s.sdu.di.isOpen then
    let d := s.chan .main
    let full := tenthsMl s.img.flushVolume ≤ s.sdu.diVolume
    let s := s.setChan .main (if full then { d with lineFeed := .none } else d)
    s.setSdu { s.sdu with di := s.sdu.di.close }
  else s

/-- Every open valve of a channel is commanded closed: its feed valves and, on MAIN, the DI valve. -/
def closeChannel (c : Channel) (s : State) : State :=
  match c with
  | .main => closeDi (closeFeeds .main s)
  | .additive => closeFeeds .additive s

/-- A feed's valve is commanded open, after any other open valve of the channel is commanded closed; the line feed becomes that
feed (R39, R41). -/
def openFeedValve (c : Channel) (f : Feed) (s : State) : State :=
  let s := closeChannel c s
  let d := s.chan c
  if (d.valves.get f).state = .closed then
    s.setChan c { d with valves := d.valves.set f (d.valves.get f).open_, lineFeed := .feed f }
  else s

/-- The DI valve is commanded open, after any open MAIN feed valve is commanded closed; its volume counts from 0 (R39, R41). -/
def openDi (s : State) : State :=
  let s := closeFeeds .main s
  s.setSdu { s.sdu with di := s.sdu.di.open_, diVolume := 0 }

/-! ### Blend, SHARE and pump rates (R48 to R51) -/

/-- The usable main flow with an additive item: min(q, g, ⌊g_add × 100 / r⌋) (R48). -/
def usableFlow (q gMain gAdd r : Nat) : Nat := min q (min gMain (gAdd * 100 / r))

/-- The effective grant of a feed. -/
def State.effective (s : State) (f : Feed) : Nat := (s.shr.get f).effective

/-- The step's additive ratio. -/
def State.ratio (s : State) : Nat := (s.stepNow.map StepRec.ratio).getD 1

/-- The usable main flow u as its inputs stand (R48). -/
def usable (s : State) : Nat :=
  match s.peer.own.main with
  | none => 0
  | some it =>
    match s.peer.own.additive with
    | none => min it.q (s.effective it.feed)
    | some ad => usableFlow it.q (s.effective it.feed) (s.effective ad.feed) s.ratio

/-- The blend rate ⌊u × r / 100⌋, 0 without an additive item (R48). -/
def blendRate (s : State) (u : Nat) : Nat :=
  match s.peer.own.additive with
  | none => 0
  | some _ => u * s.ratio / 100

/-- The SHARE condition: a MAIN item with u below its floor (R50). -/
def shareCondition (s : State) (u : Nat) : Bool :=
  match s.peer.own.main with
  | none => false
  | some it => u < it.m

/-- The kind of the step at the step index. -/
def State.stepKind (s : State) : Option StepKind := s.stepNow.map StepRec.kind

/-- The MAIN pump's rate (Table 3-3). -/
def mainRate (s : State) : Nat :=
  match (s.chan .main).switch with
  | .flush _ => if s.sdu.di.isOpen then rinseRate else 0
  | .postRinse _ => if s.sdu.di.isOpen then rinseRate else 0
  | _ =>
    if s.seq.state = .running then
      match s.stepNow with
      | none => 0
      | some st =>
        match st.kind with
        | .polish => if (s.chan .main).openFeed.isSome then s.sdu.u else 0
        | .rinse => if s.sdu.di.isOpen then min st.flow s.img.pumpMax.main else 0
        | .condition => 0
    else 0

/-- The ADDITIVE pump's rate (Table 3-3). -/
def additiveRate (s : State) : Nat :=
  if s.seq.state = .running && s.stepKind == some .polish && (s.chan .additive).openFeed.isSome then s.sdu.blend else 0

/-- A pump set to a rate: a start from stop begins a warm-up, a stop abandons the window and clears the clamp timer (R49, R51,
R54, R60). -/
def Dispense.setRate (d : Dispense) (rate : Nat) : Dispense :=
  if d.rate = 0 && 0 < rate then
    { d with rate := rate, warmTimer := 0, warm := false, windowOpen := false, strokes := 0, pulses := 0, clampTimer := 0 }
  else if rate = 0 then
    { d with rate := 0, warmTimer := 0, warm := false, windowOpen := false, strokes := 0, pulses := 0, clampTimer := 0 }
  else { d with rate := rate }

/-- The stroke rate a pump is driven at, in strokes per minute: pump rate × 1000 / calibrated stroke volume, unrounded; 0 for a stopped
pump (R51). -/
def Dispense.strokeRate (d : Dispense) : Rat := ((d.rate * 1000 : Nat) : Rat) / ((d.calibrated : Nat) : Rat)

/-- SDU recomputes u, the blend rate and the SHARE condition from the grants and the own record (R36, R48, R50). -/
def recomputeFlow (s : State) : State :=
  let u := usable s
  s.setSdu { s.sdu with u := u, blend := blendRate s u, share := shareCondition s u }

/-- Each pump's rate is set again (R49). -/
def setPumps (s : State) : State :=
  s.setSdu { s.sdu with
    ch := ⟨(s.chan .main).setRate (mainRate s), (s.chan .additive).setRate (additiveRate s)⟩ }

/-! ### Feed switches (R42 to R46) -/

/-- The channel targets of a step (Table 3-2). -/
def targetOf (c : Channel) (st : StepRec) : Target :=
  match st.kind, c with
  | .rinse, .main => .di
  | .polish, .main => match st.mainFeed with | some f => .feed f | none => .none
  | .polish, .additive => match st.addFeed with | some g => .feed g | none => .none
  | _, _ => .none

/-- A target's valve path is already OPEN (R43 stage 1). -/
def targetOpen (c : Channel) (t : Target) (s : State) : Bool :=
  match t with
  | .feed f => ((s.chan c).valves.get f).isOpen
  | .di => c == .main && s.sdu.di.isOpen
  | .none => false

/-- The non-overlap stage runs: the line feed is UNKNOWN or a feed other than the target (R43 stage 3). -/
def needsNonOverlap (l : LineFeed) (t : Target) : Bool :=
  match l with
  | .unknown => true
  | .none => false
  | .feed g => t != .feed g

/-- The flush stage runs: on MAIN, toward a feed, after a line feed that is UNKNOWN or another feed, with a flush volume (R43
stage 4). -/
def needsFlush (c : Channel) (t : Target) (s : State) : Bool :=
  match t with
  | .feed _ => c == .main && needsNonOverlap (s.chan c).lineFeed t && 0 < s.img.flushVolume
  | _ => false

/-- A switch meets a fault of its own: its target feed is not plumbed to the channel, or a path it needs is FAULT_CLOSED (R45). -/
def switchFault (c : Channel) (t : Target) (s : State) : Bool :=
  !targetOpen c t s &&
  match t with
  | .feed f =>
    !plumbedTo s.img c f || ((s.chan c).valves.get f).state == .faultClosed ||
    (needsFlush c t s && s.sdu.di.state == .faultClosed)
  | .di => s.sdu.di.state == .faultClosed
  | .none => false

/-- The switch state and target of a channel. -/
def setSwitch (c : Channel) (w : Switch) (s : State) : State := s.setChan c { s.chan c with switch := w }

/-- A target's valve is commanded open and the switch completes (R43 stage 5). -/
def openTarget (c : Channel) (t : Target) (s : State) : State :=
  match t with
  | .feed f => setSwitch c .idle (openFeedValve c f s)
  | .di => setSwitch c .idle (openDi s)
  | .none => setSwitch c .idle s

/-- Every valve of the channel that is open and is not the target's is commanded closed (R43 stage 2). It runs only when the
target's own valve is not open. -/
def startSwitch (c : Channel) (t : Target) (s : State) : State :=
  let s := s.setChan c { s.chan c with target := t }
  if targetOpen c t s then setSwitch c .idle s
  else
    let s := closeChannel c s
    if t = .none then setSwitch c .idle s
    else if needsNonOverlap (s.chan c).lineFeed t then setSwitch c (.nonOverlap (s.now + ms s.img.nonOverlap)) s
    else openTarget c t s

/-- The end of the non-overlap stage: on to the flush where it is needed, else the target opens (R43, R44). -/
def endNonOverlap (c : Channel) (s : State) : State :=
  let t := (s.chan c).target
  if needsFlush c t s then setSwitch c (.flush 0) (openDi s) else openTarget c t s

/-- The end of the flush: the pump stops, DI closes and the target's valve opens (R44). -/
def endFlush (s : State) : State :=
  let s := s.setChan .main ((s.chan .main).setRate 0)
  openTarget .main (s.chan .main).target (closeDi (setSwitch .main .idle s))

/-- The non-overlap stage of a channel has ended. -/
def nonOverlapDue (c : Channel) (s : State) : Bool :=
  match (s.chan c).switch with
  | .nonOverlap t => t ≤ s.now
  | _ => false

/-- The flush volume has been counted (R44). -/
def flushDue (s : State) : Bool :=
  match (s.chan .main).switch with
  | .flush v => tenthsMl s.img.flushVolume ≤ v
  | _ => false

/-- A channel's valves match a target: its valve open, or, for NONE, none open. -/
def valvesMatch (c : Channel) (t : Target) (s : State) : Bool :=
  match t with
  | .none => (s.chan c).openFeed.isNone && !(c == .main && s.sdu.di.isOpen)
  | _ => targetOpen c t s

/-- A completed switch, as the start conditions count it: IDLE with valves that match the target (R46). -/
def switchComplete (c : Channel) (s : State) : Bool :=
  (s.chan c).switch == .idle && valvesMatch c (s.chan c).target s

/-- Entry to ABORTING cuts every switch and post-rinse: all open valves close with no rinse and the switch states return to
IDLE (R45). The pumps stop with them (R49). -/
def cutDispense (s : State) : State :=
  let s := closeChannel .additive (closeChannel .main s)
  setPumps (setSwitch .additive .idle (setSwitch .main .idle s))

/-! ### Post-rinse (R47) -/

/-- The post-rinse volume of the step at the step index, in 0.1 mL. -/
def State.postRinse (s : State) : Nat := (s.stepNow.map StepRec.postRinse).getD 0

/-- The post-rinse cannot be run: a volume above 0 with the DI path FAULT_CLOSED (R47). -/
def postRinseFault (s : State) : Bool := 0 < s.postRinse && s.sdu.di.state == .faultClosed

/-- The pump runs on DI from here, with the volume counted from 0 (R47). -/
def runPostRinse (s : State) : State :=
  setSwitch .main (.postRinse 0) (if s.sdu.di.isOpen then s else openDi s)

/-- The post-rinse at entry to ENDING (R47): ADDITIVE closes; with no volume MAIN closes and the rinse is complete; else a MAIN
feed valve closes and waits the non-overlap time, an open DI rinses at once, and with nothing open DI opens at once unless the
line feed is a feed. That a POLISH step without a main feed waits there as a CONDITION step does: DESIGN CHOICE, log entry 46. -/
def startPostRinse (s : State) : State :=
  let s := closeFeeds .additive (s.setSdu { s.sdu with rinseDone := false })
  if s.postRinse = 0 then
    let s := setSwitch .main .idle (closeChannel .main s)
    s.setSdu { s.sdu with rinseDone := true }
  else if postRinseFault s then s
  else if (s.chan .main).openFeed.isSome then
    setSwitch .main (.postRinseWait (s.now + ms s.img.nonOverlap)) (closeFeeds .main s)
  else if s.sdu.di.isOpen then runPostRinse s
  else
    match (s.chan .main).lineFeed with
    | .feed _ => setSwitch .main (.postRinseWait (s.now + ms s.img.nonOverlap)) s
    | _ => runPostRinse s

/-- The wait of a post-rinse has ended. -/
def postRinseWaitDue (s : State) : Bool :=
  match (s.chan .main).switch with
  | .postRinseWait t => t ≤ s.now
  | _ => false

/-- The post-rinse volume has been counted. -/
def postRinseDue (s : State) : Bool :=
  match (s.chan .main).switch with
  | .postRinse v => tenthsMl s.postRinse ≤ v
  | _ => false

/-- The end of the post-rinse: the pump stops, DI closes, and it is reported complete (R47). -/
def endPostRinse (s : State) : State :=
  let s := s.setChan .main ((s.chan .main).setRate 0)
  let s := closeDi (setSwitch .main .idle s)
  s.setSdu { s.sdu with rinseDone := true }

/-! ### Counting (R51 to R53) -/

/-- The dose as it is shown and used: ⌊µL / 100⌋, saturating at 65535 (R52). -/
def State.doseShown (s : State) : Nat := min 65535 (s.sdu.dose / 100)

/-- The switch state with a volume added where it counts one (R44, R47). -/
def Switch.count (w : Switch) (v : Nat) : Switch :=
  match w with
  | .flush x => .flush (x + v)
  | .postRinse x => .postRinse (x + v)
  | w => w

/-- A volume counted on MAIN: toward the flush or post-rinse, toward the present DI opening, and toward the dose while
RUNNING (R41, R44, R52). The ADDITIVE volume is not totalized. -/
def countVolume (c : Channel) (v : Nat) (s : State) : State :=
  match c with
  | .additive => s
  | .main =>
    let s := s.setChan .main { s.chan .main with switch := (s.chan .main).switch.count v }
    s.setSdu { s.sdu with
      diVolume := if s.sdu.di.isOpen then s.sdu.diVolume + v else s.sdu.diVolume
      dose := if s.seq.state = .running then s.sdu.dose + v else s.sdu.dose }

/-! ### Cross-check and calibration (R54 to R56) -/

/-- The difference of two numbers. -/
def diff (x y : Nat) : Nat := x - y + (y - x)

/-- A window agrees: |V_f − V_s| × 100 ≤ V_s × tolerance (R54). -/
def windowAgrees (vf vs tolerance : Nat) : Bool := diff vf vs * 100 ≤ vs * tolerance

/-- A stroke volume bounded to 10 to 5000 µL (R54). -/
def boundStroke (v : Nat) : Nat := max 10 (min 5000 v)

/-- A channel with its window closed and judged; the next window begins with counts of 0 (R54 to R56). -/
def Dispense.closeWindow (d : Dispense) (pulseVolume tolerance : Nat) : Dispense :=
  let vf := d.pulses * pulseVolume
  let vs := 200 * d.calibrated
  let agrees := windowAgrees vf vs tolerance
  let d := { d with strokes := 0, pulses := 0, vf := vf, vs := vs }
  match d.source with
  | .flowmeter =>
    if agrees then { d with calibrated := boundStroke (vf / 200), disagreeing := 0 }
    else { d with disagreeing := min 3 (d.disagreeing + 1) }
  | .fallback => if agrees then { d with agreeing := min 3 (d.agreeing + 1) } else { d with agreeing := 0 }

/-- A window has had its 200th stroke. -/
def windowDue (c : Channel) (s : State) : Bool := (s.chan c).windowOpen && 200 ≤ (s.chan c).strokes

/-- The window of a channel closes (R54). -/
def closeWindow (c : Channel) (s : State) : State :=
  s.setChan c ((s.chan c).closeWindow (s.img.pulseVolume.get c) s.img.tolerance)

/-- A channel is to enter FLOW_FALLBACK (R55). -/
def fallbackDue (c : Channel) (s : State) : Bool :=
  (s.chan c).source == .flowmeter && 3 ≤ (s.chan c).disagreeing

/-- A channel enters FLOW_FALLBACK: calibration frozen, counts 0, the event set, the notice queued with V_f and V_s (R55). -/
def enterFallback (c : Channel) (s : State) : State :=
  let d := s.chan c
  let s := s.setChan c { d with source := .fallback, disagreeing := 0, agreeing := 0 }
  placeNotice 11 ([byteOf (numChannel c)] ++ le4 d.vf ++ le4 d.vs) (s.setSdu { s.sdu with mismatch := true })

/-- A channel is to return to FLOWMETER (R56). -/
def restoreDue (c : Channel) (s : State) : Bool :=
  (s.chan c).source == .fallback && 3 ≤ (s.chan c).agreeing

/-- A channel returns to FLOWMETER: the count is 0 and FLOW_RESTORED is queued; the calibration stands (R56). -/
def restoreFlow (c : Channel) (s : State) : State :=
  placeNotice 12 [byteOf (numChannel c)] (s.setChan c { s.chan c with source := .flowmeter, agreeing := 0 })

/-- What a 200th stroke brings about at that stroke: the window closes, and a fallback or a return that it completes is entered (R54 to
R56). -/
def settleWindow (c : Channel) (s : State) : State :=
  let s := whenDue (windowDue c s) s (closeWindow c)
  let s := whenDue (fallbackDue c s) s (enterFallback c)
  whenDue (restoreDue c s) s (restoreFlow c)

/-- A stroke counted in the window: the first stroke after the warm-up opens it (R54). -/
def Dispense.countStroke (d : Dispense) : Dispense :=
  if d.warm then
    if d.windowOpen then { d with strokes := d.strokes + 1 }
    else { d with windowOpen := true, strokes := 1, pulses := 0 }
  else d

/-- A pulse counted in the open window. -/
def Dispense.countPulse (d : Dispense) : Dispense :=
  if d.warm && d.windowOpen then { d with pulses := d.pulses + 1 } else d

/-- Strokes count volume during the warm-up and in FLOW_FALLBACK (R53). -/
def Dispense.strokesCount (d : Dispense) : Bool := !d.warm || d.source == .fallback

/-- Pulses count volume after the warm-up in FLOWMETER (R53). -/
def Dispense.pulsesCount (d : Dispense) : Bool := d.warm && d.source == .flowmeter

/-- A stroke pulse; one that arrives while the pump is stopped is discarded (R51, R53). Its own volume is counted by the source and the
calibration before it; then a 200th stroke closes the window (R53, R54). -/
def takeStroke (c : Channel) (s : State) : State :=
  if (s.chan c).rate = 0 then s
  else
    let d := s.chan c
    let s := s.setChan c d.countStroke
    settleWindow c (if d.strokesCount then countVolume c d.calibrated s else s)

/-- A flowmeter pulse; one that arrives while the pump is stopped is discarded (R51, R53). -/
def takePulse (c : Channel) (s : State) : State :=
  if (s.chan c).rate = 0 then s
  else
    let d := s.chan c
    let s := s.setChan c d.countPulse
    if d.pulsesCount then countVolume c (s.img.pulseVolume.get c) s else s

/-- A pump's warm-up has ended (R51). -/
def warmDue (c : Channel) (s : State) : Bool :=
  0 < (s.chan c).rate && !(s.chan c).warm && warmUpTime ≤ (s.chan c).warmTimer

/-! ### Starvation (R57 to R59) -/

/-- The starvation threshold of a channel, in 0.1 kPa (R57). -/
def thresholdOf (i : Image) (c : Channel) : Nat := 500 + 50 * i.threshold.get c

/-- The inlet monitor is active: a feed valve open and a threshold code other than 0 (R57). -/
def monitorActive (c : Channel) (s : State) : Bool :=
  (s.chan c).openFeed.isSome && 0 < s.img.threshold.get c

/-- SUPPLY-LOW is to be raised (R57). -/
def lowRaiseDue (c : Channel) (s : State) : Bool :=
  monitorActive c s && !(s.chan c).supplyLow && lowTime ≤ (s.chan c).lowTimer

/-- A command that can bring SHR a supply-low mark (R20). -/
def mayMark (i : Instr) : Bool :=
  match i with
  | .frameReceived _ => true
  | .demandReceived _ _ => true
  | .supplyLowRaise _ => true
  | _ => false

/-- A mark may still be taken at this instant: from a command that waits, or from a SUPPLY-LOW that is due. -/
def markWaits (s : State) : Bool := s.pending.any mayMark || lowRaiseDue .main s || lowRaiseDue .additive s

/-- k of a feed is to fall: 16 mark-free ticks with k above 0, and no mark of the same instant left to take, since a mark that arrives
together with the tick keeps k from falling in either order (R22, log entry 37). -/
def derateDue (f : Feed) (s : State) : Bool := (s.shr.get f).decrementDue && !markWaits s

/-- SUPPLY-LOW is to clear (R57). -/
def lowClearDue (c : Channel) (s : State) : Bool :=
  (s.chan c).supplyLow && recoveryTime ≤ (s.chan c).recoveryTimer

/-- SUPPLY-LOW is raised on the feed open on a channel: PEER adds it to the low-feed set and SHR sees a mark (R11, R20, R58). -/
def raiseLow (c : Channel) (s : State) : State :=
  match (s.chan c).openFeed with
  | none => s
  | some f =>
    let s := s.setChan c { s.chan c with supplyLow := true, lowTimer := 0, recoveryTimer := 0 }
    markSeen f (rebuildRecord (s.setPeer { s.peer with lowFeeds := s.peer.lowFeeds.set f true }))

/-- SUPPLY-LOW clears: PEER removes the feed; SHR is not told (R58). -/
def clearLow (c : Channel) (s : State) : State :=
  let d := s.chan c
  let s := s.setPeer { s.peer with lowFeeds := lowFeedsAfterClose d s.peer.lowFeeds }
  s.setChan c d.quietMonitor

/-- SUPPLY-LOW is raised on either channel (R59). -/
def anyLow (s : State) : Bool := (s.chan .main).supplyLow || (s.chan .additive).supplyLow

/-! ### Pump blockage and valve faults (R40, R60) -/

/-- A pump's clamp timer has reached the timeout (R60). -/
def blockedDue (c : Channel) (s : State) : Bool :=
  0 < (s.chan c).rate && ms s.img.clampTimeout ≤ (s.chan c).clampTimer

/-- The pump of a channel stops, its clamp timer 0 (R60). -/
def stopPump (c : Channel) (s : State) : State := s.setChan c ((s.chan c).setRate 0)

/-- A valve path of a channel; ADDITIVE has no DI path (R38). -/
def valveOf (c : Channel) (p : Path) (s : State) : Option Valve :=
  match p, c with
  | .feed f, c => if plumbedTo s.img c f then some ((s.chan c).valves.get f) else none
  | .di, .main => some s.sdu.di
  | .di, .additive => none

/-- A disagreement has been found on a valve path (R40). A path already FAULT_CLOSED is not found again: log entry 9. -/
def valveFaultDue (c : Channel) (p : Path) (s : State) : Bool :=
  match valveOf c p s with
  | none => false
  | some v => v.state != .faultClosed && feedbackTime ≤ v.disagree

/-- The valve path becomes FAULT_CLOSED and its valve is commanded closed; if it was feeding a running pump the pump stops (R40). -/
def faultValve (c : Channel) (p : Path) (s : State) : State :=
  match p with
  | .feed f =>
    let s := if ((s.chan c).valves.get f).isOpen then stopPump c (closeFeeds c s) else s
    s.setChan c { s.chan c with valves := (s.chan c).valves.set f ⟨.faultClosed, 0, 0⟩ }
  | .di =>
    let s := if s.sdu.di.isOpen then stopPump .main (closeDi s) else s
    s.setSdu { s.sdu with di := ⟨.faultClosed, 0, 0⟩ }

end Sys2Proof.Machine
end

