-- ==== Sys2Proof/Machine/Head.lean ====
section
/-! DEFINITION. HPC, the head pressure controller (Chapter 6): targets, clamp and envelope, ramps, venting, regulation and
overpressure, the air supply. -/

namespace Sys2Proof.Machine

open Sys2Proof

/-- One head channel. -/
def State.head (s : State) (c : HeadCh) : HeadChan := s.hpc.ch.get c

/-- The state with one head channel replaced. -/
def State.setHead (s : State) (c : HeadCh) (h : HeadChan) : State := s.setHpc { s.hpc with ch := s.hpc.ch.set c h }

/-- A channel that is not in CHANNEL_FAULT takes targets, ramps and vents (R114). -/
def HeadChan.sound (h : HeadChan) : Bool := h.state != .channelFault

/-! ### Clamp and envelope (R116 to R118) -/

/-- Each value held to its channel's maximum (R116). -/
def clampHead (maxima v : PerHead Nat) : PerHead Nat := .of (fun c => min (v.get c) (maxima.get c))

/-- The forward pass of the zone envelope: each zone at most its inner neighbour plus D (R117). -/
def forwardPass (d : Nat) (v : PerHead Nat) : PerHead Nat :=
  let z2 := min v.z2 (v.z1 + d)
  let z3 := min v.z3 (z2 + d)
  let z4 := min v.z4 (z3 + d)
  let z5 := min v.z5 (z4 + d)
  { v with z2 := z2, z3 := z3, z4 := z4, z5 := z5 }

/-- The backward pass: each zone at most its outer neighbour plus D (R117). -/
def backwardPass (d : Nat) (v : PerHead Nat) : PerHead Nat :=
  let z4 := min v.z4 (v.z5 + d)
  let z3 := min v.z3 (z4 + d)
  let z2 := min v.z2 (z3 + d)
  let z1 := min v.z1 (z2 + d)
  { v with z1 := z1, z2 := z2, z3 := z3, z4 := z4 }

/-- Clamp and envelope together; the ring takes no part in the envelope (R116, R117). -/
def fitHead (maxima : PerHead Nat) (d : Nat) (v : PerHead Nat) : PerHead Nat :=
  backwardPass d (forwardPass d (clampHead maxima v))

/-- The hold targets of a configuration (R118). -/
def holdTargets (i : Image) : PerHead Nat :=
  fitHead i.headMax i.zoneDiff ⟨i.zoneHold, i.zoneHold, i.zoneHold, i.zoneHold, i.zoneHold, i.ringHold⟩

/-- The targets the channels hold. -/
def State.targets (s : State) : PerHead Nat := s.hpc.ch.map HeadChan.target

/-- The applied values of the channels. -/
def State.applied (s : State) : PerHead Nat := s.hpc.ch.map HeadChan.applied

/-! ### Vents (R122) -/

/-- A channel vented: applied and target 0, its regulation timer 0 and its high-reported mark clear; a CHANNEL_FAULT channel
keeps its state (R122). -/
def HeadChan.vent (h : HeadChan) : HeadChan :=
  { h with
    state := if h.sound then .vented else .channelFault
    applied := 0, target := 0, regTimer := 0, highReported := false }

/-- All six channels are vented together; a ramp in progress is ended (R122), and the air trip timer is 0 (R128). -/
def ventHead (s : State) : State :=
  s.setHpc { s.hpc with
    ch := s.hpc.ch.map HeadChan.vent, ramp := none, inForce := false, atTarget := false, tripTimer := 0 }

/-! ### Taking targets (R115, R120, R121) -/

/-- The measured value is within the regulation tolerance of a value (R123). -/
def withinTolerance (tol measured applied : Nat) : Bool := diff measured applied ≤ tol

/-- A channel takes a target with ramp time 0: applied at once, REGULATING from timer 0 (R120). A channel that was regulating
keeps its high-reported mark while it stays out of tolerance (R124). -/
def HeadChan.takeNow (tol target : Nat) (h : HeadChan) : HeadChan :=
  if h.sound then
    { h with
      state := .regulating, target := target, applied := target, regTimer := 0
      highReported := h.highReported && h.state == .regulating && !withinTolerance tol h.measured target }
  else h

/-- A channel takes part in a new ramp: RAMPING toward its target, regulation timer 0 and mark clear (R120). -/
def HeadChan.startRamp (target : Nat) (h : HeadChan) : HeadChan :=
  if h.sound then { h with state := .ramping, target := target, regTimer := 0, highReported := false } else h

/-- HPC takes a target set. One equal to the targets in force is not new, unless `always` (a step's start, or a return to
RUNNING): it is reported as at target when no ramp is in progress, else at that ramp's end (R115, R120, R121). -/
def takeTargets (targets : PerHead Nat) (rampTime : Nat) (always : Bool) (s : State) : State :=
  let same := s.hpc.inForce && decide (targets = s.targets)
  if same && !always then
    s.setHpc { s.hpc with atTarget := s.hpc.ramp.isNone }
  else if rampTime = 0 then
    s.setHpc { s.hpc with
      ch := .of (fun c => (s.head c).takeNow s.img.regTolerance (targets.get c))
      ramp := none, inForce := true, atTarget := true }
  else
    s.setHpc { s.hpc with
      ch := .of (fun c => (s.head c).startRamp (targets.get c))
      ramp := some { starts := s.applied, n := rampTime * 5, k := 0, timer := 0 }
      inForce := true, atTarget := same && s.hpc.ramp.isNone }

/-- The ramp time of the step at the step index (R115). -/
def State.rampTime (s : State) : Nat := (s.stepNow.map StepRec.rampTime).getD 0

/-- Hold levels at the step's ramp time (R115, R118). -/
def takeHoldLevels (s : State) : State := takeTargets (holdTargets s.img) s.rampTime false s

/-- Hold levels, or vented for a CONDITION step: WAITING and HOLDING of Table 6-3. -/
def takeHoldOrVent (s : State) : State :=
  if s.stepKind = some .condition then ventHead s else takeHoldLevels s

/-- Whether the step targets differ from the requested values (R117). -/
def clampedNow (s : State) : Bool := decide (s.hpc.stepTargets ≠ s.hpc.ch.map HeadChan.requested)

/-- The CLAMPED flag of the step, set when HPC reports CLAMPED (R89, R117). -/
def reportClamped (s : State) : State :=
  if clampedNow s then s.setSeq { s.seq with flags := { s.seq.flags with clamped := true } } else s

/-- RUNNING's targets: the step targets, always a new set, or vented for a CONDITION step (R115, Table 6-3). -/
def takeStepTargets (s : State) : State :=
  reportClamped
    (if s.stepKind = some .condition then ventHead s else takeTargets s.hpc.stepTargets s.rampTime true s)

/-- At a step's start HPC takes the requested values from the step record and computes the step targets (R116, R117). -/
def requestStep (st : StepRec) (s : State) : State :=
  s.setHpc { s.hpc with
    ch := .of (fun c => { s.head c with requested := st.pressure.get c })
    stepTargets := fitHead s.img.headMax s.img.zoneDiff st.pressure }

/-! ### Ramps (R121) -/

/-- The applied value at tick k of n: start + (target − start) × k / n truncated toward zero (R121). -/
def rampValue (start target k n : Nat) : Nat :=
  if start ≤ target then start + (target - start) * k / n else start - (start - target) * k / n

/-- A ramp tick is due. -/
def rampTickDue (s : State) : Bool :=
  match s.hpc.ramp with
  | none => false
  | some r => r.k < r.n && rampTickTime ≤ r.timer

/-- A ramp tick moves each ramping channel (R121). -/
def rampTick (s : State) : State :=
  match s.hpc.ramp with
  | none => s
  | some r =>
    s.setHpc { s.hpc with
      ramp := some { r with k := r.k + 1, timer := r.timer - rampTickTime }
      ch := .of (fun c =>
        if (s.head c).state = .ramping then
          { s.head c with applied := rampValue (r.starts.get c) (s.head c).target (r.k + 1) r.n }
        else s.head c) }

/-- The ramp has taken its n ticks. -/
def rampEndDue (s : State) : Bool :=
  match s.hpc.ramp with
  | none => false
  | some r => r.n ≤ r.k

/-- The ramp ends: its channels enter REGULATING and at target is reported (R121). -/
def rampEnd (s : State) : State :=
  s.setHpc { s.hpc with
    ramp := none, atTarget := true
    ch := s.hpc.ch.map (fun h =>
      if h.state = .ramping then { h with state := .regulating, applied := h.target, regTimer := 0 } else h) }

/-! ### Regulation and overpressure (R123 to R126) -/

/-- A regulating channel's timer has reached the settle limit (R123). -/
def regulationDue (c : HeadCh) (s : State) : Bool :=
  (s.head c).state == .regulating && ms s.img.settleLimit ≤ (s.head c).regTimer

/-- The regulation timer of a channel set to 0. -/
def clearRegTimer (c : HeadCh) (s : State) : State := s.setHead c { s.head c with regTimer := 0 }

/-- Below its applied value by more than the tolerance: LEAK (R123). -/
def leakNow (c : HeadCh) (s : State) : Bool :=
  !withinTolerance s.img.regTolerance (s.head c).measured (s.head c).applied && (s.head c).measured < (s.head c).applied

/-- Above its applied value by more than the tolerance with the mark clear: one REGULATION_HIGH (R124). -/
def highNow (c : HeadCh) (s : State) : Bool :=
  !withinTolerance s.img.regTolerance (s.head c).measured (s.head c).applied &&
  (s.head c).applied < (s.head c).measured && !(s.head c).highReported

/-- The REGULATION_HIGH notice and its mark (R124). -/
def reportHigh (c : HeadCh) (s : State) : State :=
  placeNotice 13 ([byteOf (numHeadCh c)] ++ le2 (s.head c).applied ++ le2 (s.head c).measured)
    (s.setHead c { s.head c with highReported := true })

/-- The measured value stands above the channel's maximum plus the margin (R125). -/
def overLimit (i : Image) (c : HeadCh) (measured : Nat) : Bool := i.headMax.get c + i.overMargin < measured

/-- A channel's overpressure timer has reached 100 ms (R125). -/
def overDue (c : HeadCh) (s : State) : Bool := (s.head c).sound && overTime ≤ (s.head c).overTimer

/-- All six channels vent and the channel enters CHANNEL_FAULT (R125). Its overpressure timer is 0 in that state, unread: DESIGN CHOICE, log
entry 55. -/
def overpressureVent (c : HeadCh) (s : State) : State :=
  let s := ventHead s
  s.setHead c { s.head c with state := .channelFault, overTimer := 0 }

/-- A new sensor reading: back within tolerance it clears the regulation timer and the high-reported mark, and at or below the
overpressure limit it clears the overpressure timer (R123, R124, R125). -/
def measure (c : HeadCh) (value : Nat) (s : State) : State :=
  let h := { s.head c with measured := value }
  let back := withinTolerance s.img.regTolerance value h.applied
  s.setHead c { h with
    regTimer := if back then 0 else h.regTimer
    highReported := h.highReported && !back
    overTimer := if overLimit s.img c value then h.overTimer else 0 }

/-- CLEAR_FAULT takes every CHANNEL_FAULT channel to VENTED with its overpressure timer at 0 (R126). -/
def clearChannelFaults (s : State) : State :=
  s.setHpc { s.hpc with
    ch := s.hpc.ch.map (fun h => if h.sound then h else { h with state := .vented, overTimer := 0 }) }

/-! ### The air supply (R127, R128) -/

/-- The air supply is below the warn level while armed (R127). -/
def airWarnDue (s : State) : Bool := s.hpc.armed && s.pins.air < s.img.airWarn

/-- SUPPLY_WARN is set, its notice queued with the pressure, and the mark disarmed (R127). -/
def airWarn (s : State) : State :=
  placeNotice 14 (le2 s.pins.air) (s.setHpc { s.hpc with warn := true, armed := false, rearmTimer := 0 })

/-- The re-arm timer has reached 1 s (R127). -/
def rearmDue (s : State) : Bool := !s.hpc.armed && rearmTime ≤ s.hpc.rearmTimer

/-- At least one channel is RAMPING or REGULATING (R128). -/
def headPressed (s : State) : Bool :=
  s.hpc.ch.toList.any (fun h => h.state == .ramping || h.state == .regulating)

/-- The air trip timer has reached 50 ms (R128). -/
def airTripDue (s : State) : Bool := airTripTime ≤ s.hpc.tripTimer && headPressed s

/-! ### Wafer pressure (R129) -/

/-- Wafer pressure is applied: a zone with an applied value above 0; the ring does not count (R129). -/
def waferPressure (s : State) : Bool :=
  0 < s.hpc.ch.z1.applied || 0 < s.hpc.ch.z2.applied || 0 < s.hpc.ch.z3.applied || 0 < s.hpc.ch.z4.applied ||
  0 < s.hpc.ch.z5.applied

end Sys2Proof.Machine
end

