-- ==== Sys2Proof/Machine/Conditioner.lean ====
section
/-! DEFINITION. PCC, the pad conditioner (Chapter 7): the arm, sweeps, holds, life accounting, arm faults. What an arm fault
means to the sequencer stands in Machine/Sequencer.lean. -/

namespace Sys2Proof.Machine

open Sys2Proof

/-- A radius in mm as an arm radius. -/
def mmRadius (n : Nat) : Nat := n * Pcc.mm

/-! ### Segments (R99, R134) -/

/-- The outer radius of segment `j` (from 1), in nm; the inner end where there is no such segment. -/
def outerOf (segs : List Segment) (j : Nat) : Nat :=
  if j = 0 then innerRadius else ((segs[j - 1]?).map (fun g => mmRadius g.outer)).getD innerRadius

/-- The inner bound of segment `j`: the previous segment's outer radius, 40 mm for segment 1 (R134). -/
def innerOf (segs : List Segment) (j : Nat) : Nat := if j ≤ 1 then innerRadius else outerOf segs (j - 1)

/-- The speed of segment `j` in mm/s, which is nm per µs. -/
def speedOf (segs : List Segment) (j : Nat) : Nat := ((segs[j - 1]?).map Segment.speed).getD 0

/-- The first segment, from 1, whose outer radius passes the test; the last segment when none does. -/
def firstSegment (segs : List Segment) (test : Nat → Bool) : Nat :=
  match (List.range segs.length).find? (fun i => test (outerOf segs (i + 1))) with
  | some i => i + 1
  | none => segs.length

/-- The first segment whose outer radius is above 40 mm (R133). -/
def firstAboveInner (segs : List Segment) : Nat := firstSegment segs (fun r => innerRadius < r)

/-- The last outer radius of a profile. -/
def lastOuter (segs : List Segment) : Nat := outerOf segs segs.length

/-- The segment whose span holds a radius; one on a boundary belongs to the segment the direction leads into (R136). -/
def segmentAt (segs : List Segment) (radius : Nat) (d : Direction) : Nat :=
  match d with
  | .outward => firstSegment segs (fun r => radius < r)
  | .inward => firstSegment segs (fun r => radius ≤ r)

/-! ### Conditions -/

/-- The step conditions the pad: conditioner mode IN_SITU and disposition NORMAL (R132). -/
def conditionsPad (s : State) : Bool :=
  match s.stepNow with
  | none => false
  | some st => st.inSitu && s.seq.disposition == .normal

/-- The conditioner is available to the step: the arm PARKED with its home FOUND, or a step that does not condition (R132). -/
def conditionerAvailable (s : State) : Bool :=
  (s.pcc.arm == .parked && s.pcc.homeFound) || !conditionsPad s

/-- The feedback stands within 1 mm of the commanded radius (R131). -/
def nearCommand (s : State) : Bool := diff s.pins.armFeedback s.pcc.radius ≤ mmRadius 1

/-- The feedback differs from the commanded radius by more than 5 mm (R143). -/
def farFromCommand (s : State) : Bool := mmRadius 5 < diff s.pins.armFeedback s.pcc.radius

/-- The downforce a lowering applies: the step's, held to the configured maximum (R133). -/
def appliedDownforce (s : State) : Nat :=
  min ((s.stepNow.map StepRec.downforce).getD 0) s.img.maxDownforce

/-- The profile of the step at the step index, as the store holds it at this moment (R99). -/
def stepProfile (s : State) : Profile :=
  s.rcp.profiles.getD ((s.stepNow.map StepRec.profile).getD 0) .erased

/-! ### Movements (R133 to R137) -/

/-- A sweep is begun: the segments are taken, the first above 40 mm, OUTWARD, and the arm moves in toward 40 mm (R133). -/
def beginSweep (segs : List Segment) (s : State) : State :=
  s.setPcc { s.pcc with
    segments := segs, segment := firstAboveInner segs, direction := .outward, arm := .movingIn,
    destination := innerRadius }

/-- A sweep is resumed toward its resume radius, brought within the profile as read now (R136, R137). -/
def resumeSweep (segs : List Segment) (rp : ResumePoint) (s : State) : State :=
  let beyond := lastOuter segs < rp.radius
  let radius := if beyond then lastOuter segs else rp.radius
  let dir := if beyond then .inward else rp.direction
  let seg := segmentAt segs radius dir
  s.setPcc { s.pcc with
    segments := segs, segment := seg, direction := dir, arm := .movingIn, destination := radius,
    resume := some ⟨radius, seg, dir⟩ }

/-- The resume point a lift at entry to HOLDING records (R135). The radius at which the lift began is read as the commanded one: DESIGN
CHOICE, log entry 18. -/
def liftPoint (s : State) : ResumePoint :=
  ⟨if s.pcc.arm = .sweeping then s.pcc.radius else s.pcc.destination, s.pcc.segment, s.pcc.direction⟩

/-- Whether the arm is one that a hold or the end of a step lifts. -/
def State.armOut (s : State) : Bool := s.pcc.arm == .movingIn || s.pcc.arm == .sweeping

/-- Entry to HOLDING lifts the arm and records the resume point (R135). The applied downforce of the raised disk becomes 0: DESIGN CHOICE,
log entry 40. -/
def liftForHold (s : State) : State :=
  if s.armOut then
    s.setPcc { s.pcc with arm := .lifting, downforce := 0, stallTimer := 0, resume := some (liftPoint s) }
  else s

/-- Entry to ENDING or ABORTING lifts the arm; the resume point becomes absent and the withdrawn mark is cleared (R135,
R144). The applied downforce of the raised disk becomes 0: DESIGN CHOICE, log entry 40. -/
def liftForEnd (s : State) : State :=
  s.setPcc { s.pcc with
    arm := if s.armOut then .lifting else s.pcc.arm
    downforce := if s.armOut then 0 else s.pcc.downforce
    stallTimer := 0, resume := none, withdrawn := false }

/-- A moving-in arm has arrived at its radius (R131, R133, R136). -/
def arrivalDue (s : State) : Bool :=
  s.pcc.arm == .movingIn && s.pcc.radius == s.pcc.destination && nearCommand s

/-- On arrival the disk is lowered with the applied downforce and SWEEPING begins; the resume point becomes absent (R133, R136). On a span
of no width the disk is held at 40 mm with direction OUTWARD (R134). -/
def arrive (s : State) : State :=
  s.setPcc { s.pcc with
    arm := .sweeping, downforce := appliedDownforce s, resume := none, stallTimer := 0
    direction := if innerRadius < lastOuter s.pcc.segments then s.pcc.direction else .outward }

/-- A lifting arm has arrived at park (R131, R135). -/
def parkDue (s : State) : Bool := s.pcc.arm == .lifting && s.pcc.radius == parkRadius && nearCommand s

/-- The sweeping arm has reached the bound of its segment in its direction (R134). A profile with a span of no width gives no
boundary. -/
def boundaryDue (s : State) : Bool :=
  s.pcc.arm == .sweeping && innerRadius < lastOuter s.pcc.segments &&
  match s.pcc.direction with
  | .outward => outerOf s.pcc.segments s.pcc.segment ≤ s.pcc.radius
  | .inward => s.pcc.radius ≤ innerOf s.pcc.segments s.pcc.segment

/-- A segment boundary: the index moves, or at an end of the span the direction reverses (R134). -/
def crossBoundary (s : State) : State :=
  match s.pcc.direction with
  | .outward =>
    if s.pcc.segment < s.pcc.segments.length then s.setPcc { s.pcc with segment := s.pcc.segment + 1 }
    else s.setPcc { s.pcc with direction := .inward }
  | .inward =>
    if s.pcc.radius ≤ innerRadius then
      s.setPcc { s.pcc with direction := .outward, segment := firstAboveInner s.pcc.segments }
    else s.setPcc { s.pcc with segment := s.pcc.segment - 1 }

/-! ### The home search (R132, R145) -/

/-- A home search begins, the arm PARKED and driven outward (R132). The radius it is commanded from is where the feedback shows the arm:
DESIGN CHOICE, log entry 51. -/
def beginSearch (s : State) : State :=
  s.setPcc { s.pcc with arm := .parked, homeFound := false, search := some 0, radius := s.pins.armFeedback }

/-- The searching arm has reached the home switch (R132). -/
def homeDue (s : State) : Bool := s.pcc.arm == .parked && s.pcc.search.isSome && s.pins.homeSwitch

/-- The radius is set to 420 mm and the home state becomes FOUND (R132). Of the two radii of R131 that is the commanded one alone, which the
feedback, a reading of the sensor's pin, does not follow: DESIGN CHOICE, log entry 53. -/
def findHome (s : State) : State :=
  s.setPcc { s.pcc with radius := parkRadius, homeFound := true, search := none, positionTimer := 0 }

/-- A home search has run 15 s (R132, R143). -/
def homeTimeoutDue (s : State) : Bool :=
  match s.pcc.search with
  | none => false
  | some t => homeTime ≤ t

/-! ### Arm faults (R143) -/

/-- The position check runs: PARKED with home FOUND, MOVING_IN, SWEEPING or LIFTING (R143). -/
def positionWatched (s : State) : Bool :=
  match s.pcc.arm with
  | .parked => s.pcc.homeFound
  | .movingIn | .sweeping | .lifting => true
  | .lost => false

/-- The feedback has differed for 200 ms (R143). -/
def positionDue (s : State) : Bool := positionWatched s && armCheckTime ≤ s.pcc.positionTimer

/-- The disk has been silent for 200 ms while commanded to turn (R143). -/
def stallDue (s : State) : Bool := s.pcc.arm == .sweeping && armCheckTime ≤ s.pcc.stallTimer

/-- Whether an arm fault withdraws the present step: RUNNING, or HOLDING with resume target RUNNING (R143). -/
def withdraws (s : State) : Bool :=
  s.seq.state == .running || (s.seq.state == .holding && s.seq.resume == some .running)

/-- PCC's part of an arm fault: the disk raised and stopped, the arm LOST where it stands, COND_LOST set and its notice queued with
the cause and the feedback radius in mm (R143). The home state stays as it stood: DESIGN CHOICE, log entry 47. -/
def loseArm (cause : ArmCause) (s : State) : State :=
  let s := s.setPcc { s.pcc with
    downforce := 0, arm := .lost, resume := none, search := none
    withdrawn := s.pcc.withdrawn || withdraws s
    condLost := true, positionTimer := 0, stallTimer := 0 }
  placeNotice 16 ([byteOf (numArmCause cause)] ++ le2 (s.pins.armFeedback / Pcc.mm)) s

/-- CLEAR_EVENTS on COND_LOST takes a LOST arm to PARKED with its home SEARCHING (R145). -/
def clearCondLost (s : State) : State :=
  if s.pcc.arm = .lost then beginSearch (s.setPcc { s.pcc with condLost := false }) else s

/-! ### Life accounting (R139 to R142) -/

/-- The largest value of a life counter. -/
def lifeMax : Nat := 4294967295

/-- A counter is at its warning level: counter × 10 at or above limit × 9 (R141). -/
def atWarning (counter limit : Nat) : Bool := limit * 9 ≤ counter * 10

/-- A counter is worn: at or above its limit (R141). -/
def worn (counter limit : Nat) : Bool := limit ≤ counter

/-- The step's zone targets are above 0 in some zone (R140). -/
def zonesTargeted (s : State) : Bool :=
  0 < s.hpc.stepTargets.z1 || 0 < s.hpc.stepTargets.z2 || 0 < s.hpc.stepTargets.z3 || 0 < s.hpc.stepTargets.z4 ||
  0 < s.hpc.stepTargets.z5

/-- The pad condition: RUNNING a POLISH step with wafer pressure applied. From a step's start pressure counts as applied where the step's
zone targets are above 0, though a ramp from 0 has not lifted a zone yet; after a return to RUNNING the applied values alone decide (R129,
R140): DEDUCED, log entry 38. -/
def padCounts (s : State) : Bool :=
  s.seq.state == .running && s.stepKind == some .polish && (waferPressure s || (s.seq.sinceStart && zonesTargeted s))

/-- PCC reports to RCP that it is adding to a counter (R110, R140). -/
def lifeCounts (s : State) : Bool := s.pcc.arm == .sweeping || padCounts s

/-- The disk remainder has reached 1000 N·ms (R139). -/
def diskDue (s : State) : Bool := 1000000 ≤ s.pcc.diskRemainder

/-- The pad remainder has reached 1000 ms (R140). -/
def padDue (s : State) : Bool := 1000000 ≤ s.pcc.padRemainder

/-- The body of LIFE_WARNING: counter, value, limit (R141). -/
def lifeBody (counter value limit : Nat) : List Byte := [byteOf counter] ++ le4 value ++ le4 limit

/-- The disk life counter rises by 1, with one LIFE_WARNING at its warning level (R139, R141). -/
def diskIncrement (s : State) : State :=
  let life := min lifeMax (s.pcc.diskLife + 1)
  let warns := !s.pcc.diskWarned && s.pcc.diskLife < life && atWarning life s.img.diskLimit
  let s := s.setPcc { s.pcc with
    diskLife := life, diskRemainder := s.pcc.diskRemainder - 1000000, diskWarned := s.pcc.diskWarned || warns }
  if warns then placeNotice 15 (lifeBody 0 life s.img.diskLimit) s else s

/-- The pad life counter rises by 1, with one LIFE_WARNING at its warning level (R140, R141). -/
def padIncrement (s : State) : State :=
  let life := min lifeMax (s.pcc.padLife + 1)
  let warns := !s.pcc.padWarned && s.pcc.padLife < life && atWarning life s.img.padLimit
  let s := s.setPcc { s.pcc with
    padLife := life, padRemainder := s.pcc.padRemainder - 1000000, padWarned := s.pcc.padWarned || warns }
  if warns then placeNotice 15 (lifeBody 1 life s.img.padLimit) s else s

/-- The warned marks match the counters, without a notice (R141). -/
def matchWarned (s : State) : State :=
  s.setPcc { s.pcc with
    diskWarned := atWarning s.pcc.diskLife s.img.diskLimit, padWarned := atWarning s.pcc.padLife s.img.padLimit }

/-- A counter as a percentage of its limit: ⌊counter × 100 / limit⌋, capped at 255, and 255 for a limit of 0 (R141). -/
def lifePercent (counter limit : Nat) : Nat := if limit = 0 then 255 else min 255 (counter * 100 / limit)

/-- A life-counter write-back: both live counters stored, the accumulation timer 0 (R110). -/
def writeBack (s : State) : State :=
  s.setRcp { s.rcp with diskStored := s.pcc.diskLife, padStored := s.pcc.padLife, accumulation := 0 }

end Sys2Proof.Machine
end

