-- ==== Sys2Proof/Machine/Endpoint.lean ====
section
/-! DEFINITION. EPM, the endpoint monitor (Chapter 8): the sample window, the symbolizer, the stream and the matchers. What a match
means to the sequencer stands in Machine/Sequencer.lean. -/

namespace Sys2Proof.Machine

open Sys2Proof

/-! ### The window (R147) -/

/-- A sample joins the window, and when it already holds 16 the oldest leaves (R147). -/
def pushSample (window : List Nat) (x : Nat) : List Nat :=
  (if 16 ≤ window.length then window.drop (window.length - 15) else window) ++ [x]

/-- The present average ⌊sum / number⌋, 0 for an empty window (R147). -/
def average (window : List Nat) : Nat := window.sum / window.length

/-! ### Step settings and restart (R148, R149) -/

/-- The step settings EPM takes from the working copy (R148). -/
def settingsOf (r : Recipe) (st : StepRec) : EpmSettings :=
  { threshold := r.threshold, period := r.period, recovery := r.recovery, sigs := r.sigs, sigIndex := st.sigIndex,
    minTime := st.minTime }

/-- At a step's start the stream is empty, the period count 0, the matchers at 0, and the symbolizer enters REFERENCE with
its period timer started (R148, R149). -/
def startSymbolizer (r : Recipe) (st : StepRec) (s : State) : State :=
  s.setEpm { s.epm with
    settings := some (settingsOf r st), state := .reference, periodTimer := 0, count := 0, current := none,
    matchers := .all ⟨0, 0⟩ }

/-- Entry to HOLDING suspends a running symbolizer; the part of the period already run is discarded (R149). -/
def suspendSymbolizer (s : State) : State :=
  if s.epm.state = .reference ∨ s.epm.state = .classifying then
    s.setEpm { s.epm with state := .suspended, periodTimer := 0 }
  else s

/-- The return to RUNNING: a SUSPENDED symbolizer enters REFERENCE with its timer started afresh (R149). -/
def resumeSymbolizer (s : State) : State :=
  if s.epm.state = .suspended then s.setEpm { s.epm with state := .reference, periodTimer := 0 } else s

/-- Entry to ENDING, ABORTING and every state of rest stops the symbolizer (R149). -/
def stopSymbolizer (s : State) : State := s.setEpm { s.epm with state := .stopped, periodTimer := 0 }

/-! ### Classification (R150, R151) -/

/-- The classification of the change from `previous` to `present` (R150). -/
def classify (previous present threshold : Nat) : Symbol :=
  if previous + threshold < present then .rise
  else if present + threshold < previous then .fall
  else .flat

/-- A symbol that begins: its name and the duration of the symbol it ended, if there was one. -/
structure Beginning where
  symbol : Symbol
  ended : Nat
  deriving DecidableEq, Repr

/-- The new symbol, if one begins at period `n` with classification `c`: the first of the stream, or one that differs (R151). -/
def beginning (current : Option (Symbol × Nat)) (c : Symbol) (n : Nat) : Option Beginning :=
  match current with
  | none => some ⟨c, 0⟩
  | some (x, began) => if x = c then none else some ⟨c, n - began⟩

/-! ### The matchers (R153 to R158) -/

/-- What one expiry does to one matcher: the matcher as it stands after, and whether it completed. -/
structure Moved where
  after : Matcher
  complete : Bool
  deriving DecidableEq, Repr

/-- A wrong event: progress 0 and the recovery count set (R156). -/
def wrongEvent (recovery : Nat) : Moved := ⟨⟨0, recovery⟩, false⟩

/-- The duration is outside an element's bounds (R155). -/
def outOfBounds (e : Elem) (duration : Nat) : Bool := duration < e.min || (0 < e.max && e.max < duration)

/-- Element `i` of a signature. -/
def elemAt (sig : List Elem) (i : Nat) : Elem := sig.getD i ⟨.flat, 0, 0⟩

/-- A matcher that advances to progress `p`: at the length the match is pending, and an element of min 0 completes at once (R155,
R158). -/
def advance (sig : List Elem) (p : Nat) : Moved :=
  ⟨⟨p, 0⟩, p == sig.length && (elemAt sig (p - 1)).min == 0⟩

/-- An armed matcher at progress `p` meets a new symbol (R155, R158). -/
def onBeginning (sig : List Elem) (recovery p : Nat) (b : Beginning) : Moved :=
  if p = 0 then
    if (elemAt sig 0).symbol = b.symbol then advance sig 1 else ⟨⟨0, 0⟩, false⟩
  else if p < sig.length then
    if outOfBounds (elemAt sig (p - 1)) b.ended then wrongEvent recovery
    else if (elemAt sig p).symbol = b.symbol then advance sig (p + 1)
    else wrongEvent recovery
  else if (elemAt sig (p - 1)).min ≤ b.ended then ⟨⟨p, 0⟩, true⟩
  else wrongEvent recovery

/-- An armed matcher at progress `p` meets an expiry with no new symbol, the current one having lasted `duration` (R157, R158). -/
def onDuration (sig : List Elem) (recovery p duration : Nat) : Moved :=
  if p = 0 then ⟨⟨0, 0⟩, false⟩
  else if p < sig.length then
    if 0 < (elemAt sig (p - 1)).max && (elemAt sig (p - 1)).max < duration then wrongEvent recovery
    else ⟨⟨p, 0⟩, false⟩
  else ⟨⟨p, 0⟩, (elemAt sig (p - 1)).min ≤ duration⟩

/-- One matcher through one expiry (R154): an unused signature takes no part; recovery comes first; an unarmed matcher ignores all. -/
def moveMatcher (sig : List Elem) (recovery : Nat) (armed : Bool) (new : Option Beginning) (duration : Nat)
    (m : Matcher) : Moved :=
  if sig.isEmpty then ⟨m, false⟩
  else if 0 < m.recovery then ⟨⟨m.p, m.recovery - 1⟩, false⟩
  else if !armed then ⟨m, false⟩
  else
    match new with
    | some b => onBeginning sig recovery m.p b
    | none => onDuration sig recovery m.p duration

/-- The three matchers are armed: the step's elapsed time is at or above its min time (R153). -/
def matchersArmed (s : State) (e : EpmSettings) : Bool := e.minTime ≤ inTenths s.seq.elapsed

/-- The symbol period has expired (R150). -/
def symbolDue (s : State) : Bool :=
  match s.epm.settings with
  | none => false
  | some e => (s.epm.state == .reference || s.epm.state == .classifying) && ms e.period ≤ s.epm.periodTimer

/-- The new symbol of an expiry, made by the classification that CLASSIFYING alone makes (R150, R151). -/
def newSymbol (s : State) (e : EpmSettings) : Option Beginning :=
  if s.epm.state = .classifying then
    beginning s.epm.current (classify s.epm.previous (average s.epm.window) e.threshold) (s.epm.count + 1)
  else none

/-- The current symbol after an expiry. -/
def symbolAfter (s : State) (e : EpmSettings) : Option (Symbol × Nat) :=
  match newSymbol s e with
  | some b => some (b.symbol, s.epm.count + 1)
  | none => s.epm.current

/-- The duration of the current symbol at an expiry at which none begins (R151). -/
def durationNow (s : State) : Nat :=
  match s.epm.current with
  | some (_, began) => s.epm.count + 1 - began
  | none => 0

/-- The three matchers through an expiry. -/
def moveAll (s : State) (e : EpmSettings) : PerSig Moved :=
  let move := fun sig m =>
    moveMatcher sig e.recovery (matchersArmed s e) (newSymbol s e) (durationNow s) m
  ⟨move e.sigs.s0 s.epm.matchers.s0, move e.sigs.s1 s.epm.matchers.s1, move e.sigs.s2 s.epm.matchers.s2⟩

/-- Whether any matcher completed. -/
def anyComplete (v : PerSig Moved) : Bool := v.s0.complete || v.s1.complete || v.s2.complete

/-- The matchers after an expiry: all three reset where one completed (R159). -/
def matchersAfter (v : PerSig Moved) : PerSig Matcher :=
  if anyComplete v then .all ⟨0, 0⟩ else ⟨v.s0.after, v.s1.after, v.s2.after⟩

/-- The symbolizer and the matchers through a period expiry, the notices and the report aside (R150 to R159). -/
def symbolStep (e : EpmSettings) (s : State) : State :=
  s.setEpm { s.epm with
    periodTimer := 0, count := s.epm.count + 1, previous := average s.epm.window, state := .classifying,
    current := symbolAfter s e, matchers := matchersAfter (moveAll s e) }

/-- The ENDPOINT_MATCH notice of signature `i` (R161). -/
def matchNotice (i : Nat) (e : EpmSettings) (s : State) : State :=
  placeNotice 17 ([byteOf i, byteOf s.seq.index] ++ le2 (inTenths s.seq.elapsed) ++ [yesNo (e.sigIndex == some i)]) s

/-- The notices of the matchers that completed, in ascending signature index (R159). -/
def matchNotices (v : PerSig Moved) (e : EpmSettings) (s : State) : State :=
  let s := if v.s0.complete then matchNotice 0 e s else s
  let s := if v.s1.complete then matchNotice 1 e s else s
  if v.s2.complete then matchNotice 2 e s else s

/-- A matcher of the step's own signature completed (R160). -/
def ownMatch (v : PerSig Moved) (e : EpmSettings) : Bool :=
  match e.sigIndex with
  | none => false
  | some i => (v.get i).complete

end Sys2Proof.Machine
end

