-- ==== Sys2Proof/Machine/Drives.lean ====
section
/-! DEFINITION. DRV, the drives (section 9.4): setpoints and ramps, at speed and at zero, feedback sources, trips. -/

namespace Sys2Proof.Machine

open Sys2Proof

/-- One drive. -/
def State.drive (s : State) (d : Drive) : DriveState := s.drv.drive.get d

/-- The state with one drive replaced. -/
def State.setDrive (s : State) (d : Drive) (x : DriveState) : State := s.setDrv { s.drv with drive := s.drv.drive.set d x }

/-- A drive takes a setpoint: one equal to that in force starts nothing; a new one starts a ramp from the command of that
moment, and ends at speed (R172, R173). -/
def DriveState.take (x : DriveState) (setpoint : Nat) : DriveState :=
  if x.setpoint = setpoint then x
  else { x with
    setpoint := setpoint, ramp := if x.command = setpoint then none else some (x.command, 0)
    atSpeed := false, atSpeedTimer := 0 }

/-- Both drives take the speeds of the step (WAITING and RUNNING, Table 9-5). -/
def takeStepSpeeds (s : State) : State :=
  match s.stepNow with
  | none => s
  | some st =>
    s.setDrv { s.drv with
      drive := ⟨s.drv.drive.platen.take st.platenSpeed, s.drv.drive.head.take st.headSpeed⟩ }

/-- Both drives are commanded to 0 (Table 9-5). -/
def stopDrives (s : State) : State := s.setDrv { s.drv with drive := s.drv.drive.map (DriveState.take · 0) }

/-- The command `t` µs into a ramp from `start` toward `setpoint` at `a` rpm/s, truncated toward the start value (R172). -/
def rampCommand (start setpoint a t : Nat) : Nat :=
  if start ≤ setpoint then min setpoint (start + a * t / 1000000) else max setpoint (start - a * t / 1000000)

/-- The feedback speed: tach speed or estimate, by the feedback source (R173). -/
def feedback (s : State) (d : Drive) : Nat :=
  match (s.drive d).source with
  | .tach => s.pins.tachSpeed.get d
  | .estimate => s.pins.estimate.get d

/-- The feedback is within tolerance of a command: at most 1 rpm, or at most 3 % of the command (R173). -/
def speedNear (feedback command : Nat) : Bool := diff feedback command ≤ 1 || 100 * diff feedback command ≤ 3 * command

/-- The at-speed timer of a drive runs: command at the setpoint, feedback within tolerance, no trip (R173, R175). That it stands at 0 while
the trip is active: DEDUCED, log entry 52. -/
def speedRuns (s : State) (d : Drive) : Bool :=
  (s.drive d).command == (s.drive d).setpoint && speedNear (feedback s d) (s.drive d).command && !s.pins.trip.get d

/-- The at-speed condition judged again: where it fails the timer is 0 and the drive is not at speed (R173). -/
def judgeSpeed (d : Drive) (s : State) : State :=
  if speedRuns s d then s else s.setDrive d { s.drive d with atSpeed := false, atSpeedTimer := 0 }

/-- The at-speed timer has reached 1 s (R173). -/
def atSpeedDue (d : Drive) (s : State) : Bool :=
  speedRuns s d && !(s.drive d).atSpeed && atSpeedTime ≤ (s.drive d).atSpeedTimer

/-- A drive is at zero: setpoint and command 0, feedback at or below 1 rpm (R173). -/
def atZero (s : State) (d : Drive) : Bool :=
  (s.drive d).setpoint == 0 && (s.drive d).command == 0 && feedback s d ≤ 1

/-- Both drives at zero. -/
def bothAtZero (s : State) : Bool := atZero s .platen && atZero s .head

/-- Both drives at speed (Table 4-3). -/
def bothAtSpeed (s : State) : Bool := (s.drive .platen).atSpeed && (s.drive .head).atSpeed

/-- The tach-loss timer has reached 500 ms; below a command of 5 rpm it is 0 (R174). -/
def tachLostDue (d : Drive) (s : State) : Bool :=
  (s.drive d).source == .tach && 5 ≤ (s.drive d).command && tachLossTime ≤ (s.drive d).tachLoss

/-- A drive falls back to its estimate: TACH_LOST set, its notice queued with command and estimate (R174). The timers start
from 0 at each change of source. -/
def loseTach (d : Drive) (s : State) : State :=
  let s := s.setDrive d { s.drive d with source := .estimate, tachLoss := 0, agreement := 0 }
  let s := s.setDrv { s.drv with tachLost := true }
  judgeSpeed d (placeNotice 20 ([byteOf (numDrive d)] ++ le2 (s.drive d).command ++ le2 (s.pins.estimate.get d)) s)

/-- The tach speed and the estimate agree: at most 1 rpm apart, or at most 5 % of the estimate (R174). -/
def tachAgrees (tach estimate : Nat) : Bool := diff tach estimate ≤ 1 || 100 * diff tach estimate ≤ 5 * estimate

/-- The agreement timer has reached 2 s (R174). -/
def tachRestoredDue (d : Drive) (s : State) : Bool :=
  (s.drive d).source == .estimate && agreementTime ≤ (s.drive d).agreement

/-- A drive returns to its tach and TACH_RESTORED is queued (R174). -/
def restoreTach (d : Drive) (s : State) : State :=
  let s := s.setDrive d { s.drive d with source := .tach, tachLoss := 0, agreement := 0 }
  judgeSpeed d (placeNotice 21 [byteOf (numDrive d)] s)

/-- A new reading of a drive's speeds: the at-speed timer is judged, and a lost agreement clears its timer (R173, R174). -/
def takeFeedback (d : Drive) (tach estimate : Nat) (s : State) : State :=
  let s := s.setPins { s.pins with
    tachSpeed := s.pins.tachSpeed.set d tach, estimate := s.pins.estimate.set d estimate }
  let s := if tachAgrees tach estimate then s else s.setDrive d { s.drive d with agreement := 0 }
  judgeSpeed d s

/-- A tach pulse resets the tach-loss timer (R174). -/
def takeTachPulse (d : Drive) (s : State) : State := s.setDrive d { s.drive d with tachLoss := 0, silence := 0 }

/-- An active trip holds the command at 0, without a ramp; the drive is not at speed, and its tach-loss timer is 0 (R174, R175). -/
def holdTripped (d : Drive) (s : State) : State :=
  s.setDrive d { s.drive d with command := 0, ramp := none, atSpeed := false, atSpeedTimer := 0, tachLoss := 0 }

/-- A released trip: the command starts from 0 toward the setpoint of that moment, with the tach-loss timer at 0 (R174, R175). -/
def releaseTrip (d : Drive) (s : State) : State :=
  let x := s.drive d
  s.setDrive d { x with command := 0, tachLoss := 0, ramp := if x.setpoint = 0 then none else some (0, 0) }

/-- A ramping command has reached its setpoint (R172). -/
def rampDoneDue (d : Drive) (s : State) : Bool :=
  (s.drive d).ramp.isSome && (s.drive d).command == (s.drive d).setpoint

/-- The command stays at its setpoint; the ramp is over (R172). -/
def endDriveRamp (d : Drive) (s : State) : State := judgeSpeed d (s.setDrive d { s.drive d with ramp := none })

end Sys2Proof.Machine
end

