-- ==== Sys2Proof/Machine/Sequencer.lean ====
section
/-! DEFINITION. SEQ, the step sequencer (Chapter 4): its notices, entries to the states, holds and faults, and how a step
begins and ends; then `settle`, which carries a change through PEER, SHR, SDU and SEQ until it has come to rest. -/

namespace Sys2Proof.Machine

open Sys2Proof

/-! ### Notices (Table 4-8) -/

/-- The number of a resume target: its state's number in Table 4-1. -/
def numTarget (t : ResumeTarget) : Nat :=
  match t with
  | .waiting => numState .waiting
  | .running => numState .running

/-- The step's hold time in 0.1 s, at most 65535 (R71). -/
def State.holdShown (s : State) : Nat := min 65535 (inTenths s.seq.hold)

/-- STEP_BEGUN (R68). -/
def noticeBegun (s : State) : State := placeNotice 3 [byteOf s.seq.index] s

/-- STEP_ENDED with the entry (R82). -/
def noticeEnded (e : RunEntry) (s : State) : State := placeNotice 4 e.bytes s

/-- HOLD_ENTERED with the step index, the resume target and the cause set (R77). -/
def noticeHeld (t : ResumeTarget) (s : State) : State :=
  placeNotice 5 [byteOf s.seq.index, byteOf (numTarget t), byteOf (bitSet s.seq.causes.bits)] s

/-- HOLD_LEFT with the step index, the state entered and the hold time so far (R80). -/
def noticeLeft (entered : SeqState) (s : State) : State :=
  placeNotice 6 ([byteOf s.seq.index, byteOf (numState entered)] ++ le2 s.holdShown) s

/-- FAULT with the kind, first (0) or later (1), and the sequencer state at arrival (R87). -/
def noticeFault (k : FaultKind) (later : Bool) (s : State) : State :=
  placeNotice 8 [byteOf (numKind k), yesNo later, byteOf (numState s.seq.state)] s

/-- The first fault as a byte: 0 absent, else 1 and its position in Table 4-6 (Table 10-11). -/
def firstFaultByte (s : State) : Byte :=
  match s.seq.first with
  | none => 0
  | some k => byteOf (1 + numKind k)

/-- RUN_ENDED with the result, the entry count, the first fault and the abort-timeout mark; with it the life counters are written
back (R83, R86, R91). The result is numbered as R191 numbers it and the first fault as Table 10-11: DEDUCED, log entry 15. -/
def noticeRunEnded (timeout : Bool) (s : State) : State :=
  writeBack (placeNotice 9
    [byteOf (numRun s.seq.result), byteOf s.seq.record.length, firstFaultByte s, yesNo timeout] s)

/-! ### The run record (R89) -/

/-- The entry of the step as it stands, with a result. -/
def State.entryNow (s : State) (r : StepResult) : RunEntry :=
  { index := s.seq.index, result := r, elapsed := inTenths s.seq.elapsed, hold := s.holdShown, dose := s.doseShown,
    endpoint := s.seq.endpoint, flags := s.seq.flags }

/-- An entry is appended and STEP_ENDED queued. -/
def appendEntry (e : RunEntry) (s : State) : State :=
  noticeEnded e (s.setSeq { s.seq with record := s.seq.record ++ [e] })

/-- A run in progress (R84). -/
def SeqState.inRun (x : SeqState) : Bool :=
  match x with
  | .waiting | .running | .holding | .ending => true
  | .empty | .loaded | .aborting | .done | .faulted => false

/-- States of rest and FAULTED, in which no order of another block is refused for the run (R142, R202). -/
def SeqState.atRest (x : SeqState) : Bool :=
  match x with
  | .empty | .loaded | .done | .faulted => true
  | .waiting | .running | .holding | .ending | .aborting => false

/-- The step at the step index has no entry yet and its result is not decided (R85). -/
def undecided (s : State) : Bool :=
  (s.seq.state == .waiting || s.seq.state == .running || s.seq.state == .holding) &&
  s.seq.record.all (fun e => e.index != s.seq.index)

/-! ### Entries to the states of rest and to ABORTING (R62, R85) -/

/-- The persistence timer at 0, as at each departure from RUNNING (R59). -/
def clearPersist (s : State) : State := s.setSdu { s.sdu with persist := 0 }

/-- Entry to EMPTY, LOADED, DONE or FAULTED: valves closed, pumps stopped, head vented, drives commanded to 0, symbolizer
stopped (Table 4-1). -/
def enterRest (x : SeqState) (s : State) : State :=
  stopSymbolizer (stopDrives (cutDispense (ventHead (s.setSeq { s.seq with state := x }))))

/-- Entry to ABORTING with a run result (R84, R85). -/
def enterAborting (r : RunResult) (s : State) : State :=
  let s := if undecided s then appendEntry (s.entryNow .cut) s else s
  let s := s.setSeq { s.seq with
    state := .aborting, causes := .empty, deferred := .empty, resume := none, result := r, abortTimer := some 0 }
  clearPersist (stopSymbolizer (stopDrives (liftForEnd (cutDispense (ventHead s)))))

/-! ### Faults (R87) -/

/-- SEQ takes a fault according to its state; none before the end of LOADING, none in CONFIG_FAULT (R87). -/
def takeFault (k : FaultKind) (s : State) : State :=
  if s.started then
    match s.seq.state with
    | .empty | .loaded | .done =>
      enterRest .faulted (noticeFault k false (s.setSeq { s.seq with first := some k }))
    | .waiting | .running | .holding | .ending =>
      enterAborting .faulted (noticeFault k false (s.setSeq { s.seq with first := some k }))
    | .aborting =>
      if s.seq.first.isNone then noticeFault k false (s.setSeq { s.seq with first := some k })
      else noticeFault k true (s.setSeq { s.seq with later := s.seq.later.add k })
    | .faulted => noticeFault k true (s.setSeq { s.seq with later := s.seq.later.add k })
  else s

/-! ### Holds (R77 to R79) -/

/-- Entry to HOLDING from WAITING or RUNNING with a resume target and a cause set (R77, R79). -/
def enterHolding (t : ResumeTarget) (causes : CauseSet) (s : State) : State :=
  let s := s.setSeq { s.seq with state := .holding, causes := causes, resume := some t }
  clearPersist (suspendSymbolizer (liftForHold (takeHoldOrVent (noticeHeld t s))))

/-- The causes ORDERED, INTERLOCK, STOP and MODE by the sequencer's state (Table 4-4). -/
def holdFor (c : Cause) (s : State) : State :=
  match s.seq.state with
  | .waiting => enterHolding .waiting (s.seq.causes.add c) s
  | .running => enterHolding .running (s.seq.causes.add c) s
  | .holding => s.setSeq { s.seq with causes := s.seq.causes.add c }
  | .ending => s.setSeq { s.seq with deferred := s.seq.deferred.add c }
  | .empty | .loaded | .aborting | .done | .faulted => s

/-- A run in progress enters ABORTING with a result; in any other state nothing happens (Table 4-5). -/
def abortRun (r : RunResult) (s : State) : State := if s.seq.state.inRun then enterAborting r s else s

/-! ### Arm faults as SEQ takes them (R70, R89) -/

/-- The COND_LOST flag of the step. -/
def flagCondLost (s : State) : State := s.setSeq { s.seq with flags := { s.seq.flags with condLost := true } }

/-- An arm fault: PCC's part, then the sequencer's: the flag while the step is RUNNING or HOLDING, and CONDITIONER for a
conditioning step that has not started (R70, R89, R143). -/
def armFault (cause : ArmCause) (s : State) : State :=
  let s := loseArm cause s
  match s.seq.state with
  | .running => flagCondLost s
  | .holding =>
    let s := flagCondLost s
    if s.seq.resume == some .waiting && conditionsPad s then
      s.setSeq { s.seq with causes := s.seq.causes.add .conditioner }
    else s
  | .waiting => if conditionsPad s then enterHolding .waiting (s.seq.causes.add .conditioner) s else s
  | .empty | .loaded | .ending | .aborting | .done | .faulted => s

/-! ### Ending a step (R72 to R75, R82) -/

/-- Entry to ENDING (R82). A post-rinse that the DI path cannot run is a VALVE fault (R47). -/
def enterEnding (s : State) : State :=
  let s := s.setSeq { s.seq with state := .ending, causes := .empty, deferred := .empty, resume := none }
  let s := clearPersist (stopSymbolizer (liftForEnd (takeHoldLevels (startPostRinse s))))
  if postRinseFault s then takeFault .valve s else s

/-- A step ends with a result: its entry is appended, STEP_ENDED queued, and ENDING entered. -/
def endStep (r : StepResult) (s : State) : State := enterEnding (appendEntry (s.entryNow r) s)

/-- The termination of the step at the step index. -/
def State.termination (s : State) : Option Termination := s.stepNow.map StepRec.termination

/-- The dose totalizer is at or above the step's dose target (R73). -/
def doseMet (s : State) : Bool := (s.stepNow.map StepRec.doseTarget).getD 0 ≤ s.doseShown

/-- The elapsed time is at or above the step's min time. -/
def minTimeMet (s : State) : Bool := tenths ((s.stepNow.map StepRec.minTime).getD 0) ≤ s.seq.elapsed

/-- A DOSE step that has its dose and its min time ends DONE_DOSE (R73). -/
def checkDose (s : State) : State :=
  if s.seq.state == .running && s.termination == some .dose && doseMet s && minTimeMet s then endStep .doneDose s else s

/-- An ENDPOINT step at its limit without a match (R75). -/
def missEndpoint (s : State) : State :=
  let s := appendEntry (s.entryNow .endpointMissed) s
  match (s.stepNow.map StepRec.miss).getD .next with
  | .next => enterEnding s
  | .hold =>
    enterHolding .running (s.seq.causes.add .endpoint) (s.setSeq { s.seq with disposition := .concluded })
  | .abort => enterAborting .aborted s

/-- A pulse of the MAIN channel. -/
def mainPulse (i : Instr) : Bool :=
  match i with
  | .strokePulse .main => true
  | .flowmeterPulse .main => true
  | _ => false

/-- A DOSE step is short of its dose while a MAIN pulse of the same instant waits to be taken (R73, log entry 37). -/
def doseWaits (s : State) : Bool := s.termination == some .dose && !doseMet s && s.pending.any mainPulse

/-- The elapsed time has reached the step's limit (R71), and no pulse that arrives together with it is left to take (R73). -/
def limitDue (s : State) : Bool :=
  s.seq.state == .running && !doseWaits s &&
  match s.stepNow with
  | none => false
  | some st => tenths st.limit ≤ s.seq.elapsed

/-- The step ends at its limit (R72, R73, R74, R75). -/
def reachLimit (s : State) : State :=
  match s.termination with
  | some .time => endStep .doneTime s
  | some .dose => endStep (if doseMet s then .doneDose else .doseShort) s
  | some .endpoint => if s.seq.endpoint.isSome then endStep .doneEndpoint s else missEndpoint s
  | none => s

/-- The elapsed time has reached the overpolish end (R74). -/
def overpolishDue (s : State) : Bool :=
  s.seq.state == .running &&
  match s.seq.overEnd with
  | none => false
  | some t => tenths t ≤ s.seq.elapsed

/-- The elapsed time has reached the min time for the first time in the step (R73, R74). -/
def minTimeDue (s : State) : Bool := s.seq.state == .running && !s.seq.minReached && minTimeMet s

/-- A match of the step's own signature: the first while RUNNING an ENDPOINT step sets the endpoint time and the overpolish
end (R74). -/
def takeMatch (s : State) : State :=
  match s.stepNow with
  | none => s
  | some st =>
    if st.termination = .endpoint ∧ s.seq.state = .running ∧ s.seq.endpoint = none then
      s.setSeq { s.seq with
        endpoint := some (inTenths s.seq.elapsed), overEnd := some (inTenths s.seq.elapsed + st.overpolish) }
    else s

/-! ### Starting a step (R67, R68, R70) -/

/-- The feed switches of a step, MAIN first. A switch that meets a fault of its own is reported before any valve of it is
commanded, and ABORTING then leaves nothing to switch (R42, R45). -/
def startSwitches (st : StepRec) (s : State) : State :=
  if switchFault .main (targetOf .main st) s then takeFault .valve s
  else
    let s := startSwitch .main (targetOf .main st) s
    if switchFault .additive (targetOf .additive st) s then takeFault .valve s
    else startSwitch .additive (targetOf .additive st) s

/-- DRIVE_TRIP reported again for each trip input that is active (R175). -/
def reportTrips (s : State) : State :=
  let s := if s.pins.trip.platen then takeFault .driveTrip s else s
  if s.pins.trip.head then takeFault .driveTrip s else s

/-- The causes of an entry to WAITING: the deferred ones, and CONDITIONER under R70. -/
def entryCauses (deferred : CauseSet) (s : State) : CauseSet :=
  if s.pcc.condLost && conditionsPad s then deferred.add .conditioner else deferred

/-- SEQ's own part of an entry to WAITING for step `k` (R67). -/
def Seq.newStep (q : Seq) (k : Nat) : Seq :=
  { q with
    state := .waiting, index := k, causes := .empty, deferred := .empty, resume := none, disposition := .normal,
    elapsed := 0, hold := 0, waiting := 0, waitLongSent := false, minReached := false, endpoint := none,
    overEnd := none, flags := .empty }

/-- Entry to WAITING for step `k` from START or from ENDING (R67, R70, R83). The own record is rebuilt with summary state WAITING, and its
DEMAND placed, before a switch that faults or a trip ends that WAITING (R7, R12). -/
def enterWaiting (k : Nat) (fromStart : Bool) (s : State) : State :=
  let deferred := s.seq.deferred
  let s := takeStepSpeeds (takeHoldOrVent (rebuildRecord (s.setSeq (s.seq.newStep k))))
  let s := match s.stepNow with
    | none => s
    | some st => startSwitches st s
  let s := if fromStart then reportTrips s else s
  if s.seq.state = .waiting ∧ (entryCauses deferred s).isEmpty = false then
    enterHolding .waiting (entryCauses deferred s) s
  else s

/-- The start conditions of Table 4-3 that do not hold, in the table's order. The table has one condition for both drives, so that
WAIT_LONG does not tell platen from head: DESIGN CHOICE, log entry 44 (R69, R173). -/
def unmetStart (s : State) : List Bool :=
  match s.stepNow with
  | none => [true, false, false, false, false]
  | some st =>
    [!(switchComplete .main s && switchComplete .additive s), st.kind == .polish && s.sdu.share,
      st.kind != .condition && s.ilk.lines.il1.level != .active, !bothAtSpeed s, !conditionerAvailable s]

/-- All the start conditions of the step hold in WAITING (R68). -/
def startDue (s : State) : Bool := s.seq.state == .waiting && (unmetStart s).all (fun b => !b)

/-- PCC at a step's start: a sweep begins, or its profile read is an arm fault (R133). -/
def startSweep (s : State) : State :=
  if conditionsPad s && !s.pcc.withdrawn then
    if (stepProfile s).state = .written then beginSweep (stepProfile s).segments s else armFault .profile s
  else s

/-- The step starts: RUNNING is entered, the dose is 0, EPM restarts, HPC takes the setpoints, STEP_BEGUN is queued and PCC begins
the sweep (R68). STEP_BEGUN goes before the COND_LOST of a profile read that fails here: DESIGN CHOICE, log entry 41. -/
def beginStep (s : State) : State :=
  match s.seq.copy, s.stepNow with
  | some r, some st =>
    let s := s.setSeq { s.seq with
      state := .running, elapsed := 0, minReached := false, sinceStart := true }
    let s := s.setSdu { s.sdu with dose := 0, persist := 0 }
    startSweep (noticeBegun (takeStepTargets (requestStep st (startSymbolizer r st s))))
  | _, _ => s

/-! ### Leaving HOLDING (R80) -/

/-- PCC at a return to RUNNING with a resume point held (R136, R137, R144). -/
def returnSweep (s : State) : State :=
  match s.pcc.resume with
  | none => s
  | some rp =>
    if s.pcc.withdrawn then s
    else if (stepProfile s).state = .written then resumeSweep (stepProfile s).segments rp s
    else armFault .profile s

/-- The return to RUNNING (R80, last case). HOLD_LEFT goes before the COND_LOST of a profile read that fails here: DESIGN CHOICE, log
entry 41. -/
def returnToRunning (s : State) : State :=
  let s := s.setSeq { s.seq with state := .running, causes := .empty, resume := none, sinceStart := false }
  returnSweep (resumeSymbolizer (takeStepTargets (noticeLeft .running s)))

/-- The entry of a skipped step: elapsed time 0, dose 0, the COND_LOST flag (R70). -/
def State.skippedEntry (s : State) : RunEntry :=
  { s.entryNow .skipped with elapsed := 0, dose := 0, endpoint := none, flags := { s.seq.flags with condLost := true } }

/-- The departure from HOLDING once the hold-cause set is empty (R80). -/
def leaveHolding (s : State) : State :=
  match s.seq.resume with
  | some .running =>
    if s.seq.disposition = .concluded then enterEnding (noticeLeft .ending s)
    else if s.sdu.share then s.setSeq { s.seq with causes := CauseSet.empty.add .share }
    else returnToRunning s
  | _ =>
    if s.seq.disposition = .skip then enterEnding (noticeLeft .ending (appendEntry s.skippedEntry s))
    else noticeLeft .waiting (s.setSeq { s.seq with state := .waiting, causes := .empty, resume := none })

/-! ### Interlock routing as the sequencer's orders read it (R163, R168) -/

/-- The routing of a line's events: LINK_STOP for IL0, none for IL1, else the image's (R163). -/
def routingOf (i : Image) (l : Line) : Option Routing :=
  match l with
  | .il0 => some .linkStop
  | .il1 => none
  | l => some (i.lines.get l).routing

/-- A line is at its active level; UNKNOWN counts as inactive (R164). -/
def lineActive (s : State) (l : Line) : Bool := (s.ilk.lines.get l).level == .active

/-- A line routed HOLD is at its active level (R81). -/
def holdLineActive (s : State) : Bool :=
  PerLine.indices.any (fun l => routingOf s.img l == some .hold && lineActive s l)

/-- A line routed ABORT or LINK_STOP is at its active level (R88). -/
def faultLineActive (s : State) : Bool :=
  PerLine.indices.any (fun l =>
    (routingOf s.img l == some .abort || routingOf s.img l == some .linkStop) && lineActive s l)

/-- The causes RESUME leaves in the set (R81). -/
def causesAfterResume (s : State) : CauseSet :=
  let c := s.seq.causes
  { c with
    ordered := false, stop := false, conditioner := false, endpoint := false
    mode := c.mode && s.ilk.mode != .run
    interlock := c.interlock && holdLineActive s }

/-- The disposition when RESUME removes CONDITIONER: with COND_LOST still set an IN_SITU step runs without conditioning, a
CONDITION step is skipped (R70). -/
def resumeDisposition (s : State) : State :=
  if s.seq.causes.conditioner && s.pcc.condLost then
    if s.stepKind = some .condition then s.setSeq { s.seq with disposition := .skip }
    else flagCondLost (s.setSeq { s.seq with disposition := .conditioningOff })
  else s

/-- RESUME in HOLDING (R70, R80, R81). -/
def resumeHold (s : State) : State :=
  let s := resumeDisposition s
  let s := s.setSeq { s.seq with causes := causesAfterResume s }
  if s.seq.causes.isEmpty then leaveHolding s else s

/-! ### The end of a run (R83, R86) -/

/-- ENDING is complete: the post-rinse and the head movement are (R83). -/
def endingDue (s : State) : Bool := s.seq.state == .ending && s.sdu.rinseDone && s.hpc.atTarget

/-- The number of steps of the working copy. -/
def State.stepCount (s : State) : Nat := (s.seq.copy.map (fun r => r.steps.length)).getD 0

/-- Completion of ENDING: the next step's WAITING, or DONE with run result COMPLETED (R83). -/
def completeEnding (s : State) : State :=
  if s.seq.index < s.stepCount then enterWaiting (s.seq.index + 1) false s
  else
    noticeRunEnded false (enterRest .done (s.setSeq { s.seq with deferred := .empty, result := .completed }))

/-- The arm counts as parked for the completion of ABORTING: PARKED, searching or not, or LOST (R86, R132). -/
def armDown (s : State) : Bool := s.pcc.arm == .parked || s.pcc.arm == .lost

/-- ABORTING is complete (R86). -/
def abortDone (s : State) : Bool := s.seq.state == .aborting && bothAtZero s && armDown s

/-- The abort timer has run 10 s (R85, R86). -/
def abortTimeoutDue (s : State) : Bool :=
  s.seq.state == .aborting &&
  match s.seq.abortTimer with
  | none => false
  | some t => abortTime ≤ t

/-- Completion of ABORTING: FAULTED with a first fault, DONE otherwise (R86). -/
def completeAbort (timeout : Bool) (s : State) : State :=
  noticeRunEnded timeout
    (enterRest (if s.seq.first.isSome then .faulted else .done) (s.setSeq { s.seq with abortTimer := none }))

/-! ### Waiting (R69) -/

/-- The waiting timer has reached the waiting limit with no WAIT_LONG sent for the step (R69). -/
def waitLongDue (s : State) : Bool :=
  s.seq.state == .waiting && !s.seq.waitLongSent && ms (1000 * s.img.waitingLimit) ≤ s.seq.waiting

/-- WAIT_LONG with the step index and the unmet start conditions (R69). -/
def sendWaitLong (s : State) : State :=
  placeNotice 7 [byteOf s.seq.index, byteOf (bitSet (unmetStart s))] (s.setSeq { s.seq with waitLongSent := true })

/-! ### Carrying a change through (R12, R33, R48 to R50, R59, R76, R89) -/

/-- The flags that stand while the step is RUNNING: SHARE_SHORT with a MAIN item and u below the step flow, FLOW_FALLBACK,
TACH_FALLBACK (R50, R76, R89, R174). -/
def markFlags (s : State) : State :=
  if s.seq.state = .running then
    let short := s.peer.own.main.isSome && s.sdu.u < (s.stepNow.map StepRec.flow).getD 0
    let flow := (s.chan .main).source == .fallback || (s.chan .additive).source == .fallback || s.sdu.mismatch
    let tach := (s.drive .platen).source == .estimate || (s.drive .head).source == .estimate || s.drv.tachLost
    let f := s.seq.flags
    s.setSeq { s.seq with flags := { f with
      shareShort := f.shareShort || short, flowFallback := f.flowFallback || flow,
      tachFallback := f.tachFallback || tach } }
  else s

/-- The causes that SDU's withdrawals leave in the set (R59, R76). -/
def causesAfterWithdrawal (s : State) : CauseSet :=
  let c := s.seq.causes
  { c with share := c.share && s.sdu.share, supply := c.supply && anyLow s }

/-- SDU's reports as SEQ takes them: SHARE begins in RUNNING; in HOLDING a withdrawal removes its cause, and an emptied set
leaves HOLDING (R50, R59, R76). -/
def takeReports (s : State) : State :=
  match s.seq.state with
  | .running => if s.sdu.share then enterHolding .running (s.seq.causes.add .share) s else s
  | .holding =>
    if causesAfterWithdrawal s = s.seq.causes then s
    else
      let s := s.setSeq { s.seq with causes := causesAfterWithdrawal s }
      if s.seq.causes.isEmpty then leaveHolding s else s
  | .empty | .loaded | .waiting | .ending | .aborting | .done | .faulted => s

/-- The persistence timer is 0 outside RUNNING, and with SUPPLY-LOW clear on both channels (R59). -/
def judgePersist (s : State) : State :=
  if s.seq.state = .running ∧ anyLow s = true then s else clearPersist s

/-- PEER's record, SHR's runs, SDU's flow and the flags that follow from the state as it stands. -/
def carry (s : State) : State := markFlags (recomputeFlow (rebuildRecord s))

/-- A change carried through until it has come to rest: the record and the grants are brought up to date, SEQ takes SDU's
reports, and, since a report can change the record again, once more; then the pumps take their rates. -/
def settle (s : State) : State :=
  if s.started then judgePersist (setPumps (carry (takeReports (carry (takeReports (carry s)))))) else s

end Sys2Proof.Machine
end

