-- ==== Sys2Proof/Machine/Interlock.lean ====
section
/-! DEFINITION. ILK (sections 9.1 to 9.3): the interlock lines and their events, the received STOP, the tool mode. -/

namespace Sys2Proof.Machine

open Sys2Proof

/-- One interlock line's state. -/
def State.line (s : State) (l : Line) : LineState := s.ilk.lines.get l

/-- The state with one line's state replaced. -/
def State.setLine (s : State) (l : Line) (x : LineState) : State := s.setIlk { s.ilk with lines := s.ilk.lines.set l x }

/-- The raw level of a line against its polarity: true for active (R164). -/
def rawActive (s : State) (l : Line) : Bool := s.pins.lines.get l == (s.img.lines.get l).activeHigh

/-- A debounced level equals a raw level; UNKNOWN equals neither (R164). -/
def levelIs (x : Level) (active : Bool) : Bool :=
  match x with
  | .active => active
  | .inactive => !active
  | .unknown => false

/-- The raw level differs from the debounced level, so that the debounce timer runs (R164). -/
def debouncing (s : State) (l : Line) : Bool := !levelIs (s.line l).level (rawActive s l)

/-- A new raw level of a line: back at the debounced level it sets the timer to 0 (R164). -/
def setRaw (l : Line) (high : Bool) (s : State) : State :=
  let s := s.setPins { s.pins with lines := s.pins.lines.set l high }
  if debouncing s l then s else s.setLine l { s.line l with timer := 0 }

/-- The debounce timer of a line has reached its debounce time; the debouncers run from the end of LOADING (R164). -/
def debounceDue (l : Line) (s : State) : Bool :=
  s.started && debouncing s l && ms (s.img.lines.get l).debounce ≤ (s.line l).timer

/-- The debounced level taking a raw level. -/
def levelOf (active : Bool) : Level := if active then .active else .inactive

/-- Whether a change of the debounced level to `active` is an event of the line's type; IL1 has none (R163, R165). -/
def isEvent (l : Line) (t : LineType) (x : LineState) (active : Bool) : Bool :=
  l != .il1 && active &&
  match t with
  | .edge => x.level == .inactive
  | .level => x.armed

/-- The line's state after its debounced level takes a raw level, with its sticky flag set at an event (R164 to R166). A LEVEL
line's armed mark clears at its event and is set when the level becomes INACTIVE. -/
def LineState.takeLevel (x : LineState) (l : Line) (t : LineType) (active : Bool) : LineState :=
  { level := levelOf active, timer := 0
    armed := match t with
      | .edge => x.armed
      | .level => if isEvent l t x active then false else x.armed || !active
    sticky := x.sticky || isEvent l t x active }

/-- What an event does beyond its flag and notice (Table 9-2, R167). -/
def route (r : Routing) (l : Line) (s : State) : State :=
  match r with
  | .note => s
  | .hold => holdFor .interlock s
  | .abort => takeFault .interlock s
  | .linkStop => placeStopFrame (numLine l) (takeFault .interlock s)

/-- An interlock event after its flag is set: the notice with the line, its routing and the sequencer state, then the routing
(R166). -/
def lineEvent (r : Routing) (l : Line) (s : State) : State :=
  route r l (placeNotice 18 [byteOf (numLine l), byteOf (numRouting r), byteOf (numState s.seq.state)] s)

/-- The debounced level of a line takes the raw level (R164 to R166). -/
def takeLine (l : Line) (s : State) : State :=
  let t := (s.img.lines.get l).type
  let active := rawActive s l
  let event := isEvent l t (s.line l) active
  let s := s.setLine l ((s.line l).takeLevel l t active)
  match routingOf s.img l with
  | none => s
  | some r => if event then lineEvent r l s else s

/-- A received STOP with the configured reaction (R169). -/
def takeStop (s : State) : State :=
  match s.img.stopReaction with
  | .hold => holdFor .stop s
  | .abort => abortRun .stopped s

/-! ### Tool mode (R170, R171) -/

/-- The tool mode of a combination (Table 9-3). -/
def modeOf (pair : Bool × Bool) : ToolMode :=
  match pair with
  | (true, true) => .run
  | (false, true) => .service
  | (false, false) => .lockout
  | (true, false) => .lockout

/-- The illegal combination (Table 9-3). -/
def illegalPair (pair : Bool × Bool) : Bool := pair == (true, false)

/-- The pair's raw combination. -/
def rawPair (s : State) : Bool × Bool := (s.pins.modeFirst, s.pins.modeSecond)

/-- A new raw combination restarts the 20 ms; a pair that is the same as before does not (R170). -/
def setModeLines (first second : Bool) (s : State) : State :=
  let changed := rawPair s != (first, second)
  let s := s.setPins { s.pins with modeFirst := first, modeSecond := second }
  if changed then s.setIlk { s.ilk with modeTimer := 0 } else s

/-- The pair has stood 20 ms and is not the decoded combination. It is decoded from the reset on, but not in CONFIG_FAULT nor
while the part is held in reset (R170, R176, R199). -/
def modeDue (s : State) : Bool :=
  !s.inReset && s.cfg.startUp != .configFault && s.ilk.decoded != some (rawPair s) && modeTime ≤ s.ilk.modeTimer

/-- SEQ's part of a change of tool mode (R171). PEER's follows in `settle`. -/
def modeChanged (m : ToolMode) (s : State) : State :=
  match m with
  | .run => s
  | .service => holdFor .mode s
  | .lockout => abortRun .lockedOut s

/-- The pair is decoded: MODE_ILLEGAL, MODE_CHANGED where the mode changes, and SEQ acts on the new mode (R170, R171). MODE_CHANGED goes
before the sequencer's notices of the same change: DESIGN CHOICE, log entry 41. -/
def decodeMode (s : State) : State :=
  let pair := rawPair s
  let old := s.ilk.mode
  let new := modeOf pair
  let s := s.setIlk { s.ilk with
    mode := new, decoded := some pair, modeIllegal := s.ilk.modeIllegal || illegalPair pair }
  if new = old then s else modeChanged new (placeNotice 19 [byteOf (numMode new), yesNo (illegalPair pair)] s)

/-! ### Clearing (R168, R170) -/

/-- CLEAR_EVENTS on a line's flag: a LEVEL line that is ACTIVE keeps it (R168). -/
def clearLine (l : Line) (s : State) : State :=
  if (s.img.lines.get l).type == .level && lineActive s l then s else s.setLine l { s.line l with sticky := false }

/-- CLEAR_EVENTS on MODE_ILLEGAL: kept while the decoded combination is the illegal one (R170). -/
def clearModeIllegal (s : State) : State :=
  if s.ilk.decoded = some (true, false) then s else s.setIlk { s.ilk with modeIllegal := false }

end Sys2Proof.Machine
end

