-- ==== Sys2Proof/Machine/Store.lean ====
section
/-! DEFINITION. RCP, the recipe store (Chapter 5): slots and profiles, the six timed operations and what their completion
changes, and the repair of an operation that a reset cut. -/

namespace Sys2Proof.Machine

open Sys2Proof

/-- Slot `n`, 1 to 16. -/
def State.slot (s : State) (n : Nat) : Slot := s.rcp.slots.getD (n - 1) .erased

/-- Profile `n`, 0 to 3. -/
def State.profile (s : State) (n : Nat) : Profile := s.rcp.profiles.getD n .erased

/-- The store with slot `n` replaced. -/
def Rcp.setSlot (r : Rcp) (n : Nat) (x : Slot) : Rcp := { r with slots := r.slots.set (n - 1) x }

/-- The store with profile `n` replaced. -/
def Rcp.setProfile (r : Rcp) (n : Nat) (x : Profile) : Rcp := { r with profiles := r.profiles.set n x }

/-- Slot `n` of a store. -/
def Rcp.slot (r : Rcp) (n : Nat) : Slot := r.slots.getD (n - 1) .erased

/-- Profile `n` of a store. -/
def Rcp.profile (r : Rcp) (n : Nat) : Profile := r.profiles.getD n .erased

/-- A store operation is in flight (R93). -/
def State.storeBusy (s : State) : Bool := s.rcp.op.isSome

/-! ### What a completed write leaves (R102 to R105, R109) -/

/-- An ERASED slot becomes OPEN at its first write (Table 5-2). -/
def opensSlot (x : SlotState) : SlotState := if x = .erased then .opened else x

/-- Header part 0 to 3 stored and marked (R102). -/
def Slot.putHeader (sl : Slot) (part : Nat) (contents : List Byte) : Slot :=
  if part = 0 then { sl with state := opensSlot sl.state, part0 := contents, markPart0 := true }
  else { sl with
    state := opensSlot sl.state, sigs := sl.sigs.set (part - 1) contents, markSigs := sl.markSigs.set (part - 1) true }

/-- Step `i` (from 1) stored and marked (R103). -/
def Slot.putStep (sl : Slot) (i : Nat) (contents : List Byte) : Slot :=
  { sl with
    state := opensSlot sl.state, steps := sl.steps.set (i - 1) contents, markSteps := sl.markSteps.set (i - 1) true }

/-- The slot closed over `n` steps: step count and sum set (R104). -/
def Slot.close (sl : Slot) (n : Nat) : Slot := { sl with state := .closed, stepCount := n, sum := sl.sumOf n }

/-! ### Durations (Table 5-6, R106) -/

/-- The time of the end of an ERASE_STORE target's erasure from acceptance: four profiles of 4 ms, then slots of 24 ms (R106). -/
def eraseTargetTime (done : Nat) : Nat := if done < 4 then ms (4 * (done + 1)) else ms (16 + 24 * (done - 3))

/-- The number of targets of an ERASE_STORE: 4 profiles and 16 slots. -/
def eraseTargets : Nat := 20

/-- The duration of an operation (Table 5-6). -/
def StoreOp.duration (o : StoreOp) : Nat :=
  match o with
  | .writeHeader _ _ _ => ms 2
  | .writeStep _ _ _ => ms 2
  | .closeRecipe _ _ => ms 4
  | .eraseRecipe _ => ms 30
  | .eraseStore _ => ms 400
  | .writeProfile _ _ => ms 2

/-- An accepted operation: in flight from now, its target marked in progress (R101). -/
def startOp (o : StoreOp) (s : State) : State := s.setRcp { s.rcp with inProgress := some o, op := some (o, s.now) }

/-- An ERASE_STORE has a target whose erasure has ended (R106). -/
def eraseTargetDue (s : State) : Bool :=
  match s.rcp.op with
  | some (.eraseStore done, t) => done < eraseTargets && t + eraseTargetTime done ≤ s.now
  | _ => false

/-- The store with target `done` of an ERASE_STORE erased (R106). -/
def Rcp.eraseTarget (r : Rcp) (done : Nat) : Rcp :=
  if done < 4 then r.setProfile done .erased else r.setSlot (done - 3) .erased

/-- One target of an ERASE_STORE takes its erased state (R106). -/
def eraseTarget (s : State) : State :=
  match s.rcp.op with
  | some (.eraseStore done, t) =>
    s.setRcp { s.rcp.eraseTarget done with
      inProgress := some (.eraseStore (done + 1)), op := some (.eraseStore (done + 1), t) }
  | _ => s

/-- A store operation has reached its time of completion; an ERASE_STORE has then erased all its targets (R101, R106). -/
def opDue (s : State) : Bool :=
  match s.rcp.op with
  | some (.eraseStore done, t) => eraseTargets ≤ done && t + (StoreOp.eraseStore done).duration ≤ s.now
  | some (o, t) => t + o.duration ≤ s.now
  | none => false

/-- The store with an operation's changes made (R101 to R109). -/
def Rcp.apply (r : Rcp) (o : StoreOp) : Rcp :=
  match o with
  | .writeHeader n part contents => r.setSlot n ((r.slot n).putHeader part contents)
  | .writeStep n i contents => r.setSlot n ((r.slot n).putStep i contents)
  | .closeRecipe n count => r.setSlot n ((r.slot n).close count)
  | .eraseRecipe n => r.setSlot n .erased
  | .eraseStore _ => { r with lock := false }
  | .writeProfile n segments => r.setProfile n { state := .written, segments := segments }

/-- The body of STORE_DONE: the order's kind, the slot or profile number, the header part or step index where the order has one
(R101). The kind is the order byte of Table 10-3. -/
def StoreOp.body (o : StoreOp) : List Byte :=
  match o with
  | .writeHeader n part _ => [8, byteOf n, byteOf part]
  | .writeStep n i _ => [9, byteOf n, byteOf i]
  | .closeRecipe n _ => [10, byteOf n]
  | .eraseRecipe n => [11, byteOf n]
  | .eraseStore _ => [13]
  | .writeProfile n _ => [16, byteOf n]

/-- The completion of an operation: its changes, no mark and no operation left, STORE_DONE (R101). -/
def completeOp (s : State) : State :=
  match s.rcp.op with
  | some (o, _) => placeNotice 10 o.body (s.setRcp { s.rcp.apply o with inProgress := none, op := none })
  | none => s

/-! ### An operation cut by a reset (R94, R112) -/

/-- A part of `n` bytes that was being written when the reset came: its bytes are free values (log entry 4). -/
def cutBytes (k n : Nat) : List Byte := (List.range n).map (Config.cutByte k)

/-- The slot that a WRITE_HEADER was writing. -/
def Slot.cutHeader (sl : Slot) (k part : Nat) : Slot :=
  if part = 0 then { sl with state := .corrupt, part0 := cutBytes k 16, markPart0 := Config.cutMark k 0 }
  else { sl with
    state := .corrupt, sigs := sl.sigs.set (part - 1) (cutBytes k 25)
    markSigs := sl.markSigs.set (part - 1) (Config.cutMark k part) }

/-- The slot that a WRITE_STEP was writing. -/
def Slot.cutStep (sl : Slot) (k i : Nat) : Slot :=
  { sl with
    state := .corrupt, steps := sl.steps.set (i - 1) (cutBytes k 32)
    markSteps := sl.markSteps.set (i - 1) (Config.cutMark k (3 + i)) }

/-- The slot that a CLOSE_RECIPE was closing: its step count and stored sum may be partly written. -/
def Slot.cutClose (sl : Slot) (k : Nat) : Slot :=
  { sl with
    state := .corrupt, stepCount := (Config.cutByte k 0).toNat
    sum := (Config.cutByte k 1).toNat + 256 * (Config.cutByte k 2).toNat }

/-- A slot whose erasure was under way: every byte and every mark may be partly erased. -/
def Slot.cutErase (k : Nat) : Slot :=
  { state := .corrupt
    part0 := cutBytes k 16
    stepCount := (Config.cutByte k 16).toNat
    sum := (Config.cutByte k 17).toNat + 256 * (Config.cutByte k 18).toNat
    sigs := ⟨(List.range 25).map (fun j => Config.cutByte k (100 + j)),
      (List.range 25).map (fun j => Config.cutByte k (125 + j)), (List.range 25).map (fun j => Config.cutByte k (150 + j))⟩
    steps := (List.range 24).map (fun i => (List.range 32).map (fun j => Config.cutByte k (200 + 32 * i + j)))
    markPart0 := Config.cutMark k 0
    markSigs := ⟨Config.cutMark k 1, Config.cutMark k 2, Config.cutMark k 3⟩
    markSteps := (List.range 24).map (fun i => Config.cutMark k (4 + i)) }

/-- A profile marked CORRUPT; its segments are read by nothing from then on (R99, R112). -/
def Profile.corrupted : Profile := { state := .corrupt, segments := [] }

/-- Profiles from `done` on CORRUPT (R112). -/
def corruptProfiles (l : List Profile) (done : Nat) : List Profile :=
  l.take done ++ (l.drop done).map (fun _ => Profile.corrupted)

/-- Slots after an ERASE_STORE cut with `erased` slots done: the next was being erased (where `under` says so), those after it keep
their contents, and all of them are CORRUPT (R112). -/
def corruptSlots (l : List Slot) (erased : Nat) (under : Bool) (k : Nat) : List Slot :=
  l.take erased ++
  match l.drop erased with
  | [] => []
  | x :: rest =>
    (if under then Slot.cutErase k else { x with state := .corrupt }) ::
      rest.map (fun y => { y with state := .corrupt })

/-- The store once RCP has found the in-progress mark that a reset left (R112). `k` numbers the free values. -/
def Rcp.scan (r : Rcp) (k : Nat) : Rcp :=
  match r.inProgress with
  | none => r
  | some (.writeHeader n part _) => { r.setSlot n ((r.slot n).cutHeader k part) with inProgress := none }
  | some (.writeStep n i _) => { r.setSlot n ((r.slot n).cutStep k i) with inProgress := none }
  | some (.closeRecipe n _) => { r.setSlot n ((r.slot n).cutClose k) with inProgress := none }
  | some (.eraseRecipe n) => { r.setSlot n (Slot.cutErase k) with inProgress := none }
  | some (.writeProfile n _) => { r.setProfile n .corrupted with inProgress := none }
  | some (.eraseStore done) =>
    { r with
      profiles := corruptProfiles r.profiles done
      slots := corruptSlots r.slots (done - 4) (4 ≤ done) k
      inProgress := none }

/-- Before READY RCP examines the store (R93, R112). -/
def scanStore (s : State) : State :=
  if s.rcp.inProgress.isSome then (s.setRcp (s.rcp.scan s.freeCount)).setFreeCount (s.freeCount + 1) else s

/-! ### The accumulation timer (R110) -/

/-- The accumulation timer has reached 60 s (R110). -/
def accumulationDue (s : State) : Bool := accumulationTime ≤ s.rcp.accumulation

end Sys2Proof.Machine
end

