-- ==== Sys2Proof/Machine/StartUp.lean ====
section
/-! DEFINITION. CFG's start-up and resets (sections 11.2 and 11.3), and LNK's silence in CONFIG_FAULT and DUPLICATE_NODE (R180). -/

namespace Sys2Proof.Machine

open Sys2Proof

/-! ### Resets (R199) -/

/-- RCP after a reset: the non-volatile contents and the in-progress mark stand; no operation is in flight (R93, R112). -/
def Rcp.afterReset (r : Rcp) : Rcp := { r with op := none, accumulation := 0 }

/-- A reset: every block takes its after-reset state, the store's contents stand, and the cause is recorded; `held` says that the
part stays held in reset (R199). The pins, another node's carrier and the model's clock are not the part's to reset. -/
def doReset (cause : ResetCause) (held : Bool) (s : State) : State :=
  { cfg := .reset cause held
    peer := .reset
    shr := .all .reset
    sdu := .reset
    seq := .reset
    rcp := s.rcp.afterReset
    hpc := .reset (s.hpc.ch.map HeadChan.measured)
    pcc := .reset s.rcp.diskStored s.rcp.padStored
    epm := .reset
    ilk := .reset
    drv := .reset
    lnk := .reset s.lnk.carrier
    pins := s.pins
    now := s.now
    freeCount := s.freeCount
    pending := s.pending }

/-- The release of the reset line: a part held in reset starts at SETTLE with the cause it recorded; the row taken alone is a whole
reset of the line (R199). While the supply is low the part is in its reset already, and its cause stands. -/
def releaseReset (s : State) : State :=
  if s.cfg.held then s.setCfg { s.cfg with held := false }
  else if s.pins.supplyLow then s
  else doReset .resetLine false s

/-- The reset line becomes active: a reset with cause RESET_LINE that holds the part; a line already active gives no new reset, and one
that becomes active while the supply is low belongs to that power-on (R199). -/
def activateReset (s : State) : State :=
  if s.cfg.held then s
  else if s.pins.supplyLow then s.setCfg { s.cfg with held := true }
  else doReset .resetLine true s

/-! ### Silence (R180) -/

/-- LNK empties every queue and slot and ends any frame it is driving (R180). -/
def silenceLnk (l : Lnk) : Lnk :=
  { l with
    stopSlot := none, answers := [], demandSlot := none, notices := [], sending := none
    quiet := if l.sending.isSome then 0 else l.quiet }

/-! ### LOADING (R194, R195) -/

/-- The 128 bytes of a memory that answers and whose load is good. -/
def goodImage (s : State) : Option (List Byte) :=
  match s.pins.configMemory with
  | none => none
  | some b => if loadGood b then some b else none

/-- The refresh timer starts (R4, R196). -/
def startRefresh (s : State) : State := s.setPeer { s.peer with refresh := some 0 }

/-- The calibrated stroke volumes take the nominal ones (R54, R61). -/
def calibrate (s : State) : State :=
  s.setSdu { s.sdu with ch := .of (fun c => { s.chan c with calibrated := s.img.strokeVolume.get c }) }

/-- A valve path watched continuously from here against its command (R40, R61). -/
def Valve.watch (v : Valve) : Valve := { v with sinceCommand := feedbackTime, disagree := 0 }

/-- The feedback checks of R40 begin (R61). -/
def startValveChecks (s : State) : State :=
  s.setSdu { s.sdu with
    ch := s.sdu.ch.map (fun d => { d with valves := d.valves.map Valve.watch }), di := s.sdu.di.watch }

/-- The line debouncers start: timers 0, the armed marks of LEVEL lines set (R164, R165). -/
def startDebouncers (s : State) : State :=
  s.setIlk { s.ilk with
    lines := .of (fun l => { s.line l with timer := 0, armed := (s.img.lines.get l).type == .level }) }

/-- A good load: the image in force, LISTEN, and what begins with it (R195). A trip input found active counts as becoming
active (R176). -/
def loadImage (b : List Byte) (s : State) : State :=
  let s := s.setCfg { s.cfg with
    startUp := .listen, image := some (readImage b), imageSum := storedSum b, clampCount := clampCountOf b,
    listenTicks := 0 }
  let s := scanStore (matchWarned (startDebouncers (startValveChecks (calibrate (startRefresh s)))))
  reportTrips (beginSearch s)

/-- A failed load: the retry count rises, and at 3 the station enters CONFIG_FAULT (R195). There the tool mode is LOCKOUT (R176,
log entry 10). -/
def failLoad (s : State) : State :=
  if s.cfg.retry + 1 < 3 then
    s.setCfg { s.cfg with startUp := .settle, image := none, retry := s.cfg.retry + 1, clampCount := 0, settleTimer := 0 }
  else
    let s := s.setCfg { s.cfg with startUp := .configFault, image := none, retry := 3, clampCount := 0 }
    (s.setIlk { s.ilk with mode := .lockout }).setLnk (silenceLnk s.lnk)

/-- The 50 ms of SETTLE have ended (R195). -/
def settleDue (s : State) : Bool := !s.inReset && s.cfg.startUp == .settle && settleTime ≤ s.cfg.settleTimer

/-- The end of SETTLE: LOADING, which takes no time (R195). -/
def endSettle (s : State) : State :=
  match goodImage s with
  | some b => loadImage b s
  | none => failLoad s

/-! ### LISTEN and READY (R196) -/

/-- The second refresh tick of LISTEN has been (R195, R196). -/
def listenDue (s : State) : Bool := s.cfg.startUp == .listen && 2 ≤ s.cfg.listenTicks

/-- The STARTED notice: reset cause, clamp count, image sum (R196). -/
def noticeStarted (s : State) : State :=
  placeNotice 1 ([byteOf (numReset s.cfg.cause), byteOf s.cfg.clampCount] ++ le2 s.cfg.imageSum) s

/-- Entry to READY: the first DEMAND, then STARTED (R196). -/
def enterReady (s : State) : State := noticeStarted (placeDemand (s.setCfg { s.cfg with startUp := .ready }))

/-! ### Refresh ticks (R4) -/

/-- The refresh timer has run its period (R4). -/
def refreshDue (s : State) : Bool :=
  match s.peer.refresh with
  | none => false
  | some t => s.period ≤ t

/-- A refresh tick counted in LISTEN (R195). -/
def countListen (s : State) : State :=
  if s.cfg.startUp = .listen then s.setCfg { s.cfg with listenTicks := min 2 (s.cfg.listenTicks + 1) } else s

/-! ### A duplicate node number (R182, R197) -/

/-- A duplicate is found: DUPLICATE_NODE, silence, the FAULT line held by LNK, and the fault reported. A restart that was pending takes
place at once, since its ANSWER is discarded (R182, R202). -/
def findDuplicate (s : State) : State :=
  if s.cfg.restartPending then doReset .restartOrder false s
  else
    let s := s.setCfg { s.cfg with startUp := .duplicateNode }
    takeFault .duplicateNode (s.setLnk { silenceLnk s.lnk with dupFound := true })

end Sys2Proof.Machine
end

