-- ==== Sys2Proof/Machine/Orders.lean ====
section
/-! DEFINITION. The orders (Table 10-3): reading one from a payload (R184), what each owner checks and does (R63, R100, R142, R200 to
R202), and the answers (R185, R191, R192). -/

namespace Sys2Proof.Machine

open Sys2Proof

/-- An order with its parameters as they stand in the payload. -/
inductive Order where
  | load (slot : Byte)
  | unload
  | start
  | hold
  | resume
  | abort
  | clearFault
  | readResult (position : Byte)
  | writeHeader (slot part : Byte) (contents : List Byte)
  | writeStep (slot index : Byte) (contents : List Byte)
  | closeRecipe (slot : Byte)
  | eraseRecipe (slot : Byte)
  | sumRecipe (slot : Byte)
  | eraseStore
  | lockStore
  | readRecipe (slot kind part : Byte)
  | writeProfile (profile count : Byte) (contents : List Byte)
  | diskReplaced
  | padReplaced
  | queryStatus (page : Byte)
  | clearEvents (mask : BitVec 16)
  | restart
  deriving DecidableEq, Repr

/-- Answer codes (Table 10-4). -/
inductive Code where
  | ok | accepted | state | busy | range | written | empty | gap | corrupt | locked | worn | mode | unknown
  deriving DecidableEq, Repr

/-- The value of an answer code (Table 10-4). -/
def numCode (c : Code) : Nat :=
  match c with
  | .ok => 0
  | .accepted => 1
  | .state => 2
  | .busy => 3
  | .range => 4
  | .written => 5
  | .empty => 6
  | .gap => 7
  | .corrupt => 8
  | .locked => 9
  | .worn => 10
  | .mode => 11
  | .unknown => 12

/-- What an owner answers: the state it leaves, the code and the answer data. -/
structure Reply where
  st : State
  code : Code
  data : List Byte
  deriving DecidableEq, Repr

/-- A reply without data. -/
def Reply.bare (s : State) (c : Code) : Reply := ⟨s, c, []⟩

/-! ### Reading an order (R184, Table 10-3) -/

/-- What LNK reads from an ORDER payload. -/
inductive Parsed where
  | unknown
  | badLength
  | order (o : Order)
  deriving DecidableEq, Repr

/-- An order whose parameters must be `n` bytes long. -/
def needs (n : Nat) (p : List Byte) (o : Order) : Parsed := if p.length = n then .order o else .badLength

/-- Parameter byte `i`. -/
def par (p : List Byte) (i : Nat) : Byte := p.getD i 0

/-- The length of WRITE_HEADER's contents by its part (Table 10-3); a part above 3 is checked as a signature part. -/
def headerLength (part : Byte) : Nat := if part = 0 then 16 else 25

/-- The order of an order byte with the parameters `p` after it. -/
def parseBody (code : Nat) (p : List Byte) : Parsed :=
  match code with
  | 0 => needs 1 p (.load (par p 0))
  | 1 => needs 0 p .unload
  | 2 => needs 0 p .start
  | 3 => needs 0 p .hold
  | 4 => needs 0 p .resume
  | 5 => needs 0 p .abort
  | 6 => needs 0 p .clearFault
  | 7 => needs 1 p (.readResult (par p 0))
  | 8 => needs (2 + headerLength (par p 1)) p (.writeHeader (par p 0) (par p 1) (p.drop 2))
  | 9 => needs 34 p (.writeStep (par p 0) (par p 1) (p.drop 2))
  | 10 => needs 1 p (.closeRecipe (par p 0))
  | 11 => needs 1 p (.eraseRecipe (par p 0))
  | 12 => needs 1 p (.sumRecipe (par p 0))
  | 13 => needs 0 p .eraseStore
  | 14 => needs 0 p .lockStore
  | 15 => needs 3 p (.readRecipe (par p 0) (par p 1) (par p 2))
  | 16 => needs (2 + 3 * (par p 1).toNat) p (.writeProfile (par p 0) (par p 1) (p.drop 2))
  | 17 => needs 0 p .diskReplaced
  | 18 => needs 0 p .padReplaced
  | 19 => needs 1 p (.queryStatus (par p 0))
  | 20 => needs 2 p (.clearEvents (BitVec.ofNat 16 (rd2 p 0)))
  | 21 => needs 0 p .restart
  | _ => .unknown

/-- The order of a payload (R184). -/
def parseOrder (payload : List Byte) : Parsed :=
  match payload with
  | [] => .unknown
  | c :: p => parseBody c.toNat p

/-! ### The orders of SEQ (R63 to R66, R77, R81, R84, R88, R90) -/

/-- A slot number is 1 to 16. -/
def slotOk (slot : Byte) : Bool := 1 ≤ slot.toNat && slot.toNat ≤ 16

/-- The states LOAD is taken in (Table 4-2). -/
def SeqState.loads (x : SeqState) : Bool := x == .empty || x == .loaded || x == .done

/-- SEQ takes the working copy of a slot and enters LOADED (R64). -/
def takeCopy (sl : Slot) (s : State) : State :=
  enterRest .loaded
    (s.setSeq { s.seq with copy := some sl.recipe, record := [], result := .none, index := 0 })

/-- LOAD n (R64). A slot that LOAD marks CORRUPT keeps its step count and its stored sum with the rest of its header: DEDUCED, log entry
39. -/
def orderLoad (slot : Byte) (s : State) : Reply :=
  if s.ilk.mode = .lockout then .bare s .mode
  else if !s.seq.state.loads then .bare s .state
  else if !slotOk slot then .bare s .range
  else if s.storeBusy then .bare s .busy
  else
    let sl := s.slot slot.toNat
    match sl.state with
    | .erased | .opened => .bare s .empty
    | .corrupt => .bare s .corrupt
    | .closed =>
      if sl.sumOf sl.stepCount = sl.sum then .bare (settle (takeCopy sl s)) .ok
      else .bare (s.setRcp (s.rcp.setSlot slot.toNat { sl with state := .corrupt })) .corrupt

/-- UNLOAD (R65). -/
def orderUnload (s : State) : Reply :=
  if s.ilk.mode = .lockout then .bare s .mode
  else if s.seq.state = .loaded ∨ s.seq.state = .done then
    .bare (settle (enterRest .empty (s.setSeq { s.seq with copy := none, index := 0 }))) .ok
  else .bare s .state

/-- Either life counter is worn (R66, R141). -/
def anyWorn (s : State) : Bool := worn s.pcc.diskLife s.img.diskLimit || worn s.pcc.padLife s.img.padLimit

/-- START (R66). -/
def orderStart (s : State) : Reply :=
  if s.ilk.mode = .lockout then .bare s .mode
  else if !((s.seq.state == .loaded || s.seq.state == .done) && s.seq.copy.isSome) then .bare s .state
  else if s.ilk.mode ≠ .run then .bare s .mode
  else if anyWorn s then .bare s .worn
  else .bare (settle (enterWaiting 1 true (s.setSeq { s.seq with record := [], result := .none }))) .ok

/-- HOLD: added in WAITING and RUNNING, deferred in ENDING (R78, R82). -/
def orderHold (s : State) : Reply :=
  if s.ilk.mode = .lockout then .bare s .mode
  else if s.seq.state = .waiting ∨ s.seq.state = .running ∨ s.seq.state = .ending then
    .bare (settle (holdFor .ordered s)) .ok
  else .bare s .state

/-- A reply to RESUME, which always carries the cause set (R81, R185). -/
def resumeReply (s : State) (c : Code) : Reply := ⟨s, c, [byteOf (bitSet s.seq.causes.bits)]⟩

/-- RESUME (R81). -/
def orderResume (s : State) : Reply :=
  if s.ilk.mode = .lockout then resumeReply s .mode
  else if s.seq.state = .holding then resumeReply (settle (resumeHold s)) .ok
  else resumeReply s .state

/-- ABORT: a run in progress aborts; in ABORTING it has no effect (R84). -/
def orderAbort (s : State) : Reply :=
  if s.ilk.mode = .lockout then .bare s .mode
  else if s.seq.state.inRun then .bare (settle (abortRun .aborted s)) .ok
  else if s.seq.state = .aborting then .bare s .ok
  else .bare s .state

/-- The fault record holds DUPLICATE_NODE, as first or later fault (R88). -/
def duplicateHeld (s : State) : Bool := s.seq.first == some .duplicateNode || s.seq.later.duplicateNode

/-- CLEAR_FAULT (R88, R126). -/
def orderClearFault (s : State) : Reply :=
  if s.ilk.mode = .lockout then .bare s .mode
  else if s.seq.state ≠ .faulted then .bare s .state
  else if duplicateHeld s || faultLineActive s then .bare s .state
  else
    .bare (settle (enterRest .done (clearChannelFaults
      (s.setSeq { s.seq with first := none, later := .empty })))) .ok

/-- READ_RESULT: the run result, the number of entries, the first position as taken, and up to four entries (R90, R191). -/
def orderReadResult (position : Byte) (s : State) : Reply :=
  let first := max 1 position.toNat
  ⟨s, .ok, [byteOf (numRun s.seq.result), byteOf s.seq.record.length, byteOf first] ++
    ((s.seq.record.drop (first - 1)).take 4).flatMap RunEntry.bytes⟩

/-! ### The orders of RCP (R100 to R109) -/

/-- A timed operation accepted (R101). -/
def accept (o : StoreOp) (s : State) : Reply := .bare (startOp o s) .accepted

/-- WRITE_HEADER (R95, R96, R100, R102). -/
def orderWriteHeader (slot part : Byte) (contents : List Byte) (s : State) : Reply :=
  if s.ilk.mode = .lockout then .bare s .mode
  else if s.storeBusy then .bare s .busy
  else if !slotOk slot || 3 < part.toNat then .bare s .range
  else if s.rcp.lock then .bare s .locked
  else
    let sl := s.slot slot.toNat
    let marked := if part = 0 then sl.markPart0 else sl.markSigs.get (part.toNat - 1)
    if sl.state = .corrupt then .bare s .corrupt
    else if sl.state = .closed ∨ marked = true then .bare s .written
    else if !(if part = 0 then part0Ok contents else sigOk contents) then .bare s .range
    else accept (.writeHeader slot.toNat part.toNat contents) s

/-- WRITE_STEP (R97, R98, R100, R103, R190). -/
def orderWriteStep (slot index : Byte) (contents : List Byte) (s : State) : Reply :=
  if s.ilk.mode = .lockout then .bare s .mode
  else if s.storeBusy then .bare s .busy
  else if !slotOk slot || !(1 ≤ index.toNat && index.toNat ≤ 24) then .bare s .range
  else if s.rcp.lock then .bare s .locked
  else
    let sl := s.slot slot.toNat
    if sl.state = .corrupt then .bare s .corrupt
    else if sl.state = .closed ∨ sl.markStep index.toNat = true then .bare s .written
    else if !stepOk contents then .bare s .range
    else accept (.writeStep slot.toNat index.toNat contents) s

/-- CLOSE_RECIPE (R100, R104). -/
def orderCloseRecipe (slot : Byte) (s : State) : Reply :=
  if s.ilk.mode = .lockout then .bare s .mode
  else if s.storeBusy then .bare s .busy
  else if !slotOk slot then .bare s .range
  else if s.rcp.lock then .bare s .locked
  else
    let sl := s.slot slot.toNat
    if sl.state = .corrupt then .bare s .corrupt
    else if sl.state = .closed then .bare s .written
    else if !sl.markPart0 || sl.highestStep = 0 then .bare s .empty
    else if !sl.stepsWritten sl.highestStep then .bare s .gap
    else accept (.closeRecipe slot.toNat sl.highestStep) s

/-- ERASE_RECIPE (R100, R105). -/
def orderEraseRecipe (slot : Byte) (s : State) : Reply :=
  if s.ilk.mode = .lockout then .bare s .mode
  else if s.storeBusy then .bare s .busy
  else if !slotOk slot then .bare s .range
  else if s.rcp.lock then .bare s .locked
  else accept (.eraseRecipe slot.toNat) s

/-- ERASE_STORE, which the lock does not refuse (R100, R106). -/
def orderEraseStore (s : State) : Reply :=
  if s.ilk.mode = .lockout then .bare s .mode
  else if s.storeBusy then .bare s .busy
  else accept (.eraseStore 0) s

/-- LOCK_STORE (R107). -/
def orderLockStore (s : State) : Reply :=
  if s.ilk.mode = .lockout then .bare s .mode
  else if s.storeBusy then .bare s .busy
  else .bare (s.setRcp { s.rcp with lock := true }) .ok

/-- The answer of a READ_RECIPE for a part: EMPTY with the slot state where its mark is clear; else the slot state, the mark and the
contents (R108, R185). -/
def readReply (sl : Slot) (marked : Bool) (contents : List Byte) (s : State) : Reply :=
  if marked then ⟨s, .ok, [byteOf (numSlot sl.state), yesNo true] ++ contents⟩
  else ⟨s, .empty, [byteOf (numSlot sl.state)]⟩

/-- READ_RECIPE, served in every tool mode (R100, R108, R185). -/
def orderReadRecipe (slot kind part : Byte) (s : State) : Reply :=
  if s.storeBusy then .bare s .busy
  else if !slotOk slot then .bare s .range
  else
    let sl := s.slot slot.toNat
    if kind = 0 then
      if part = 0 then readReply sl sl.markPart0 ((sl.header sl.stepCount).take 17 ++ le2 sl.sum) s
      else if part.toNat ≤ 3 then readReply sl (sl.markSigs.get (part.toNat - 1)) (sl.sigs.get (part.toNat - 1)) s
      else .bare s .range
    else if kind = 1 then
      if 1 ≤ part.toNat ∧ part.toNat ≤ 24 then readReply sl (sl.markStep part.toNat) (sl.step part.toNat) s
      else .bare s .range
    else .bare s .range

/-- SUM_RECIPE: computed sum, stored sum, whether they agree; served in every tool mode (R100, R108). Two bytes a sum: DEDUCED, log
entry 15. -/
def orderSumRecipe (slot : Byte) (s : State) : Reply :=
  if s.storeBusy then .bare s .busy
  else if !slotOk slot then .bare s .range
  else
    let sl := s.slot slot.toNat
    match sl.state with
    | .erased | .opened => .bare s .empty
    | .corrupt => .bare s .corrupt
    | .closed =>
      ⟨s, .ok, le2 (sl.sumOf sl.stepCount) ++ le2 sl.sum ++ [yesNo (sl.sumOf sl.stepCount == sl.sum)]⟩

/-- WRITE_PROFILE (R99, R100, R109). -/
def orderWriteProfile (profile count : Byte) (contents : List Byte) (s : State) : Reply :=
  if s.ilk.mode = .lockout then .bare s .mode
  else if s.storeBusy then .bare s .busy
  else if 3 < profile.toNat then .bare s .range
  else if s.rcp.lock then .bare s .locked
  else
    match (s.profile profile.toNat).state with
    | .written => .bare s .written
    | .corrupt => .bare s .corrupt
    | .unwritten =>
      if segmentsOk (readSegments contents count.toNat) then
        accept (.writeProfile profile.toNat (readSegments contents count.toNat)) s
      else .bare s .range

/-! ### The orders of PCC (R142) -/

/-- DISK_REPLACED (R142). -/
def orderDiskReplaced (s : State) : Reply :=
  if s.ilk.mode = .lockout then .bare s .mode
  else if !s.seq.state.atRest then .bare s .state
  else
    .bare (writeBack (s.setPcc { s.pcc with
      diskLife := 0, diskRemainder := 0, diskWarned := atWarning 0 s.img.diskLimit })) .ok

/-- PAD_REPLACED (R142). -/
def orderPadReplaced (s : State) : Reply :=
  if s.ilk.mode = .lockout then .bare s .mode
  else if !s.seq.state.atRest then .bare s .state
  else
    .bare (writeBack (s.setPcc { s.pcc with
      padLife := 0, padRemainder := 0, padWarned := atWarning 0 s.img.padLimit })) .ok

/-! ### The orders of CFG (R192, R200 to R202) -/

/-- The feed, request and effective grant of an item in the status record (Table 10-11). -/
def itemStatus (it : Option Item) (s : State) : List Byte :=
  match it with
  | none => [7] ++ le2 0 ++ le2 0
  | some i => [byteOf (numFeed i.feed)] ++ le2 i.q ++ le2 (s.effective i.feed)

/-- The sticky events of status byte 19, in order. -/
def eventBits (s : State) : List Bool :=
  [s.sdu.mismatch, s.drv.tachLost, s.pcc.condLost, s.hpc.warn, s.ilk.modeIllegal, s.lnk.collisionSeen,
    s.lnk.checkErrorSeen, s.lnk.malformedSeen]

/-- The eight sticky flags of the interlock lines, IL0 first. -/
def stickyBits (s : State) : List Bool := s.ilk.lines.toList.map LineState.sticky

/-- Page 0 of the status record (Table 10-11). The first-named derate step of a byte takes bits 0 to 3: DEDUCED, log entry 49. -/
def statusPage0 (s : State) : List Byte :=
  [0, byteOf (numState s.seq.state), byteOf s.seq.index, byteOf (bitSet s.seq.causes.bits), firstFaultByte s,
    byteOf (bitSet s.seq.later.bits)] ++
  itemStatus s.peer.own.main s ++ itemStatus s.peer.own.additive s ++
  [byteOf (s.shr.a.k + 16 * s.shr.b.k), byteOf (s.shr.c.k + 16 * s.shr.d.k),
    byteOf (bitSet [s.peer.isolated, s.storeBusy, s.rcp.lock]), byteOf (bitSet (eventBits s)),
    byteOf (bitSet (stickyBits s)), byteOf (bitSet (s.ilk.lines.toList.map (fun x => x.level == .active))),
    byteOf (bitSet (s.ilk.lines.toList.map (fun x => x.level == .unknown))),
    byteOf (numMode s.ilk.mode + 16 * numReset s.cfg.cause), byteOf (numArm s.pcc.arm),
    byteOf (lifePercent s.pcc.diskLife s.img.diskLimit), byteOf (lifePercent s.pcc.padLife s.img.padLimit),
    byteOf (bitSet [(s.chan .main).source == .fallback, (s.chan .additive).source == .fallback,
      (s.drive .platen).source == .estimate, (s.drive .head).source == .estimate])]

/-- The channel states, two bits each, Z1 lowest: DEDUCED, log entry 49. -/
def channelBits (s : State) : Nat := s.hpc.ch.toList.foldr (fun h n => numChan h.state + 4 * n) 0

/-- Page 1 of the status record (Table 10-11). -/
def statusPage1 (s : State) : List Byte :=
  [1] ++ s.hpc.ch.toList.flatMap (fun h => le2 h.applied) ++ s.hpc.ch.toList.flatMap (fun h => le2 h.measured) ++
  le2 (channelBits s)

/-- QUERY_STATUS (R200). -/
def orderQueryStatus (page : Byte) (s : State) : Reply :=
  if page = 0 then ⟨s, .ok, statusPage0 s⟩
  else if page = 1 then ⟨s, .ok, statusPage1 s⟩
  else .bare s .range

/-- Every line named by bits 0 to 7 of a mask hands its flag to its own rule (R168, R201). -/
def clearLines (mask : BitVec 16) (s : State) : State :=
  PerLine.indices.foldl (fun s l => if mask.getLsbD (numLine l) then clearLine l s else s) s

/-- The link flags a mask names are cleared (R181, R201). -/
def clearLinkFlags (mask : BitVec 16) (s : State) : State :=
  s.setLnk { s.lnk with
    collisionSeen := s.lnk.collisionSeen && !mask.getLsbD 8
    checkErrorSeen := s.lnk.checkErrorSeen && !mask.getLsbD 9
    malformedSeen := s.lnk.malformedSeen && !mask.getLsbD 10 }

/-- Every flag a mask names is cleared under its owner's rule (R201). -/
def clearFlags (mask : BitVec 16) (s : State) : State :=
  let s := clearLinkFlags mask (clearLines mask s)
  let s := if mask.getLsbD 11 then s.setSdu { s.sdu with mismatch := false } else s
  let s := if mask.getLsbD 12 then s.setDrv { s.drv with tachLost := false } else s
  let s := if mask.getLsbD 13 then clearCondLost s else s
  let s := if mask.getLsbD 14 && !decide (s.pins.air < s.img.airWarn) then s.setHpc { s.hpc with warn := false } else s
  if mask.getLsbD 15 then clearModeIllegal s else s

/-- The 16 flags in the order of the mask (R201). -/
def flagsWord (s : State) : Nat :=
  bitSet (stickyBits s ++ [s.lnk.collisionSeen, s.lnk.checkErrorSeen, s.lnk.malformedSeen, s.sdu.mismatch,
    s.drv.tachLost, s.pcc.condLost, s.hpc.warn, s.ilk.modeIllegal])

/-- CLEAR_EVENTS: the flags as they stand after the clearing (R201). -/
def orderClearEvents (mask : BitVec 16) (s : State) : Reply :=
  let s := settle (clearFlags mask s)
  ⟨s, .ok, le2 (flagsWord s)⟩

/-- RESTART: refused with MODE in LOCKOUT and with STATE from WAITING to ABORTING; else the mark is set and OK answered, or, where no
answer is placed, the station resets at once (R202). -/
def orderRestart (toAll : Bool) (s : State) : Reply :=
  if s.ilk.mode = .lockout then .bare s .mode
  else if !s.seq.state.atRest then .bare s .state
  else if toAll || s.silent then .bare (doReset .restartOrder false s) .ok
  else .bare (s.setCfg { s.cfg with restartPending := true }) .ok

/-! ### Taking an ORDER (R184) -/

/-- The owner of an order carries it out (Table 10-3). -/
def carryOut (toAll : Bool) (o : Order) (s : State) : Reply :=
  match o with
  | .load slot => orderLoad slot s
  | .unload => orderUnload s
  | .start => orderStart s
  | .hold => orderHold s
  | .resume => orderResume s
  | .abort => orderAbort s
  | .clearFault => orderClearFault s
  | .readResult position => orderReadResult position s
  | .writeHeader slot part contents => orderWriteHeader slot part contents s
  | .writeStep slot index contents => orderWriteStep slot index contents s
  | .closeRecipe slot => orderCloseRecipe slot s
  | .eraseRecipe slot => orderEraseRecipe slot s
  | .sumRecipe slot => orderSumRecipe slot s
  | .eraseStore => orderEraseStore s
  | .lockStore => orderLockStore s
  | .readRecipe slot kind part => orderReadRecipe slot kind part s
  | .writeProfile profile count contents => orderWriteProfile profile count contents s
  | .diskReplaced => orderDiskReplaced s
  | .padReplaced => orderPadReplaced s
  | .queryStatus page => orderQueryStatus page s
  | .clearEvents mask => orderClearEvents mask s
  | .restart => orderRestart toAll s

/-- LNK takes the ORDER: it is not dropped in LISTEN or before, nor for its source, nor while a restart is pending, nor for want of
a place in the ANSWER queue (R184, R202). -/
def takesOrder (m : OrderMeta) (s : State) : Bool :=
  s.started && s.cfg.startUp != .listen && m.source == s.img.cmdNode && !s.cfg.restartPending &&
  (m.toAll || s.cfg.startUp == .duplicateNode || s.lnk.answers.length < 4)

/-- An ORDER as LNK takes it: dropped, or carried out by `owner` and, where it was addressed, answered. An ORDER to all nodes is not
answered, and after DUPLICATE_NODE the answer is discarded (R184, R185). -/
def serve (m : OrderMeta) (owner : State → Reply) (s : State) : State :=
  if takesOrder m s then
    let r := owner s
    if m.toAll || s.silent then r.st else placeAnswer m.tag (byteOf (numCode r.code) :: r.data) r.st
  else s

/-- The owner that answers what LNK itself refuses: UNKNOWN, or RANGE for a wrong length (R184). -/
def refuse (c : Code) (s : State) : Reply := .bare s c

/-- The owner that answers a payload of the wrong length: RANGE (R184), with the cause set for RESUME, whose answer always carries it
(R185). -/
def refuseLength (payload : List Byte) (s : State) : Reply :=
  if par payload 0 = 4 then resumeReply s .range else refuse .range s

/-- An ORDER payload taken as R184 gives. -/
def takeOrder (m : OrderMeta) (payload : List Byte) (s : State) : State :=
  match parseOrder payload with
  | .unknown => serve m (refuse .unknown) s
  | .badLength => serve m (refuseLength payload) s
  | .order o => serve m (carryOut m.toAll o) s

end Sys2Proof.Machine
end

