-- ==== Sys2Proof/Machine/Link.lean ====
section
/-! DEFINITION. LNK (Chapter 10): access to the line, sending, collisions, and the receipt of frames. -/

namespace Sys2Proof.Machine

open Sys2Proof

/-! ### Frames on the line (R13, R167, R185, R187) -/

/-- The value of a kind (Table 10-5). -/
def numKindOf (k : FrameKind) : Nat :=
  match k with
  | .stop => 1
  | .order => 2
  | .answer => 3
  | .demand => 4
  | .notice => 5

/-- The kind of a value (Table 10-5). -/
def kindOf (n : Nat) : Option FrameKind :=
  match n with
  | 1 => some .stop
  | 2 => some .order
  | 3 => some .answer
  | 4 => some .demand
  | 5 => some .notice
  | _ => none

/-- The destination of a frame the station sends: all nodes for STOP and DEMAND, CMDNODE for ANSWER and NOTICE (R13, R167, R185;
NOTICE: log entry 11). -/
def destOf (i : Image) (k : FrameKind) : Nat :=
  match k with
  | .stop | .demand => 15
  | .order | .answer | .notice => i.cmdNode

/-- The check byte: the two's complement of the 8-bit sum (R187). -/
def checkByte (bs : List Byte) : Byte := byteOf (256 - byteSum bs % 256)

/-- The bytes before the check of a frame with its header (R187). -/
def frameHead (source dest kind : Nat) (tag : Byte) (payload : List Byte) : List Byte :=
  [byteOf (16 * source + dest), byteOf kind, tag, byteOf payload.length] ++ payload

/-- A whole frame (R187). -/
def frameBytes (source dest kind : Nat) (tag : Byte) (payload : List Byte) : List Byte :=
  frameHead source dest kind tag payload ++ [checkByte (frameHead source dest kind tag payload)]

/-- The bytes the station drives for a frame of its own. -/
def Frame.wire (f : Frame) (i : Image) : List Byte := frameBytes i.node (destOf i f.kind) (numKindOf f.kind) f.tag f.payload

/-- A byte on the line: a start bit at 0, its bits from bit 0 to bit 7, a stop bit at 1 (R179). True is 1. -/
def byteBits (b : Byte) : List Bool := [false] ++ (List.range 8).map b.getLsbD ++ [true]

/-- The bits the station drives for a frame of its own, one a bit time, the bytes in frame order (R179). -/
def Frame.bits (f : Frame) (i : Image) : List Bool := (f.wire i).flatMap byteBits

/-- The level the line carries where two nodes drive it at once: the dominant level is 0 (R179). -/
def lineLevel (own other : Bool) : Bool := own && other

/-- The time a frame lasts in bit times: (5 + L) × 10 (R177). -/
def Frame.length (f : Frame) : Nat := (5 + f.payload.length) * 10

/-! ### Access (R177 to R179) -/

/-- The class of a kind (Table 10-1). -/
def classOf (k : FrameKind) : Nat :=
  match k with
  | .stop => 0
  | .order => 1
  | .answer => 1
  | .demand => 2
  | .notice => 3

/-- The arbiter's candidate: the head of the lowest-class non-empty queue or slot (R178). -/
def candidate (l : Lnk) : Option Frame :=
  match l.stopSlot, l.answers, l.demandSlot, l.notices with
  | some f, _, _, _ => some f
  | none, f :: _, _, _ => some f
  | none, [], some f, _ => some f
  | none, [], none, f :: _ => some f
  | none, [], none, [] => none

/-- The station's retreat: 4 + 4 × the low four bits of the serial (R179). -/
def retreat (i : Image) : Nat := 4 + 4 * (i.serial % 16)

/-- The gap of a frame, with its retreat after a collision (R177, R179). -/
def gapOf (i : Image) (f : Frame) : Nat :=
  10 + 16 * classOf f.kind + i.node + if 0 < f.collisions then retreat i else 0

/-- The line is quiet and the station is not transmitting. -/
def Lnk.idle (l : Lnk) : Bool := l.sending.isNone && l.carrier.isNone

/-- The quiet time has reached the candidate's gap; the station transmits from READY on (R177, R178, R180). -/
def transmitDue (s : State) : Bool :=
  s.cfg.startUp == .ready && !s.inReset && s.lnk.idle &&
  match candidate s.lnk with
  | none => false
  | some f => gapOf s.img f ≤ s.lnk.quiet

/-- A payload with the notices-lost count written in as its byte 1 (R186). -/
def withLost (payload : List Byte) (lost : Nat) : List Byte :=
  match payload with
  | a :: _ :: rest => a :: byteOf lost :: rest
  | p => p

/-- The transmitter's own copy of a frame that starts now. -/
def startOf (f : Frame) (lost : Nat) : Sending :=
  if f.kind = .notice then ⟨{ f with payload := withLost f.payload lost }, 0, lost, false⟩ else ⟨f, 0, 0, false⟩

/-- The candidate starts on the line (R178, R186). -/
def startFrame (s : State) : State :=
  match candidate s.lnk with
  | none => s
  | some f => s.setLnk { s.lnk with sending := some (startOf f s.lnk.lost), quiet := 0 }

/-- The frame on the line has been driven to its end. -/
def sentDue (s : State) : Bool :=
  match s.lnk.sending with
  | none => false
  | some t => t.frame.length ≤ t.timer

/-- The frame leaves its queue, or its slot unless that has been filled anew (R178). -/
def removeSent (t : Sending) (l : Lnk) : Lnk :=
  match t.frame.kind with
  | .stop => if t.replaced then l else { l with stopSlot := none }
  | .answer | .order => { l with answers := l.answers.drop 1 }
  | .demand => if t.replaced then l else { l with demandSlot := none }
  | .notice => { l with notices := l.notices.drop 1 }

/-- A pending restart takes place once its ANSWER has left the queue: it is the last there, since no further ORDER is taken
(R202). -/
def restartIfSent (s : State) : State :=
  if s.cfg.restartPending && s.lnk.answers.isEmpty then doReset .restartOrder false s else s

/-- A frame sent in full: it leaves its queue or slot, a NOTICE's lost count is subtracted, and the quiet time starts from 0 at the
end of its carrier (R177, R178, R186). -/
def finishFrame (s : State) : State :=
  match s.lnk.sending with
  | none => s
  | some t =>
    let l := removeSent t s.lnk
    restartIfSent (s.setLnk { l with sending := none, carrier := none, quiet := 0, lost := l.lost - t.lost })

/-- A frame's collision count raised by one. -/
def Frame.collide (f : Frame) : Frame := { f with collisions := f.collisions + 1 }

/-- The first frame of a queue counts a collision. -/
def collideHead (l : List Frame) : List Frame :=
  match l with
  | [] => []
  | f :: rest => f.collide :: rest

/-- A slot's frame counts a collision unless it has been filled anew. -/
def collideSlot (t : Sending) (slot : Option Frame) : Option Frame := if t.replaced then slot else slot.map Frame.collide

/-- A collision counted on the frame where it stands (R179). -/
def countCollision (t : Sending) (l : Lnk) : Lnk :=
  match t.frame.kind with
  | .stop => { l with stopSlot := collideSlot t l.stopSlot }
  | .answer | .order => { l with answers := collideHead l.answers }
  | .demand => { l with demandSlot := collideSlot t l.demandSlot }
  | .notice => { l with notices := collideHead l.notices }

/-- A frame whose collision count has reached 16 is discarded; a NOTICE counts as lost (R179, R186). -/
def discardWorn (t : Sending) (l : Lnk) : Lnk :=
  if t.frame.collisions + 1 < 16 then l
  else
    let l := removeSent t l
    if t.frame.kind = .notice then { l with lost := lostMore l.lost } else l

/-- The bit the station drives at this moment. -/
def drivenBit (s : State) : Option Bool := s.lnk.sending.bind (fun t => (t.frame.bits s.img)[t.timer]?)

/-- The station can read back a level that it does not drive: another node's dominant 0 over its own 1, never over its own 0 (R179). -/
def mismatchDue (s : State) : Bool :=
  match drivenBit s with
  | none => false
  | some own => lineLevel own false != own

/-- An echo mismatch: the station stops driving, COLLISION_SEEN is set, the frame's count rises, and at 16 it is discarded. The carrier
goes on and is not taken as a frame (R179). -/
def mismatchEcho (s : State) : State :=
  match s.lnk.sending with
  | none => s
  | some t =>
    let l := discardWorn t (countCollision t s.lnk)
    restartIfSent (s.setLnk { l with sending := none, carrier := some false, collisionSeen := true })

/-- Another node's carrier begins: a station transmitting does not take its frame (R177, R181). -/
def beginCarrier (s : State) : State :=
  if s.lnk.carrier.isSome then s
  else s.setLnk { s.lnk with carrier := some s.lnk.sending.isNone, quiet := 0, received := [] }

/-! ### Receipt (R181 to R183) -/

/-- The source number of a frame. -/
def sourceOf (b : List Byte) : Nat := bitsAt (rd b 0) 4 4

/-- The destination of a frame. -/
def targetNode (b : List Byte) : Nat := bitsAt (rd b 0) 0 4

/-- The payload of a frame. -/
def payloadOf (b : List Byte) : List Byte := (b.drop 4).take (rd b 3)

/-- Check 1: the number of bytes is 5 plus the length byte, and the length is at most 48 (R181). -/
def lengthGood (b : List Byte) : Bool := b.length == 5 + rd b 3 && rd b 3 ≤ 48

/-- Check 2: all bytes sum to 0 modulo 256 (R181). -/
def sumGood (b : List Byte) : Bool := byteSum b % 256 == 0

/-- A frame delivered to its owner by kind (R183). ANSWER and NOTICE are only heard. -/
def deliver (k : FrameKind) (b : List Byte) (s : State) : State :=
  match k with
  | .stop => takeStop s
  | .demand => takeDemand (sourceOf b) (payloadOf b) s
  | .order => takeOrder ⟨sourceOf b, targetNode b == 15, par b 2⟩ (payloadOf b) s
  | .answer | .notice => s

/-- Checks 4 and 5, and the delivery (R181, R183). -/
def acceptFrame (k : FrameKind) (b : List Byte) (s : State) : State :=
  if sourceOf b = 15 then s.setLnk { s.lnk with malformedSeen := true }
  else if targetNode b = s.img.node ∨ targetNode b = 15 then deliver k b s
  else s

/-- A valid frame heard from another node: PEER is told, the frame is taken, and where ISOLATED was set SHR runs for all feeds
after it (R14, R16, R181). -/
def hearOther (k : FrameKind) (b : List Byte) (s : State) : State :=
  let isolated := s.peer.isolated
  let s := acceptFrame k b (hearFrame s)
  if isolated then shrRuns allFeeds s else s

/-- The checks of R181 in order, and R182. -/
def checkFrame (b : List Byte) (s : State) : State :=
  if !lengthGood b || !sumGood b then s.setLnk { s.lnk with checkErrorSeen := true }
  else
    match kindOf (rd b 1) with
    | none => s.setLnk { s.lnk with malformedSeen := true }
    | some k => if sourceOf b = s.img.node then findDuplicate s else hearOther k b s

/-- The frame of a carrier that ends now may be taken: the station was not transmitting at its start nor is now, and it takes frames
(R181, Table 11-2). -/
def takesFrame (s : State) : Bool := s.started && s.lnk.sending.isNone && s.lnk.carrier != some false

/-- The end of another node's carrier (R177, R181). The receive buffer holds a frame the station takes, past the carrier's end as well:
DESIGN CHOICE, log entry 30. Of one it does not take nothing stays, so that a part held in reset, or starting up, keeps the empty
buffer of R193 until LISTEN. -/
def endCarrier (b : List Byte) (s : State) : State :=
  let takes := takesFrame s
  let s := s.setLnk { s.lnk with
    carrier := none, received := if takes then b else [], quiet := if s.lnk.sending.isNone then 0 else s.lnk.quiet }
  if takes then settle (checkFrame b s) else s

end Sys2Proof.Machine
end

