-- ==== Sys2Proof/Machine/Clock.lean ====
section
/-! DEFINITION. Time: what one microsecond moves in every block, each from the state as it stands before it, and which of the part's own
events are due (log entries 1 to 3). -/

namespace Sys2Proof.Machine

open Sys2Proof

/-- A timer that runs, up to its limit. -/
def run (limit t : Nat) : Nat := min limit (t + 1)

/-- A timer that runs while a condition holds and is 0 otherwise; where no rule gives it a value otherwise, the 0 is DESIGN CHOICE, log entry
55. -/
def runOr0 (on : Bool) (limit t : Nat) : Nat := if on then run limit t else 0

/-- A timer that runs while a condition holds and stands otherwise. -/
def runOrStand (on : Bool) (limit t : Nat) : Nat := if on then run limit t else t

/-! ### One microsecond, block by block -/

/-- CFG: SETTLE (R195). -/
def tickCfg (s : State) : Cfg :=
  { s.cfg with settleTimer := runOrStand (s.cfg.startUp == .settle) settleTime s.cfg.settleTimer }

/-- PEER: the refresh timer (R4). -/
def tickPeer (s : State) : Peer := { s.peer with refresh := s.peer.refresh.map (run s.period) }

/-- A valve path: the check 500 ms after its command, and from then on a disagreement of 500 ms (R40). -/
def Valve.tick (v : Valve) (feedback : Bool) : Valve :=
  { v with
    sinceCommand := run feedbackTime v.sinceCommand
    disagree :=
      if feedback = v.isOpen then 0
      else if v.sinceCommand + 1 < feedbackTime then 0
      else if v.sinceCommand < feedbackTime then feedbackTime
      else run feedbackTime v.disagree }

/-- The inlet pressure of a channel is below its threshold (R57). -/
def inletLow (s : State) (c : Channel) : Bool := s.pins.inlet.get c < thresholdOf s.img c

/-- A dispense channel: valves, warm-up, inlet monitor, clamp timer (R40, R51, R57, R60). -/
def tickChannel (s : State) (c : Channel) : Dispense :=
  let d := s.chan c
  { d with
    valves := .of (fun f =>
      if plumbedTo s.img c f then (d.valves.get f).tick ((s.pins.valveOpen.get c).get f) else d.valves.get f)
    warmTimer := runOrStand (decide (0 < d.rate) && !d.warm) warmUpTime d.warmTimer
    lowTimer := runOr0 (monitorActive c s && !d.supplyLow && inletLow s c) lowTime d.lowTimer
    recoveryTimer := runOr0 (d.supplyLow && !inletLow s c) recoveryTime d.recoveryTimer
    clampTimer := runOr0 (decide (0 < d.rate) && s.pins.clampSense.get c) (ms s.img.clampTimeout) d.clampTimer }

/-- SDU (R40, R59). -/
def tickSdu (s : State) : Sdu :=
  { s.sdu with
    ch := .of (tickChannel s)
    di := s.sdu.di.tick s.pins.diOpen
    persist := runOr0 (s.seq.state == .running && anyLow s) persistTime s.sdu.persist }

/-- SEQ: elapsed time up to the limit, hold time, waiting timer, abort timer (R69, R71, R85). -/
def tickSeq (s : State) : Seq :=
  { s.seq with
    elapsed := runOrStand (s.seq.state == .running) (tenths ((s.stepNow.map StepRec.limit).getD 0)) s.seq.elapsed
    hold := runOrStand (s.seq.state == .holding) holdCap s.seq.hold
    waiting := runOrStand (s.seq.state == .waiting) (ms (1000 * s.img.waitingLimit)) s.seq.waiting
    abortTimer := if s.seq.state = .aborting then s.seq.abortTimer.map (run abortTime) else s.seq.abortTimer }

/-- RCP: the accumulation timer (R110). -/
def tickRcp (s : State) : Rcp :=
  { s.rcp with accumulation := runOrStand (lifeCounts s) accumulationTime s.rcp.accumulation }

/-- A head channel: regulation and overpressure timers (R123, R125). -/
def tickHead (s : State) (c : HeadCh) : HeadChan :=
  let h := s.head c
  { h with
    regTimer :=
      runOr0 (h.state == .regulating && !withinTolerance s.img.regTolerance h.measured h.applied)
        (ms s.img.settleLimit) h.regTimer
    overTimer := runOr0 (h.sound && overLimit s.img c h.measured) overTime h.overTimer }

/-- HPC: the channels, the ramp, the air supply's timers (R121, R123, R125, R127, R128). -/
def tickHpc (s : State) : Hpc :=
  { s.hpc with
    ch := .of (tickHead s)
    ramp := s.hpc.ramp.map (fun r => { r with timer := r.timer + 1 })
    rearmTimer := runOr0 (!s.hpc.armed && !decide (s.pins.air < s.img.airWarn)) rearmTime s.hpc.rearmTimer
    tripTimer := runOr0 (decide (s.pins.air < s.img.airTrip) && headPressed s) airTripTime s.hpc.tripTimer }

/-- A radius moved by `v` nm toward another, which it does not pass. -/
def moveToward (v r target : Nat) : Nat := if r < target then min target (r + v) else max target (r - v)

/-- The arm's commanded radius: 50 mm/s outward in a home search, 200 mm/s in and to park, the segment's speed up to its bound in a
sweep (Table 7-1, R132, R134). -/
def tickRadius (s : State) : Nat :=
  match s.pcc.arm with
  | .parked => if s.pcc.search.isSome then s.pcc.radius + 50 else s.pcc.radius
  | .movingIn => moveToward 200 s.pcc.radius s.pcc.destination
  | .sweeping =>
    let v := speedOf s.pcc.segments s.pcc.segment
    match s.pcc.direction with
    | .outward => moveToward v s.pcc.radius (outerOf s.pcc.segments s.pcc.segment)
    | .inward => moveToward v s.pcc.radius (innerOf s.pcc.segments s.pcc.segment)
  | .lifting => moveToward 200 s.pcc.radius parkRadius
  | .lost => s.pcc.radius

/-- PCC: the arm, the home search, the checks' timers, the life remainders (R132, R134, R139, R140, R143). -/
def tickPcc (s : State) : Pcc :=
  { s.pcc with
    radius := tickRadius s
    search := s.pcc.search.map (run homeTime)
    diskRemainder := if s.pcc.arm = .sweeping then s.pcc.diskRemainder + s.pcc.downforce else s.pcc.diskRemainder
    padRemainder := if padCounts s then s.pcc.padRemainder + 1 else s.pcc.padRemainder
    positionTimer := runOr0 (positionWatched s && farFromCommand s) armCheckTime s.pcc.positionTimer
    stallTimer := runOr0 (s.pcc.arm == .sweeping && !s.pins.diskPulsing) armCheckTime s.pcc.stallTimer }

/-- EPM's period timer, while the symbolizer runs (R149, R150). -/
def tickPeriod (s : State) : Nat :=
  match s.epm.settings with
  | none => s.epm.periodTimer
  | some e =>
    runOrStand (s.epm.state == .reference || s.epm.state == .classifying) (ms e.period) s.epm.periodTimer

/-- EPM: sampling, from the reset on, in every start-up state but CONFIG_FAULT (R147), and the period timer. -/
def tickEpm (s : State) : Epm :=
  { s.epm with
    sampleTimer := runOrStand (s.cfg.startUp != .configFault) sampleTime s.epm.sampleTimer
    periodTimer := if s.started then tickPeriod s else s.epm.periodTimer }

/-- ILK's lines (R164). -/
def tickLine (s : State) (l : Line) : LineState :=
  { s.line l with timer := runOr0 (debouncing s l) (ms (s.img.lines.get l).debounce) (s.line l).timer }

/-- ILK: the lines from the end of LOADING, the mode pair from the reset (R164, R170, R176). -/
def tickIlk (s : State) : Ilk :=
  { s.ilk with
    lines := if s.started then .of (tickLine s) else s.ilk.lines
    modeTimer := runOrStand (s.cfg.startUp != .configFault) modeTime s.ilk.modeTimer }

/-- A drive's ramp and command; an active trip holds the command at 0 (R172, R175). -/
def DriveState.move (x : DriveState) (acceleration : Nat) (trip : Bool) : DriveState :=
  if trip then { x with command := 0 }
  else
    match x.ramp with
    | none => x
    | some (start, t) =>
      { x with ramp := some (start, t + 1), command := rampCommand start x.setpoint acceleration (t + 1) }

/-- A drive: ramp, at-speed timer, tach-loss and agreement timers, and the tach's silence (R172 to R174). -/
def tickDrive (s : State) (d : Drive) : DriveState :=
  let x := s.drive d
  { x.move (s.img.acceleration.get d) (s.pins.trip.get d) with
    atSpeed := x.atSpeed && speedRuns s d
    atSpeedTimer := runOr0 (speedRuns s d) atSpeedTime x.atSpeedTimer
    tachLoss := runOr0 (x.source == .tach && decide (5 ≤ x.command)) tachLossTime x.tachLoss
    agreement :=
      runOr0 (x.source == .estimate && tachAgrees (s.pins.tachSpeed.get d) (s.pins.estimate.get d)) agreementTime
        x.agreement
    silence := run tachLossTime x.silence }

/-- DRV. -/
def tickDrv (s : State) : Drv := { s.drv with drive := .of (tickDrive s) }

/-- The tach speed is 0 when no pulse has arrived for 500 ms (R174). -/
def tickPins (s : State) : Pins :=
  { s.pins with
    tachSpeed := .of (fun d =>
      if tachLossTime ≤ (s.drive d).silence + 1 then 0 else s.pins.tachSpeed.get d) }

/-- LNK: the quiet time on a quiet line, and the frame being driven (R177). -/
def tickLnk (s : State) : Lnk :=
  { s.lnk with
    quiet := if s.lnk.idle then s.lnk.quiet + 1 else s.lnk.quiet
    sending := s.lnk.sending.map (fun t => { t with timer := t.timer + 1 }) }

/-- One microsecond. While the part is held in reset only the time passes; before the image is in force only SETTLE, the mode pair, the
samples and the line's quiet time run; that the drives' timers stand till then is a DESIGN CHOICE, log entry 48. -/
def tick (s : State) : State :=
  if s.inReset then s.setNow (s.now + 1)
  else if s.started then
    { s with
      cfg := tickCfg s, peer := tickPeer s, sdu := tickSdu s, seq := tickSeq s, rcp := tickRcp s, hpc := tickHpc s,
      pcc := tickPcc s, epm := tickEpm s, ilk := tickIlk s, drv := tickDrv s, lnk := tickLnk s, pins := tickPins s,
      now := s.now + 1 }
  else
    { s with cfg := tickCfg s, epm := tickEpm s, ilk := tickIlk s, lnk := tickLnk s, now := s.now + 1 }

/-! ### The events that are due -/

/-- A sample of the motor current is due (R147). -/
def sampleDue (s : State) : Bool :=
  !s.inReset && s.cfg.startUp != .configFault && sampleTime ≤ s.epm.sampleTimer

/-- An event if it is due. -/
def ifDue (due : Bool) (i : Instr) : List Instr := if due then [i] else []

/-- The drive events that are due. -/
def driveDue (s : State) (d : Drive) : List Instr :=
  ifDue (atSpeedDue d s) (.atSpeed d) ++ ifDue (tachLostDue d s) (.tachLost d) ++
  ifDue (tachRestoredDue d s) (.tachRestored d) ++ ifDue (rampDoneDue d s) (.driveCommandAtSetpoint d)

/-- The events of a dispense channel that are due. -/
def channelDue (s : State) (c : Channel) : List Instr :=
  PerFeed.indices.flatMap (fun f => ifDue (valveFaultDue c (.feed f) s) (.valveFeedbackFault c (.feed f))) ++
  ifDue (nonOverlapDue c s) (.nonOverlapEnd c) ++ ifDue (warmDue c s) (.warmUpEnd c) ++
  ifDue (windowDue c s) (.crossCheckWindow c) ++ ifDue (fallbackDue c s) (.flowMismatch c) ++
  ifDue (restoreDue c s) (.flowRestored c) ++ ifDue (lowRaiseDue c s) (.supplyLowRaise c) ++
  ifDue (lowClearDue c s) (.supplyLowClear c) ++ ifDue (blockedDue c s) (.pumpBlocked c)

/-- The SUPPLY persistence timer has reached 5 s (R59). -/
def persistDue (s : State) : Bool := s.seq.state == .running && anyLow s && persistTime ≤ s.sdu.persist

/-- The events of PEER and SHR that are due. -/
def sharedDue (s : State) : List Instr :=
  ifDue (refreshDue s) .refreshTick ++ ifDue (isolationDue s) .isolationBegun ++
  s.peer.table.flatMap (fun e =>
    ifDue (staleDue e.node s) (.entryStale e.node) ++ ifDue (removeDue e.node s) (.entryRemoved e.node)) ++
  PerFeed.indices.flatMap (fun f =>
    ifDue (derateDue f s) (.derateDecrement f) ++ ifDue ((s.shr.get f).expiryDue s.now) (.holdOffExpiry f))

/-- The events of SDU that are due. -/
def dispenseDue (s : State) : List Instr :=
  channelDue s .main ++ channelDue s .additive ++ ifDue (valveFaultDue .main .di s) (.valveFeedbackFault .main .di) ++
  ifDue (flushDue s) .flushDone ++ ifDue (postRinseWaitDue s) .postRinseWaitEnd ++ ifDue (postRinseDue s) .postRinseDone ++
  ifDue (persistDue s) .supplyPersist

/-- The events of SEQ that are due. -/
def sequencerDue (s : State) : List Instr :=
  ifDue (startDue s) .stepStart ++ ifDue (minTimeDue s) .minTimeReached ++ ifDue (limitDue s) .stepLimitReached ++
  ifDue (overpolishDue s) .overpolishEnd ++ ifDue (waitLongDue s) .waitLong ++ ifDue (endingDue s) .endingComplete ++
  ifDue (abortDone s) .abortingComplete ++ ifDue (abortTimeoutDue s) .abortTimeout

/-- The events of HPC that are due. -/
def headDue (s : State) : List Instr :=
  ifDue (rampTickDue s) .rampTick ++ ifDue (rampEndDue s) .rampEnd ++
  PerHead.indices.flatMap (fun c =>
    ifDue (regulationDue c s) (.regulationTimeout c) ++ ifDue (overDue c s) (.overpressure c)) ++
  ifDue (airWarnDue s) .supplyWarn ++ ifDue (rearmDue s) .warnRearm ++ ifDue (airTripDue s) .supplyAir

/-- The events of PCC and RCP that are due. -/
def armDue (s : State) : List Instr :=
  ifDue (arrivalDue s) .armArrival ++ ifDue (parkDue s) .armParked ++ ifDue (boundaryDue s) .segmentBoundary ++
  ifDue (homeDue s) .homeFound ++ ifDue (homeTimeoutDue s) .homeTimeout ++ ifDue (positionDue s) .armPositionFault ++
  ifDue (stallDue s) .diskStall ++ ifDue (diskDue s) .diskLifeIncrement ++ ifDue (padDue s) .padLifeIncrement ++
  ifDue (eraseTargetDue s) .eraseStoreTargetDone ++ ifDue (opDue s) .storeOpComplete ++
  ifDue (accumulationDue s) .accumulationTimeout

/-- The events of the blocks that act once the image is in force. -/
def startedDue (s : State) : List Instr :=
  sharedDue s ++ dispenseDue s ++ sequencerDue s ++ headDue s ++ armDue s ++ ifDue (symbolDue s) .symbolPeriodExpiry ++
  PerLine.indices.flatMap (fun l => ifDue (debounceDue l s) (.debounceExpiry l)) ++
  driveDue s .platen ++ driveDue s .head ++ ifDue (transmitDue s) .transmitStart ++ ifDue (sentDue s) .frameSent

/-- Every event of the part's own that is due. -/
def dueList (s : State) : List Instr :=
  ifDue (settleDue s) .settleEnd ++ ifDue (!s.inReset && listenDue s) .listenEnd ++ ifDue (modeDue s) .modeDecoded ++
  ifDue (sampleDue s) (.currentSample s.pins.motorCurrent) ++ if s.started then startedDue s else []

/-- What the block does of itself when no command waits: the events that are due come first, and where several are due at one instant
their order is free; when none is due, a microsecond passes (log entries 1 and 3). -/
def idle (s : State) : State :=
  match dueList s with
  | [] => tick s
  | [i] => s.setPending [i]
  | i :: rest =>
    (s.setPending [(i :: rest).getD (Config.dueOrder s.freeCount % (i :: rest).length) i]).setFreeCount (s.freeCount + 1)

end Sys2Proof.Machine
end

