-- ==== Sys2Proof/Machine/CmdArm.lean ====
section
/-! DEFINITION. The meanings of the pad conditioner's and the endpoint monitor's events (Chapters 7 and 8). -/

namespace Sys2Proof.Machine

open Sys2Proof

/-- ARM_ARRIVAL (R133, R136). -/
def execArmArrival (s : State) : Host.Outcome State Fault Refusal := .next (whenDue (s.started && arrivalDue s) s arrive)

/-- A lifting arm at park enters PARKED (R135). -/
def park (s : State) : State := s.setPcc { s.pcc with arm := .parked }

/-- ARM_PARKED (R135). -/
def execArmParked (s : State) : Host.Outcome State Fault Refusal := .next (whenDue (s.started && parkDue s) s park)

/-- SEGMENT_BOUNDARY (R134). -/
def execSegmentBoundary (s : State) : Host.Outcome State Fault Refusal := .next (whenDue (s.started && boundaryDue s) s crossBoundary)

/-- HOME_FOUND (R132). -/
def execHomeFound (s : State) : Host.Outcome State Fault Refusal := .next (whenDue (s.started && homeDue s) s findHome)

/-- HOME_TIMEOUT (R132, R143). -/
def execHomeTimeout (s : State) : Host.Outcome State Fault Refusal :=
  .next (whenDue (s.started && homeTimeoutDue s) s (fun s => settle (armFault .home s)))

/-- ARM_POSITION_FAULT (R143). -/
def execArmPositionFault (s : State) : Host.Outcome State Fault Refusal :=
  .next (whenDue (s.started && positionDue s) s (fun s => settle (armFault .position s)))

/-- DISK_STALL (R143). -/
def execDiskStall (s : State) : Host.Outcome State Fault Refusal :=
  .next (whenDue (s.started && stallDue s) s (fun s => settle (armFault .stall s)))

/-- DISK_LIFE_INCREMENT (R139, R141). -/
def execDiskLifeIncrement (s : State) : Host.Outcome State Fault Refusal := .next (whenDue (s.started && diskDue s) s diskIncrement)

/-- PAD_LIFE_INCREMENT (R140, R141). -/
def execPadLifeIncrement (s : State) : Host.Outcome State Fault Refusal := .next (whenDue (s.started && padDue s) s padIncrement)

/-- A sample joins the window and the 10 ms to the next begin (R147). -/
def takeSample (counts : Nat) (s : State) : State :=
  s.setEpm { s.epm with window := pushSample s.epm.window counts, sampleTimer := 0 }

/-- CURRENT_SAMPLE: taken in every start-up state but CONFIG_FAULT (R147). A command of the queue is a sample whenever it comes, before the
10 ms have run out as well: DESIGN CHOICE, log entry 32. -/
def execCurrentSample (counts : Nat) (s : State) : Host.Outcome State Fault Refusal :=
  .next (whenDue (!s.inReset && s.cfg.startUp != .configFault) (s.setPins { s.pins with motorCurrent := counts })
    (takeSample counts))

/-- A symbol period expiry: the symbolizer and the matchers move, completed matchers are notified, and a match of the step's own
signature is reported (R150 to R160). -/
def expirePeriod (s : State) : State :=
  match s.epm.settings with
  | none => s
  | some e =>
    let v := moveAll s e
    let s := matchNotices v e (symbolStep e s)
    if ownMatch v e then takeMatch s else s

/-- SYMBOL_PERIOD_EXPIRY (R150). -/
def execSymbolPeriodExpiry (s : State) : Host.Outcome State Fault Refusal := .next (whenDue (s.started && symbolDue s) s expirePeriod)

end Sys2Proof.Machine
end

