-- ==== Sys2Proof/Machine/CmdDispense.lean ====
section
/-! DEFINITION. The meanings of the dispense unit's events (Chapter 3). -/

namespace Sys2Proof.Machine

open Sys2Proof

/-- VALVE_FEEDBACK_FAULT (R40). -/
def execValveFeedbackFault (ch : Channel) (p : Path) (s : State) : Host.Outcome State Fault Refusal :=
  .next (whenDue (s.started && valveFaultDue ch p s) s (fun s => settle (takeFault .valve (faultValve ch p s))))

/-- NON_OVERLAP_END (R43, R44). -/
def execNonOverlapEnd (ch : Channel) (s : State) : Host.Outcome State Fault Refusal :=
  .next (whenDue (s.started && nonOverlapDue ch s) s (fun s => settle (endNonOverlap ch s)))

/-- FLUSH_DONE (R44). -/
def execFlushDone (s : State) : Host.Outcome State Fault Refusal :=
  .next (whenDue (s.started && flushDue s) s (fun s => settle (endFlush s)))

/-- POST_RINSE_WAIT_END (R47). -/
def execPostRinseWaitEnd (s : State) : Host.Outcome State Fault Refusal :=
  .next (whenDue (s.started && postRinseWaitDue s) s (fun s => settle (runPostRinse s)))

/-- POST_RINSE_DONE (R47). -/
def execPostRinseDone (s : State) : Host.Outcome State Fault Refusal :=
  .next (whenDue (s.started && postRinseDue s) s (fun s => settle (endPostRinse s)))

/-- The warm-up of a channel's pump has ended (R51). -/
def endWarmUp (ch : Channel) (s : State) : State := s.setChan ch { s.chan ch with warm := true }

/-- WARM_UP_END (R51, R53). -/
def execWarmUpEnd (ch : Channel) (s : State) : Host.Outcome State Fault Refusal :=
  .next (whenDue (s.started && warmDue ch s) s (endWarmUp ch))

/-- STROKE_PULSE: the stroke is counted and closes a full window, the flags of a RUNNING step are marked with what that brought about, and
the dose is judged (R53 to R56, R73). -/
def execStrokePulse (ch : Channel) (s : State) : Host.Outcome State Fault Refusal :=
  .next (whenDue s.started s (fun s => settle (checkDose (markFlags (takeStroke ch s)))))

/-- FLOWMETER_PULSE (R53, R73). -/
def execFlowmeterPulse (ch : Channel) (s : State) : Host.Outcome State Fault Refusal :=
  .next (whenDue s.started s (fun s => settle (checkDose (takePulse ch s))))

/-- CROSS_CHECK_WINDOW (R54). -/
def execCrossCheckWindow (ch : Channel) (s : State) : Host.Outcome State Fault Refusal :=
  .next (whenDue (s.started && windowDue ch s) s (closeWindow ch))

/-- FLOW_MISMATCH (R55). -/
def execFlowMismatch (ch : Channel) (s : State) : Host.Outcome State Fault Refusal :=
  .next (whenDue (s.started && fallbackDue ch s) s (fun s => settle (enterFallback ch s)))

/-- FLOW_RESTORED (R56). -/
def execFlowRestored (ch : Channel) (s : State) : Host.Outcome State Fault Refusal :=
  .next (whenDue (s.started && restoreDue ch s) s (fun s => settle (restoreFlow ch s)))

/-- SUPPLY_LOW_RAISE (R57, R58). -/
def execSupplyLowRaise (ch : Channel) (s : State) : Host.Outcome State Fault Refusal :=
  .next (whenDue (s.started && lowRaiseDue ch s) s (fun s => settle (raiseLow ch s)))

/-- SUPPLY_LOW_CLEAR (R57, R58). -/
def execSupplyLowClear (ch : Channel) (s : State) : Host.Outcome State Fault Refusal :=
  .next (whenDue (s.started && lowClearDue ch s) s (fun s => settle (clearLow ch s)))

/-- The SUPPLY cause reported while RUNNING (R59, R76). -/
def reportSupply (s : State) : State := enterHolding .running (s.seq.causes.add .supply) s

/-- SUPPLY_PERSIST (R59). -/
def execSupplyPersist (s : State) : Host.Outcome State Fault Refusal :=
  .next (whenDue (s.started && persistDue s) s (fun s => settle (reportSupply s)))

/-- PUMP_BLOCKED (R60). -/
def execPumpBlocked (ch : Channel) (s : State) : Host.Outcome State Fault Refusal :=
  .next (whenDue (s.started && blockedDue ch s) s (fun s => settle (takeFault .pumpBlocked (stopPump ch s))))

end Sys2Proof.Machine
end

