-- ==== Sys2Proof/Machine/CmdHead.lean ====
section
/-! DEFINITION. The meanings of the head pressure controller's events (Chapter 6). -/

namespace Sys2Proof.Machine

open Sys2Proof

/-- RAMP_TICK (R121). -/
def execRampTick (s : State) : Host.Outcome State Fault Refusal := .next (whenDue (s.started && rampTickDue s) s rampTick)

/-- RAMP_END (R121). -/
def execRampEnd (s : State) : Host.Outcome State Fault Refusal := .next (whenDue (s.started && rampEndDue s) s rampEnd)

/-- The regulation timer of a channel at the settle limit: LEAK below the applied value; above it one REGULATION_HIGH (R123, R124). With
the mark set the timer starts again from 0, and of several channels found below at one instant of a run the first alone is reported, since
its vent takes the others' timers to 0: DESIGN CHOICE, log entries 42 and 43. -/
def judgeRegulation (c : HeadCh) (s : State) : State :=
  if leakNow c s then takeFault .leak (clearRegTimer c s)
  else if highNow c s then clearRegTimer c (reportHigh c s)
  else clearRegTimer c s

/-- REGULATION_TIMEOUT (R123, R124). -/
def execRegulationTimeout (c : HeadCh) (s : State) : Host.Outcome State Fault Refusal :=
  .next (whenDue (s.started && regulationDue c s) s (fun s => settle (judgeRegulation c s)))

/-- OVERPRESSURE (R125). -/
def execOverpressure (c : HeadCh) (s : State) : Host.Outcome State Fault Refusal :=
  .next (whenDue (s.started && overDue c s) s (fun s => settle (takeFault .overpressure (overpressureVent c s))))

/-- SUPPLY_WARN (R127). -/
def execSupplyWarn (s : State) : Host.Outcome State Fault Refusal := .next (whenDue (s.started && airWarnDue s) s airWarn)

/-- The warning mark armed again (R127). The re-arm timer is 0 from there on, unread: DESIGN CHOICE, log entry 55. -/
def rearm (s : State) : State := s.setHpc { s.hpc with armed := true, rearmTimer := 0 }

/-- WARN_REARM (R127). -/
def execWarnRearm (s : State) : Host.Outcome State Fault Refusal := .next (whenDue (s.started && rearmDue s) s rearm)

/-- The air trip: fault SUPPLY_AIR, the timer 0 (R128). -/
def tripAir (s : State) : State := takeFault .supplyAir (s.setHpc { s.hpc with tripTimer := 0 })

/-- SUPPLY_AIR (R128). -/
def execSupplyAir (s : State) : Host.Outcome State Fault Refusal :=
  .next (whenDue (s.started && airTripDue s) s (fun s => settle (tripAir s)))

/-- MEASURED_PRESSURE_CHANGE (R123 to R125). -/
def execMeasuredPressureChange (c : HeadCh) (value : Nat) (s : State) : Host.Outcome State Fault Refusal := .next (measure c value s)

end Sys2Proof.Machine
end

