-- ==== Sys2Proof/Machine/CmdLink.lean ====
section
/-! DEFINITION. The meanings of the link's events: frames received, sent and collided (Chapter 10). -/

namespace Sys2Proof.Machine

open Sys2Proof

/-- FRAME_RECEIVED: the end of another node's carrier with the bytes heard (R181 to R183). -/
def execFrameReceived (bytes : List Byte) (s : State) : Host.Outcome State Fault Refusal := .next (endCarrier bytes s)

/-- DEMAND_RECEIVED: a DEMAND as LNK delivers it to PEER (R2, R3, R183). -/
def execDemandReceived (source : Nat) (payload : List Byte) (s : State) : Host.Outcome State Fault Refusal :=
  .next (whenDue s.started s (fun s => settle (takeDemand source payload s)))

/-- STOP_RECEIVED: a STOP as LNK delivers it to ILK (R169, R183). -/
def execStopReceived (s : State) : Host.Outcome State Fault Refusal := .next (whenDue s.started s (fun s => settle (takeStop s)))

/-- CARRIER_BEGINS (R177, R181). -/
def execCarrierBegins (s : State) : Host.Outcome State Fault Refusal := .next (beginCarrier s)

/-- TRANSMIT_START (R177, R178). -/
def execTransmitStart (s : State) : Host.Outcome State Fault Refusal := .next (whenDue (transmitDue s) s startFrame)

/-- FRAME_SENT (R178, R186, R202). -/
def execFrameSent (s : State) : Host.Outcome State Fault Refusal := .next (whenDue (s.started && sentDue s) s finishFrame)

/-- ECHO_MISMATCH: a collision of the frame being driven, at a bit at which the echo can differ from what is driven (R179). -/
def execEchoMismatch (s : State) : Host.Outcome State Fault Refusal :=
  .next (whenDue (s.started && mismatchDue s) s mismatchEcho)

end Sys2Proof.Machine
end

