-- ==== Sys2Proof/Machine/CmdOrders.lean ====
section
/-! DEFINITION. The meanings of the orders: each as LNK takes it and its owner carries it out (R63, R100, R142, R184, R200 to R202). -/

namespace Sys2Proof.Machine

open Sys2Proof

/-- UNKNOWN_ORDER: an ORDER payload taken as R184 gives: dropped, answered UNKNOWN, or answered RANGE for its length. -/
def execUnknownOrder (m : OrderMeta) (payload : List Byte) (s : State) : Host.Outcome State Fault Refusal :=
  .next (takeOrder m payload s)

/-- LOAD (R64). -/
def execLoad (m : OrderMeta) (slot : Byte) (s : State) : Host.Outcome State Fault Refusal := .next (serve m (orderLoad slot) s)

/-- UNLOAD (R65). -/
def execUnload (m : OrderMeta) (s : State) : Host.Outcome State Fault Refusal := .next (serve m orderUnload s)

/-- START (R66). -/
def execStart (m : OrderMeta) (s : State) : Host.Outcome State Fault Refusal := .next (serve m orderStart s)

/-- HOLD (R78, R82). -/
def execHold (m : OrderMeta) (s : State) : Host.Outcome State Fault Refusal := .next (serve m orderHold s)

/-- RESUME (R81). -/
def execResume (m : OrderMeta) (s : State) : Host.Outcome State Fault Refusal := .next (serve m orderResume s)

/-- ABORT (R84). -/
def execAbort (m : OrderMeta) (s : State) : Host.Outcome State Fault Refusal := .next (serve m orderAbort s)

/-- CLEAR_FAULT (R88). -/
def execClearFault (m : OrderMeta) (s : State) : Host.Outcome State Fault Refusal := .next (serve m orderClearFault s)

/-- READ_RESULT (R90, R191). -/
def execReadResult (m : OrderMeta) (position : Byte) (s : State) : Host.Outcome State Fault Refusal :=
  .next (serve m (orderReadResult position) s)

/-- An order's owner, or RANGE where the payload has not the length the order requires (R184). -/
def ofLength (good : Bool) (owner : State → Reply) : State → Reply := if good then owner else refuse .range

/-- WRITE_HEADER (R102). -/
def execWriteHeader (m : OrderMeta) (slot part : Byte) (contents : List Byte) (s : State) : Host.Outcome State Fault Refusal :=
  .next (serve m (ofLength (contents.length == headerLength part) (orderWriteHeader slot part contents)) s)

/-- WRITE_STEP (R103). -/
def execWriteStep (m : OrderMeta) (slot index : Byte) (contents : List Byte) (s : State) : Host.Outcome State Fault Refusal :=
  .next (serve m (ofLength (contents.length == 32) (orderWriteStep slot index contents)) s)

/-- CLOSE_RECIPE (R104). -/
def execCloseRecipe (m : OrderMeta) (slot : Byte) (s : State) : Host.Outcome State Fault Refusal :=
  .next (serve m (orderCloseRecipe slot) s)

/-- ERASE_RECIPE (R105). -/
def execEraseRecipe (m : OrderMeta) (slot : Byte) (s : State) : Host.Outcome State Fault Refusal :=
  .next (serve m (orderEraseRecipe slot) s)

/-- ERASE_STORE (R106). -/
def execEraseStore (m : OrderMeta) (s : State) : Host.Outcome State Fault Refusal := .next (serve m orderEraseStore s)

/-- LOCK_STORE (R107). -/
def execLockStore (m : OrderMeta) (s : State) : Host.Outcome State Fault Refusal := .next (serve m orderLockStore s)

/-- READ_RECIPE (R108). -/
def execReadRecipe (m : OrderMeta) (slot kind part : Byte) (s : State) : Host.Outcome State Fault Refusal :=
  .next (serve m (orderReadRecipe slot kind part) s)

/-- SUM_RECIPE (R108). -/
def execSumRecipe (m : OrderMeta) (slot : Byte) (s : State) : Host.Outcome State Fault Refusal :=
  .next (serve m (orderSumRecipe slot) s)

/-- WRITE_PROFILE (R109). -/
def execWriteProfile (m : OrderMeta) (profile count : Byte) (contents : List Byte) (s : State) : Host.Outcome State Fault Refusal :=
  .next (serve m (ofLength (contents.length == 3 * count.toNat) (orderWriteProfile profile count contents)) s)

/-- DISK_REPLACED (R142). -/
def execDiskReplaced (m : OrderMeta) (s : State) : Host.Outcome State Fault Refusal := .next (serve m orderDiskReplaced s)

/-- PAD_REPLACED (R142). -/
def execPadReplaced (m : OrderMeta) (s : State) : Host.Outcome State Fault Refusal := .next (serve m orderPadReplaced s)

/-- QUERY_STATUS (R192, R200). -/
def execQueryStatus (m : OrderMeta) (page : Byte) (s : State) : Host.Outcome State Fault Refusal :=
  .next (serve m (orderQueryStatus page) s)

/-- CLEAR_EVENTS (R201). -/
def execClearEvents (m : OrderMeta) (mask : BitVec 16) (s : State) : Host.Outcome State Fault Refusal :=
  .next (serve m (orderClearEvents mask) s)

/-- RESTART (R202). -/
def execRestart (m : OrderMeta) (s : State) : Host.Outcome State Fault Refusal := .next (serve m (orderRestart m.toAll) s)

end Sys2Proof.Machine
end

