-- ==== Sys2Proof/Machine/CmdSequencer.lean ====
section
/-! DEFINITION. The meanings of the sequencer's events (Chapter 4). -/

namespace Sys2Proof.Machine

open Sys2Proof

/-- STEP_START (R68). -/
def execStepStart (s : State) : Host.Outcome State Fault Refusal :=
  .next (whenDue (s.started && startDue s) s (fun s => settle (beginStep s)))

/-- The min time has been reached: the matchers are armed from here on, and a DOSE step with its dose ends (R73, R153). -/
def reachMinTime (s : State) : State := checkDose (s.setSeq { s.seq with minReached := true })

/-- MIN_TIME_REACHED (R73). -/
def execMinTimeReached (s : State) : Host.Outcome State Fault Refusal :=
  .next (whenDue (s.started && minTimeDue s) s (fun s => settle (reachMinTime s)))

/-- STEP_LIMIT_REACHED (R72 to R75). -/
def execStepLimitReached (s : State) : Host.Outcome State Fault Refusal :=
  .next (whenDue (s.started && limitDue s) s (fun s => settle (reachLimit s)))

/-- OVERPOLISH_END (R74). -/
def execOverpolishEnd (s : State) : Host.Outcome State Fault Refusal :=
  .next (whenDue (s.started && overpolishDue s) s (fun s => settle (endStep .doneEndpoint s)))

/-- WAIT_LONG (R69). -/
def execWaitLong (s : State) : Host.Outcome State Fault Refusal := .next (whenDue (s.started && waitLongDue s) s sendWaitLong)

/-- ENDING_COMPLETE (R83). -/
def execEndingComplete (s : State) : Host.Outcome State Fault Refusal :=
  .next (whenDue (s.started && endingDue s) s (fun s => settle (completeEnding s)))

/-- ABORTING_COMPLETE (R86). -/
def execAbortingComplete (s : State) : Host.Outcome State Fault Refusal :=
  .next (whenDue (s.started && abortDone s) s (fun s => settle (completeAbort false s)))

/-- ABORT_TIMEOUT (R86). -/
def execAbortTimeout (s : State) : Host.Outcome State Fault Refusal :=
  .next (whenDue (s.started && abortTimeoutDue s) s (fun s => settle (completeAbort true s)))

end Sys2Proof.Machine
end

