-- ==== Sys2Proof/Machine/CmdStart.lean ====
section
/-! DEFINITION. The meanings of the resets, of start-up, and of the events of PEER and SHR (Chapters 1, 2 and 11). -/

namespace Sys2Proof.Machine

open Sys2Proof

/-- POWER_ON: every block takes its after-reset state with cause POWER_ON; a reset line held active through it, and a supply that is
still low, keep the part in reset (R199). -/
def execPowerOn (s : State) : Host.Outcome State Fault Refusal := .next (doReset .powerOn s.cfg.held s)

/-- RESET_LINE: the release of the reset line (R199). -/
def execResetLine (s : State) : Host.Outcome State Fault Refusal := .next (releaseReset s)

/-- RESET_LINE_ACTIVE: the part is held in reset with cause RESET_LINE (R199). -/
def execResetLineActive (s : State) : Host.Outcome State Fault Refusal := .next (activateReset s)

/-- SETTLE_END (R195). -/
def execSettleEnd (s : State) : Host.Outcome State Fault Refusal := .next (whenDue (settleDue s) s (fun s => settle (endSettle s)))

/-- LISTEN_END (R196). -/
def execListenEnd (s : State) : Host.Outcome State Fault Refusal := .next (whenDue (!s.inReset && listenDue s) s enterReady)

/-- REFRESH_TICK (R5, R14, R20, R22). -/
def execRefreshTick (s : State) : Host.Outcome State Fault Refusal :=
  .next (whenDue (s.started && refreshDue s) s (fun s => settle (countListen (refresh s))))

/-- ENTRY_STALE (R5). -/
def execEntryStale (node : Nat) (s : State) : Host.Outcome State Fault Refusal :=
  .next (whenDue (s.started && staleDue node s) s (fun s => settle (makeStale node s)))

/-- ENTRY_REMOVED (R5). -/
def execEntryRemoved (node : Nat) (s : State) : Host.Outcome State Fault Refusal :=
  .next (whenDue (s.started && removeDue node s) s (fun s => settle (removeEntry node s)))

/-- ISOLATION_BEGUN (R15). -/
def execIsolationBegun (s : State) : Host.Outcome State Fault Refusal :=
  .next (whenDue (s.started && isolationDue s) s (fun s => settle (beginIsolation s)))

/-- k of a feed falls by 1 and SHR runs for the feed (R22, R23). -/
def stepDerate (f : Feed) (s : State) : State := shrRun f (s.setShr (s.shr.set f (s.shr.get f).decrement))

/-- DERATE_DECREMENT (R22). -/
def execDerateDecrement (f : Feed) (s : State) : Host.Outcome State Fault Refusal :=
  .next (whenDue (s.started && derateDue f s) s (fun s => settle (stepDerate f s)))

/-- The effective grant of a feed takes its computed grant (R35). -/
def expireHoldOff (f : Feed) (s : State) : State := s.setShr (s.shr.set f (s.shr.get f).expire)

/-- HOLD_OFF_EXPIRY (R35). -/
def execHoldOffExpiry (f : Feed) (s : State) : Host.Outcome State Fault Refusal :=
  .next (whenDue (s.started && (s.shr.get f).expiryDue s.now) s (fun s => settle (expireHoldOff f s)))

end Sys2Proof.Machine
end

