-- ==== Sys2Proof/Machine/CmdStore.lean ====
section
/-! DEFINITION. The meanings of the recipe store's timed events (Chapter 5). -/

namespace Sys2Proof.Machine

open Sys2Proof

/-- ERASE_STORE_TARGET_DONE (R106). -/
def execEraseStoreTargetDone (s : State) : Host.Outcome State Fault Refusal :=
  .next (whenDue (s.started && eraseTargetDue s) s eraseTarget)

/-- STORE_OP_COMPLETE (R101). -/
def execStoreOpComplete (s : State) : Host.Outcome State Fault Refusal := .next (whenDue (s.started && opDue s) s completeOp)

/-- ACCUMULATION_TIMEOUT (R110). -/
def execAccumulationTimeout (s : State) : Host.Outcome State Fault Refusal :=
  .next (whenDue (s.started && accumulationDue s) s writeBack)

end Sys2Proof.Machine
end

