-- ==== Sys2Proof/Machine/CmdTool.lean ====
section
/-! DEFINITION. The meanings of the interlock, tool-mode and drive events (Chapter 9). -/

namespace Sys2Proof.Machine

open Sys2Proof

/-- A line whose debounce is 0 takes its raw level at once (R164). -/
def takeAtOnce (l : Line) (s : State) : State :=
  whenDue ((s.img.lines.get l).debounce == 0 && debounceDue l s) s (fun s => settle (takeLine l s))

/-- LINE_LEVEL_CHANGE: the line's raw level changes, and with a debounce of 0 it is taken at once; one that stood and was due is taken
before it changes (R164). -/
def execLineLevelChange (l : Line) (high : Bool) (s : State) : Host.Outcome State Fault Refusal :=
  .next (takeAtOnce l (setRaw l high (takeAtOnce l s)))

/-- DEBOUNCE_EXPIRY (R164 to R167). -/
def execDebounceExpiry (l : Line) (s : State) : Host.Outcome State Fault Refusal :=
  .next (whenDue (debounceDue l s) s (fun s => settle (takeLine l s)))

/-- MODE_LINES_CHANGE (R170). -/
def execModeLinesChange (first second : Bool) (s : State) : Host.Outcome State Fault Refusal := .next (setModeLines first second s)

/-- MODE_DECODED (R170, R171). -/
def execModeDecoded (s : State) : Host.Outcome State Fault Refusal := .next (whenDue (modeDue s) s (fun s => settle (decodeMode s)))

/-- DRIVE_FEEDBACK (R173, R174). -/
def execDriveFeedback (d : Drive) (tach estimate : Nat) (s : State) : Host.Outcome State Fault Refusal := .next (takeFeedback d tach estimate s)

/-- A drive at speed (R173). -/
def reachSpeed (d : Drive) (s : State) : State := s.setDrive d { s.drive d with atSpeed := true }

/-- AT_SPEED (R173). -/
def execAtSpeed (d : Drive) (s : State) : Host.Outcome State Fault Refusal := .next (whenDue (s.started && atSpeedDue d s) s (reachSpeed d))

/-- TACH_PULSE (R174). -/
def execTachPulse (d : Drive) (s : State) : Host.Outcome State Fault Refusal := .next (takeTachPulse d s)

/-- TACH_LOST (R174). -/
def execTachLost (d : Drive) (s : State) : Host.Outcome State Fault Refusal :=
  .next (whenDue (s.started && tachLostDue d s) s (fun s => settle (loseTach d s)))

/-- TACH_RESTORED (R174). -/
def execTachRestored (d : Drive) (s : State) : Host.Outcome State Fault Refusal :=
  .next (whenDue (s.started && tachRestoredDue d s) s (fun s => settle (restoreTach d s)))

/-- A trip input's level. -/
def setTrip (d : Drive) (active : Bool) (s : State) : State := s.setPins { s.pins with trip := s.pins.trip.set d active }

/-- DRIVE_TRIP: the input becomes active; from the end of LOADING on the command falls to 0 and the fault is reported (R175, R176). -/
def execDriveTrip (d : Drive) (s : State) : Host.Outcome State Fault Refusal :=
  .next (whenDue (s.started && !s.pins.trip.get d) (setTrip d true s)
    (fun s => settle (takeFault .driveTrip (holdTripped d s))))

/-- DRIVE_TRIP_RELEASE: the input becomes inactive and the command starts from 0 toward the setpoint (R175). -/
def execDriveTripRelease (d : Drive) (s : State) : Host.Outcome State Fault Refusal :=
  .next (whenDue (s.started && s.pins.trip.get d) (setTrip d false s) (releaseTrip d))

/-- DRIVE_COMMAND_AT_SETPOINT (R172, R173). -/
def execDriveCommandAtSetpoint (d : Drive) (s : State) : Host.Outcome State Fault Refusal :=
  .next (whenDue (s.started && rampDoneDue d s) s (endDriveRamp d))

end Sys2Proof.Machine
end

