-- ==== Sys2Proof/Machine/Dispatch.lean ====
section
/-! DEFINITION. One arm per command: the call of its meaning. -/

namespace Sys2Proof.Machine

open Sys2Proof

def exec (i : Instr) (s : State) : Host.Outcome State Fault Refusal :=
  match i with
  | .powerOn => Sys2Proof.Machine.execPowerOn s
  | .resetLine => Sys2Proof.Machine.execResetLine s
  | .settleEnd => Sys2Proof.Machine.execSettleEnd s
  | .listenEnd => Sys2Proof.Machine.execListenEnd s
  | .refreshTick => Sys2Proof.Machine.execRefreshTick s
  | .entryStale node => Sys2Proof.Machine.execEntryStale node s
  | .entryRemoved node => Sys2Proof.Machine.execEntryRemoved node s
  | .isolationBegun => Sys2Proof.Machine.execIsolationBegun s
  | .derateDecrement f => Sys2Proof.Machine.execDerateDecrement f s
  | .holdOffExpiry f => Sys2Proof.Machine.execHoldOffExpiry f s
  | .frameReceived bytes => Sys2Proof.Machine.execFrameReceived bytes s
  | .demandReceived source payload => Sys2Proof.Machine.execDemandReceived source payload s
  | .stopReceived => Sys2Proof.Machine.execStopReceived s
  | .unknownOrder m payload => Sys2Proof.Machine.execUnknownOrder m payload s
  | .load m slot => Sys2Proof.Machine.execLoad m slot s
  | .unload m => Sys2Proof.Machine.execUnload m s
  | .start m => Sys2Proof.Machine.execStart m s
  | .hold m => Sys2Proof.Machine.execHold m s
  | .resume m => Sys2Proof.Machine.execResume m s
  | .abort m => Sys2Proof.Machine.execAbort m s
  | .clearFault m => Sys2Proof.Machine.execClearFault m s
  | .readResult m position => Sys2Proof.Machine.execReadResult m position s
  | .writeHeader m slot part contents => Sys2Proof.Machine.execWriteHeader m slot part contents s
  | .writeStep m slot index contents => Sys2Proof.Machine.execWriteStep m slot index contents s
  | .closeRecipe m slot => Sys2Proof.Machine.execCloseRecipe m slot s
  | .eraseRecipe m slot => Sys2Proof.Machine.execEraseRecipe m slot s
  | .eraseStore m => Sys2Proof.Machine.execEraseStore m s
  | .eraseStoreTargetDone => Sys2Proof.Machine.execEraseStoreTargetDone s
  | .lockStore m => Sys2Proof.Machine.execLockStore m s
  | .readRecipe m slot kind part => Sys2Proof.Machine.execReadRecipe m slot kind part s
  | .sumRecipe m slot => Sys2Proof.Machine.execSumRecipe m slot s
  | .writeProfile m profile count contents => Sys2Proof.Machine.execWriteProfile m profile count contents s
  | .storeOpComplete => Sys2Proof.Machine.execStoreOpComplete s
  | .diskReplaced m => Sys2Proof.Machine.execDiskReplaced m s
  | .padReplaced m => Sys2Proof.Machine.execPadReplaced m s
  | .accumulationTimeout => Sys2Proof.Machine.execAccumulationTimeout s
  | .queryStatus m page => Sys2Proof.Machine.execQueryStatus m page s
  | .clearEvents m mask => Sys2Proof.Machine.execClearEvents m mask s
  | .restart m => Sys2Proof.Machine.execRestart m s
  | .transmitStart => Sys2Proof.Machine.execTransmitStart s
  | .frameSent => Sys2Proof.Machine.execFrameSent s
  | .echoMismatch => Sys2Proof.Machine.execEchoMismatch s
  | .valveFeedbackFault ch p => Sys2Proof.Machine.execValveFeedbackFault ch p s
  | .nonOverlapEnd ch => Sys2Proof.Machine.execNonOverlapEnd ch s
  | .flushDone => Sys2Proof.Machine.execFlushDone s
  | .postRinseWaitEnd => Sys2Proof.Machine.execPostRinseWaitEnd s
  | .postRinseDone => Sys2Proof.Machine.execPostRinseDone s
  | .warmUpEnd ch => Sys2Proof.Machine.execWarmUpEnd ch s
  | .strokePulse ch => Sys2Proof.Machine.execStrokePulse ch s
  | .flowmeterPulse ch => Sys2Proof.Machine.execFlowmeterPulse ch s
  | .crossCheckWindow ch => Sys2Proof.Machine.execCrossCheckWindow ch s
  | .flowMismatch ch => Sys2Proof.Machine.execFlowMismatch ch s
  | .flowRestored ch => Sys2Proof.Machine.execFlowRestored ch s
  | .supplyLowRaise ch => Sys2Proof.Machine.execSupplyLowRaise ch s
  | .supplyLowClear ch => Sys2Proof.Machine.execSupplyLowClear ch s
  | .supplyPersist => Sys2Proof.Machine.execSupplyPersist s
  | .pumpBlocked ch => Sys2Proof.Machine.execPumpBlocked ch s
  | .stepStart => Sys2Proof.Machine.execStepStart s
  | .minTimeReached => Sys2Proof.Machine.execMinTimeReached s
  | .stepLimitReached => Sys2Proof.Machine.execStepLimitReached s
  | .overpolishEnd => Sys2Proof.Machine.execOverpolishEnd s
  | .waitLong => Sys2Proof.Machine.execWaitLong s
  | .endingComplete => Sys2Proof.Machine.execEndingComplete s
  | .abortingComplete => Sys2Proof.Machine.execAbortingComplete s
  | .abortTimeout => Sys2Proof.Machine.execAbortTimeout s
  | .rampTick => Sys2Proof.Machine.execRampTick s
  | .rampEnd => Sys2Proof.Machine.execRampEnd s
  | .regulationTimeout c => Sys2Proof.Machine.execRegulationTimeout c s
  | .overpressure c => Sys2Proof.Machine.execOverpressure c s
  | .supplyWarn => Sys2Proof.Machine.execSupplyWarn s
  | .warnRearm => Sys2Proof.Machine.execWarnRearm s
  | .supplyAir => Sys2Proof.Machine.execSupplyAir s
  | .armArrival => Sys2Proof.Machine.execArmArrival s
  | .armParked => Sys2Proof.Machine.execArmParked s
  | .segmentBoundary => Sys2Proof.Machine.execSegmentBoundary s
  | .homeFound => Sys2Proof.Machine.execHomeFound s
  | .homeTimeout => Sys2Proof.Machine.execHomeTimeout s
  | .armPositionFault => Sys2Proof.Machine.execArmPositionFault s
  | .diskStall => Sys2Proof.Machine.execDiskStall s
  | .diskLifeIncrement => Sys2Proof.Machine.execDiskLifeIncrement s
  | .padLifeIncrement => Sys2Proof.Machine.execPadLifeIncrement s
  | .currentSample counts => Sys2Proof.Machine.execCurrentSample counts s
  | .symbolPeriodExpiry => Sys2Proof.Machine.execSymbolPeriodExpiry s
  | .lineLevelChange l high => Sys2Proof.Machine.execLineLevelChange l high s
  | .debounceExpiry l => Sys2Proof.Machine.execDebounceExpiry l s
  | .modeLinesChange first second => Sys2Proof.Machine.execModeLinesChange first second s
  | .modeDecoded => Sys2Proof.Machine.execModeDecoded s
  | .driveFeedback d tach estimate => Sys2Proof.Machine.execDriveFeedback d tach estimate s
  | .atSpeed d => Sys2Proof.Machine.execAtSpeed d s
  | .tachPulse d => Sys2Proof.Machine.execTachPulse d s
  | .tachLost d => Sys2Proof.Machine.execTachLost d s
  | .tachRestored d => Sys2Proof.Machine.execTachRestored d s
  | .driveTrip d => Sys2Proof.Machine.execDriveTrip d s
  | .driveTripRelease d => Sys2Proof.Machine.execDriveTripRelease d s
  | .resetLineActive => Sys2Proof.Machine.execResetLineActive s
  | .carrierBegins => Sys2Proof.Machine.execCarrierBegins s
  | .driveCommandAtSetpoint d => Sys2Proof.Machine.execDriveCommandAtSetpoint d s
  | .measuredPressureChange c value => Sys2Proof.Machine.execMeasuredPressureChange c value s

end Sys2Proof.Machine
end

