-- ==== Sys2Proof/Machine/Step.lean ====
section
/-! DEFINITION. One step of the block: the command at the front of its queue, or, on an empty queue, what the block does of
itself. -/

namespace Sys2Proof.Machine

open Sys2Proof

/-- The next command runs with the queue's rest; with none waiting, the block's own events and its time go on (log entry 1). -/
def step (s : State) : Host.Outcome State Fault Refusal :=
  match s.pending with
  | i :: rest => exec i (s.setPending rest)
  | [] => .next (idle s)

/-- The state with a command put at the front of its queue. -/
def State.push (s : State) (i : Instr) : State := s.setPending (i :: s.pending)

/-- The state with the command that a word spells put at the front of its queue; no row of this part's table has bits, so that no word
spells one. -/
def State.withFetchWord (s : State) (nbits w : Nat) : State :=
  match decodeTableWord nbits w with
  | some i => s.push i
  | none => s

end Sys2Proof.Machine
end

