-- ==== Sys2Proof/Safety.lean ====
section
/-! DEFINITION. What counts as a safe run, in the terms the statements use: the invariants the manual states of the whole part, and
the answer an order leaves behind. -/

namespace Sys2Proof.Machine

open Sys2Proof

/-- LNK's queues keep within their places, and the notices-lost count within its byte (R178, R186). -/
def QueuesFit (s : State) : Prop :=
  s.lnk.answers.length ≤ 4 ∧ s.lnk.notices.length ≤ 8 ∧ s.lnk.lost ≤ 255

/-- The sequencer is in HOLDING exactly when its hold-cause set is non-empty, and it then has a resume target (R77). -/
def HoldingIffCaused (s : State) : Prop :=
  (s.seq.state = .holding ↔ s.seq.causes.isEmpty = false) ∧ (s.seq.state = .holding → s.seq.resume.isSome = true)

/-- At most one feed valve of a channel is open (R39). -/
def OneOpen (d : Dispense) : Prop :=
  ∀ f g : Feed, (d.valves.get f).isOpen = true → (d.valves.get g).isOpen = true → f = g

/-- At most one valve per dispense channel is open, and the DI valve never together with a MAIN feed valve (R39). -/
def ValvesApart (s : State) : Prop :=
  (∀ c : Channel, OneOpen (s.chan c)) ∧
  (s.sdu.di.isOpen = true → ∀ f : Feed, ((s.chan .main).valves.get f).isOpen = false)

/-- One feed of the share calculator: the effective grant is never above the computed grant, the hold-off runs exactly while it is below,
and the derate step and the mark-free count keep their ranges (R21, R22, R33 to R35). -/
def FeedShare.HeldOff (x : FeedShare) : Prop :=
  x.effective ≤ x.computed ∧ (x.holdOff.isSome = true ↔ x.effective < x.computed) ∧ x.k ≤ 4 ∧ x.markFree ≤ 16

/-- Every feed of the share calculator. -/
def GrantsHeldOff (s : State) : Prop := ∀ f : Feed, (s.shr.get f).HeldOff

/-- A demand item of a peer entry within its ranges (R1, R3). -/
def Item.InRange (i : Item) : Prop := i.q ≤ 1000 ∧ i.m ≤ i.q ∧ 1 ≤ i.w ∧ i.w ≤ 8

/-- A peer entry: at most two items, on different feeds, each in its ranges, and an age at most 8 (R1, R3, R5). -/
def PeerEntry.InRange (e : PeerEntry) : Prop :=
  e.items.length ≤ 2 ∧ (e.items.map Item.feed).Nodup ∧ (∀ i ∈ e.items, i.InRange) ∧ e.age ≤ 8

/-- The peer table holds one entry a node, in rising order of node number, and every entry is in range (R1). -/
def TableInRange (s : State) : Prop :=
  s.peer.table.Pairwise (fun x y => x.node < y.node) ∧ ∀ e ∈ s.peer.table, e.InRange

/-- The state an answered order leaves: an ORDER to all nodes is not answered, and after DUPLICATE_NODE LNK discards the frame; else
the ANSWER with the order's tag, its code (Table 10-4) and its data joins the queue (R178, R180, R184, R185). -/
def answered (m : OrderMeta) (code : Nat) (data : List Byte) (s : State) : State :=
  if m.toAll = true ∨ s.silent = true then s
  else { s with lnk := { s.lnk with answers := s.lnk.answers ++ [⟨.answer, m.tag, byteOf code :: data, 0⟩] } }

/-- Every block stands at its after-reset state, with whatever the store keeps, the sensors read and the line carries (R17, R37, R61, R92, R112,
R130, R146, R162, R176, R193, R195); the values that no chapter gives are the model's choice, log entry 8. -/
def AfterReset (s : State) : Prop :=
  s.cfg = .reset s.cfg.cause s.cfg.held ∧ s.peer = .reset ∧ s.shr = .all .reset ∧ s.sdu = .reset ∧ s.seq = .reset ∧
  s.rcp.op = none ∧ s.rcp.accumulation = 0 ∧ s.hpc = .reset (s.hpc.ch.map HeadChan.measured) ∧
  s.pcc = .reset s.rcp.diskStored s.rcp.padStored ∧ s.epm = .reset ∧ s.ilk = .reset ∧ s.drv = .reset ∧
  s.lnk = .reset s.lnk.carrier

/-- The blocks that carrying a change through never touches, whatever the sequencer's state. -/
def KeptBySettle (s t : State) : Prop :=
  t.cfg = s.cfg ∧ t.rcp = s.rcp ∧ t.ilk = s.ilk ∧ t.pins = s.pins ∧ t.now = s.now ∧ t.freeCount = s.freeCount ∧
  t.pending = s.pending ∧ t.peer.table = s.peer.table ∧ t.peer.refresh = s.peer.refresh ∧
  t.peer.quiet = s.peer.quiet ∧ t.peer.isolated = s.peer.isolated ∧ t.sdu.dose = s.sdu.dose ∧
  t.sdu.mismatch = s.sdu.mismatch ∧ t.seq.copy = s.seq.copy ∧ t.seq.index = s.seq.index ∧
  t.seq.elapsed = s.seq.elapsed ∧ t.lnk.answers = s.lnk.answers ∧ t.lnk.carrier = s.lnk.carrier

/-- The blocks that carrying a change through leaves alone while SEQ takes no report of SDU: the sequencer, the head, the arm, the
endpoint monitor, the drives, the notices and the valves. -/
def DirectedBlocksStand (s t : State) : Prop :=
  t.seq = s.seq ∧ t.hpc = s.hpc ∧ t.pcc = s.pcc ∧ t.epm = s.epm ∧ t.drv = s.drv ∧
  t.lnk.notices = s.lnk.notices ∧ t.lnk.lost = s.lnk.lost ∧ t.peer.lowFeeds = s.peer.lowFeeds ∧ t.sdu.di = s.sdu.di

/-- Five zone pressures within their maxima, and no two adjacent zones further apart than D (R119). -/
def ZonesWithin (maxima : PerHead Nat) (d : Nat) (v : PerHead Nat) : Prop :=
  (v.z1 ≤ maxima.z1 ∧ v.z2 ≤ maxima.z2 ∧ v.z3 ≤ maxima.z3 ∧ v.z4 ≤ maxima.z4 ∧ v.z5 ≤ maxima.z5 ∧ v.rr ≤ maxima.rr) ∧
  (v.z1 ≤ v.z2 + d ∧ v.z2 ≤ v.z1 + d) ∧ (v.z2 ≤ v.z3 + d ∧ v.z3 ≤ v.z2 + d) ∧
  (v.z3 ≤ v.z4 + d ∧ v.z4 ≤ v.z3 + d) ∧ (v.z4 ≤ v.z5 + d ∧ v.z5 ≤ v.z4 + d)

/-- The recipe store holds 16 slots and 4 sweep profiles (R93, R99). -/
def StoreSized (s : State) : Prop := s.rcp.slots.length = 16 ∧ s.rcp.profiles.length = 4

/-- A ramp in progress as it stands: starts and targets within the clamp and the envelope, every channel RAMPING at the value of its tick
(R119 to R121). -/
def RampWithin (s : State) (r : Ramp) : Prop :=
  r.k ≤ r.n ∧ ZonesWithin s.img.headMax s.img.zoneDiff r.starts ∧ ZonesWithin s.img.headMax s.img.zoneDiff s.targets ∧
  ∀ c : HeadCh, (s.head c).state = .ramping ∧
    (s.head c).applied = rampValue (r.starts.get c) (s.head c).target r.k r.n

/-- The head keeps to the clamp and the zone envelope (R119): the applied values and the step targets do, and so does a ramp in progress. A
channel is in CHANNEL_FAULT only with its fault in the record, in ABORTING or FAULTED (R87, R125, R126), and before the image is in force SEQ is
EMPTY and the head stands vented with no step targets (R92, R130). -/
def HeadWithin (s : State) : Prop :=
  ZonesWithin s.img.headMax s.img.zoneDiff s.applied ∧ ZonesWithin s.img.headMax s.img.zoneDiff s.hpc.stepTargets ∧
  (∀ r, s.hpc.ramp = some r → RampWithin s r) ∧
  (∀ c : HeadCh, (s.head c).state = .channelFault →
    s.seq.state = .faulted ∨ (s.seq.state = .aborting ∧ s.seq.first.isSome = true)) ∧
  (s.cfg.startUp = .settle ∨ s.cfg.startUp = .loading ∨ s.cfg.startUp = .configFault →
    s.seq.state = .empty ∧ s.applied = .all 0 ∧ s.hpc.stepTargets = .all 0 ∧ s.hpc.ramp = none)

/-- What the sequencer's own events never touch: CFG, the recipe store, ILK, the pins, the peer table with its refresh timer and quiet
count, and the queue of commands. -/
def OutsideStands (s t : State) : Prop :=
  t.cfg = s.cfg ∧ t.rcp = s.rcp ∧ t.ilk = s.ilk ∧ t.pins = s.pins ∧ t.now = s.now ∧ t.freeCount = s.freeCount ∧
  t.pending = s.pending ∧ t.peer.table = s.peer.table ∧ t.peer.refresh = s.peer.refresh ∧
  t.peer.quiet = s.peer.quiet ∧ t.peer.isolated = s.peer.isolated

/-- The run record entry of the step as it stands (Table 4-7): hold time and dose at most 65535. -/
def stepEntry (s : State) (r : StepResult) : RunEntry :=
  ⟨s.seq.index, r, s.seq.elapsed / 100000, min 65535 (s.seq.hold / 100000), min 65535 (s.sdu.dose / 100), s.seq.endpoint,
    s.seq.flags⟩

/-- The step has ended with a result (R82): its entry joins the run record with STEP_ENDED, ENDING is entered with both cause sets empty, the
symbolizer stops, a swung-out arm lifts, the head takes its hold levels, both drives keep their speeds, and the dose stands. -/
def EndsStep (r : StepResult) (s t : State) : Prop :=
  t.seq = { s.seq with
    state := .ending, causes := .empty, deferred := .empty, resume := none, record := s.seq.record ++ [stepEntry s r] } ∧
  t.lnk.notices = (placeNotice 4 (stepEntry s r).bytes s).lnk.notices ∧ t.lnk.answers = s.lnk.answers ∧
  t.epm = { s.epm with state := .stopped, periodTimer := 0 } ∧
  t.pcc = { s.pcc with
    arm := if s.pcc.arm = .movingIn ∨ s.pcc.arm = .sweeping then .lifting else s.pcc.arm
    downforce := if s.pcc.arm = .movingIn ∨ s.pcc.arm = .sweeping then 0 else s.pcc.downforce
    stallTimer := 0, resume := none, withdrawn := false } ∧
  (∀ c : HeadCh, (s.head c).state ≠ .channelFault → (t.head c).target = (holdTargets s.img).get c) ∧
  t.drv = s.drv ∧ t.sdu.dose = s.sdu.dose ∧ OutsideStands s t

/-- The run record entry that cutting the step leaves (R85): one of result CUT for a WAITING, RUNNING or HOLDING step without an entry yet, and
none for a step already recorded, in ENDING or held CONCLUDED. -/
def cutOf (s : State) : List RunEntry :=
  if (s.seq.state = .waiting ∨ s.seq.state = .running ∨ s.seq.state = .holding) ∧ ∀ e ∈ s.seq.record, e.index ≠ s.seq.index then
    [stepEntry s .cut]
  else []

/-- The step has been cut (R85): its CUT entry, where it leaves one, joins the run record with STEP_ENDED behind the notices before it. -/
def CutsStep (s t : State) : Prop :=
  let noticed := (cutOf s).foldl (fun u e => placeNotice 4 e.bytes u) s
  t.seq.record = s.seq.record ++ cutOf s ∧ t.lnk.notices = noticed.lnk.notices ∧ t.lnk.lost = noticed.lnk.lost

/-- A fault of a kind has been reported to a started sequencer (R87): first in the record, with ABORTING for a run and FAULTED at rest; in
ABORTING first only where no fault was; later in FAULTED. FAULT is queued with the kind, first (0) or later (1), and the state of its arrival, and
in a run that cuts a step STEP_ENDED for the CUT entry follows it (R85). -/
def FaultReported (k : FaultKind) (s t : State) : Prop :=
  let noticed : Byte → State := fun later => placeNotice 8 [byteOf (numKind k), later, byteOf (numState s.seq.state)] s
  let queued : State → Prop := fun u => t.lnk.notices = u.lnk.notices ∧ t.lnk.lost = u.lnk.lost
  (s.seq.state.inRun = true → t.seq.state = .aborting ∧ t.seq.result = .faulted ∧ t.seq.first = some k ∧
    t.seq.causes = CauseSet.empty ∧ t.seq.deferred = CauseSet.empty ∧ t.seq.abortTimer = some 0 ∧
    (∀ d : Drive, (t.drive d).setpoint = 0) ∧ CutsStep (noticed 0) t) ∧
  (s.seq.state = .empty ∨ s.seq.state = .loaded ∨ s.seq.state = .done →
    t.seq = { s.seq with state := .faulted, first := some k } ∧ queued (noticed 0)) ∧
  (s.seq.state = .aborting → s.seq.first = none → t.seq = { s.seq with first := some k } ∧ queued (noticed 0)) ∧
  (s.seq.state = .aborting → s.seq.first ≠ none →
    t.seq = { s.seq with later := s.seq.later.add k } ∧ queued (noticed 1)) ∧
  (s.seq.state = .faulted → t.seq = { s.seq with later := s.seq.later.add k } ∧ queued (noticed 1)) ∧
  t.sdu.dose = s.sdu.dose ∧ t.lnk.answers = s.lnk.answers ∧ OutsideStands s t

end Sys2Proof.Machine
end

