-- ==== Sys2Proof/Certificates/Slice0/Obligations.lean ====
section
/-! DEFINITION. The statements for the provers. -/

open Sys2Proof Sys2Proof.Machine

/-! ### The queue of commands -/

/-- With commands waiting, one step is the meaning of the first of them, on the state with the queue's rest. -/
def Obligations.StepRunsFrontCommand : Prop :=
  ∀ (c : Instr) (rest : List Instr) (s : State), s.pending = c :: rest → step s = exec c { s with pending := rest }

/-- With no command waiting, a step puts one event of the part's own that is due in front, or, when none is due, lets one microsecond
pass. The model's choice: log entries 1 and 3.

The step timers count only in their own state: elapsed time in RUNNING up to the limit, hold time in HOLDING up to 6553.5 s, waiting
time in WAITING up to the waiting limit; the refresh timer runs in every started state. -/
def Obligations.TimePassesWhenNothingIsDue : Prop :=
  (∀ s : State, s.pending = [] →
     (dueList s = [] → step s = .next (tick s)) ∧
     (dueList s ≠ [] → ∃ i ∈ dueList s, ∃ n, step s = .next { s with pending := [i], freeCount := n })) ∧
  (∀ s : State, s.started = true →
     (tick s).seq.elapsed =
       (if s.seq.state = .running then min (tenths ((s.stepNow.map StepRec.limit).getD 0)) (s.seq.elapsed + 1)
        else s.seq.elapsed) ∧
     (tick s).seq.hold = (if s.seq.state = .holding then min (65535 * 100000) (s.seq.hold + 1) else s.seq.hold) ∧
     (tick s).seq.waiting =
       (if s.seq.state = .waiting then min (1000000 * s.img.waitingLimit) (s.seq.waiting + 1) else s.seq.waiting) ∧
     (tick s).peer.refresh = s.peer.refresh.map (fun t => min s.period (t + 1)) ∧
     (tick s).seq.state = s.seq.state ∧ (tick s).now = s.now + 1)

/-- What carrying a change through the blocks does. It never touches CFG, RCP, ILK, the pins, the peer table, the answers or the dose; it leaves
the own record that the sequencer's state, step, hold causes, tool mode and low feeds give, u and SHARE as that record and the grants give
them, and the pump rates of Table 3-3. Outside RUNNING and HOLDING the sequencer and the blocks it directs stand; in HOLDING with a cause that SDU
cannot withdraw, only SHARE and SUPPLY can leave the set, and the blocks it directs stand.

The record: in WAITING, RUNNING and HOLDING, outside LOCKOUT, the items of a step that names a main feed, their requests held to the pump maxima,
and lowered to the floors while HOLDING for a cause other than SHARE or SUPPLY; in all else it is IDLE with no items. u is the smallest of the MAIN
request, its effective grant and what the additive grant allows; SHARE holds while u is below the MAIN floor. A pump on slurry never draws more
than the effective grant of its item. -/
def Obligations.SettleBringsRecordAndFlowUpToDate : Prop :=
  (∀ s : State, KeptBySettle s (settle s) ∧
    (s.started = true →
      let t := settle s
      t.peer.own = buildRecord t ∧ t.sdu.u = usable t ∧ t.sdu.share = shareCondition t (usable t) ∧
      t.sdu.blend = blendRate t (usable t) ∧ (t.chan .main).rate = mainRate t ∧ (t.chan .additive).rate = additiveRate t ∧
      (s.seq.state ≠ .running → s.seq.state ≠ .holding → t.peer.own = buildRecord s) ∧
      (t.seq.state = .running → t.stepKind = some .polish → (∀ v, (t.chan .main).switch ≠ .flush v) →
        (∀ v, (t.chan .main).switch ≠ .postRinse v) →
        (∀ it, t.peer.own.main = some it → (t.chan .main).rate ≤ (t.shr.get it.feed).effective) ∧
        (∀ it, t.peer.own.additive = some it → (t.chan .additive).rate ≤ (t.shr.get it.feed).effective)) ∧
      (s.seq.state = .holding →
        s.seq.causes.notForSlurry = true ∨
          (s.seq.causes.supply = true ∧ ((s.chan .main).supplyLow = true ∨ (s.chan .additive).supplyLow = true)) →
        t.seq = { s.seq with causes := { s.seq.causes with
          share := t.seq.causes.share
          supply := s.seq.causes.supply && ((s.chan .main).supplyLow || (s.chan .additive).supplyLow) } } ∧
        t.hpc = s.hpc ∧ t.pcc = s.pcc ∧ t.epm = s.epm ∧ t.drv = s.drv ∧ t.lnk.notices = s.lnk.notices ∧
        t.peer.lowFeeds = s.peer.lowFeeds)) ∧
    (s.seq.state ≠ .running → s.seq.state ≠ .holding → DirectedBlocksStand s (settle s))) ∧
  (∀ s : State,
    let slurry : Summary → Prop := fun x =>
      (s.seq.state = .waiting ∧ x = .waiting) ∨ (s.seq.state = .running ∧ x = .running) ∨ (s.seq.state = .holding ∧ x = .holding)
    (∀ (x : Summary) (st : StepRec) (f : Feed), slurry x → s.ilk.mode ≠ .lockout → s.stepNow = some st → st.mainFeed = some f →
      let asked := min st.flow s.img.pumpMax.main
      let floor := min st.floor asked
      let q := if s.seq.state = .holding ∧ s.seq.causes.notForSlurry = true then floor else asked
      let blended : Nat → Nat := fun v => min ((v * st.ratio + 99) / 100) s.img.pumpMax.additive
      buildRecord s = ⟨x, some ⟨f, q, floor, st.weight, s.peer.lowFeeds.get f⟩,
        st.addFeed.map (fun g => ⟨g, blended q, blended floor, st.weight, s.peer.lowFeeds.get g⟩)⟩) ∧
    ((∀ x, ¬slurry x) ∨ s.ilk.mode = .lockout ∨ (∀ st, s.stepNow = some st → st.mainFeed = none) →
      buildRecord s = ⟨.idle, none, none⟩) ∧
    (let g : Feed → Nat := fun f => (s.shr.get f).effective
     let r := (s.stepNow.map StepRec.ratio).getD 1
     (s.peer.own.main = none → usable s = 0 ∧ ∀ u, shareCondition s u = false) ∧
     (∀ it, s.peer.own.main = some it →
       (s.peer.own.additive = none → usable s = min it.q (g it.feed) ∧ ∀ u, blendRate s u = 0) ∧
       (∀ ad, s.peer.own.additive = some ad →
         usable s = min it.q (min (g it.feed) (g ad.feed * 100 / r)) ∧ ∀ u, blendRate s u = u * r / 100) ∧
       ∀ u, shareCondition s u = decide (u < it.m))) ∧
    (let diOpen := s.sdu.di.isOpen
     (∀ v, (s.chan .main).switch = .flush v ∨ (s.chan .main).switch = .postRinse v →
       mainRate s = if diOpen = true then 200 else 0) ∧
     ((∀ v, (s.chan .main).switch ≠ .flush v) → (∀ v, (s.chan .main).switch ≠ .postRinse v) →
       (s.seq.state ≠ .running → mainRate s = 0) ∧
       (∀ st, s.seq.state = .running → s.stepNow = some st →
         (st.kind = .polish → mainRate s = if (s.chan .main).openFeed.isSome = true then s.sdu.u else 0) ∧
         (st.kind = .rinse → mainRate s = if diOpen = true then min st.flow s.img.pumpMax.main else 0) ∧
         (st.kind = .condition → mainRate s = 0))) ∧
     (s.seq.state ≠ .running ∨ s.stepKind ≠ some .polish ∨ (s.chan .additive).openFeed = none → additiveRate s = 0) ∧
     (s.seq.state = .running → s.stepKind = some .polish → (s.chan .additive).openFeed.isSome = true →
       additiveRate s = s.sdu.blend)))

/-! ### Resets -/

/-- Every reset, of power, of the reset line or by a RESTART order: every block at its after-reset state, the recipe store's contents, lock,
stored counters and in-progress mark kept, the cause recorded, and the part held or released as the reset line says. While the part is in reset
and no command waits, only the time passes, and whatever command comes, a frame on the line included, every block stands at its after-reset state,
so that a part held in reset begins its start-up from there when it is released.

The model's choice: that the pins, the clock, the free-value counter, the queue and another node's carrier go on over a reset, the pin of a low
supply and the cause POWER_ON with the line held are log entry 26; the values that no chapter gives are those of log entry 8. -/
def Obligations.ResetsReturnEveryBlock : Prop :=
  ∀ s : State,
    let after : ResetCause → Bool → State := fun cause held =>
      { State.reset with
        cfg := { State.reset.cfg with cause := cause, held := held }
        rcp := { s.rcp with op := none, accumulation := 0 }
        hpc := { State.reset.hpc with ch := s.hpc.ch.map (fun h => { State.reset.hpc.ch.z1 with measured := h.measured }) }
        pcc := { State.reset.pcc with diskLife := s.rcp.diskStored, padLife := s.rcp.padStored }
        lnk := { State.reset.lnk with carrier := s.lnk.carrier }
        pins := s.pins, now := s.now, freeCount := s.freeCount, pending := s.pending }
    exec .powerOn s = .next (after .powerOn s.cfg.held) ∧
    exec .resetLineActive s = .next
      (if s.cfg.held = true then s
       else if s.pins.supplyLow = true then { s with cfg := { s.cfg with held := true } } else after .resetLine true) ∧
    exec .resetLine s = .next
      (if s.cfg.held = true then { s with cfg := { s.cfg with held := false } }
       else if s.pins.supplyLow = true then s else after .resetLine false) ∧
    (∀ m : OrderMeta, takesOrder m s = true → s.ilk.mode ≠ .lockout → s.seq.state.atRest = true →
      m.toAll = true ∨ s.silent = true → exec (.restart m) s = .next (after .restartOrder false)) ∧
    (∀ (cause : ResetCause) (held : Bool), doReset cause held s = after cause held ∧ AfterReset (doReset cause held s)) ∧
    (s.cfg.held = true ∨ s.pins.supplyLow = true → AfterReset s →
      ∀ c : Instr, ∃ t, exec c s = .next t ∧ AfterReset t ∧ t.rcp = s.rcp) ∧
    (s.cfg.held = true ∨ s.pins.supplyLow = true → s.pending = [] → step s = .next { s with now := s.now + 1 })

/-- The values after a reset that the blocks' chapters give; the invariants that every step keeps hold there. The values that no chapter gives
are the model's choice and not stated here: log entry 8. -/
def Obligations.ResetValues : Prop :=
  State.reset.cfg.startUp = .settle ∧ State.reset.cfg.image = none ∧ State.reset.cfg.retry = 0 ∧
  State.reset.cfg.restartPending = false ∧ State.reset.peer.table = [] ∧ State.reset.peer.own = ⟨.idle, none, none⟩ ∧
  State.reset.peer.lowFeeds = ⟨false, false, false, false⟩ ∧ State.reset.peer.refresh = none ∧
  State.reset.peer.quiet = 0 ∧ State.reset.peer.isolated = false ∧
  (∀ f : Feed, (State.reset.shr.get f).k = 0 ∧ (State.reset.shr.get f).lastIncrement = none ∧
    (State.reset.shr.get f).markFree = 0 ∧ (State.reset.shr.get f).computed = 0 ∧
    (State.reset.shr.get f).effective = 0 ∧ (State.reset.shr.get f).holdOff = none) ∧
  (∀ c : Channel, (State.reset.chan c).rate = 0 ∧ (State.reset.chan c).clampTimer = 0 ∧
    (State.reset.chan c).lineFeed = .unknown ∧ (State.reset.chan c).switch = .idle ∧
    (State.reset.chan c).source = .flowmeter ∧ (State.reset.chan c).strokes = 0 ∧ (State.reset.chan c).pulses = 0 ∧
    (State.reset.chan c).disagreeing = 0 ∧ (State.reset.chan c).agreeing = 0 ∧
    (State.reset.chan c).supplyLow = false ∧ (∀ f : Feed, ((State.reset.chan c).valves.get f).state = .closed)) ∧
  State.reset.sdu.di.state = .closed ∧ State.reset.sdu.u = 0 ∧ State.reset.sdu.share = false ∧
  State.reset.sdu.dose = 0 ∧ State.reset.sdu.persist = 0 ∧ State.reset.sdu.mismatch = false ∧
  State.reset.seq.state = .empty ∧ State.reset.seq.copy = none ∧ State.reset.seq.index = 0 ∧
  State.reset.seq.causes.isEmpty = true ∧ State.reset.seq.deferred.isEmpty = true ∧ State.reset.seq.resume = none ∧
  State.reset.seq.disposition = .normal ∧ State.reset.seq.record = [] ∧ State.reset.seq.result = .none ∧
  State.reset.seq.first = none ∧ State.reset.seq.abortTimer = none ∧
  (∀ c : HeadCh, (State.reset.head c).state = .vented ∧ (State.reset.head c).applied = 0 ∧
    (State.reset.head c).target = 0 ∧ (State.reset.head c).requested = 0) ∧
  State.reset.hpc.ramp = none ∧ State.reset.hpc.warn = false ∧ State.reset.hpc.armed = true ∧
  State.reset.pcc.arm = .parked ∧ State.reset.pcc.homeFound = false ∧ State.reset.pcc.downforce = 0 ∧
  State.reset.pcc.segments = [] ∧ State.reset.pcc.resume = none ∧ State.reset.pcc.withdrawn = false ∧
  State.reset.pcc.condLost = false ∧ State.reset.pcc.diskRemainder = 0 ∧ State.reset.pcc.padRemainder = 0 ∧
  State.reset.epm.window = [] ∧ State.reset.epm.state = .stopped ∧ State.reset.epm.count = 0 ∧
  State.reset.epm.current = none ∧ State.reset.epm.settings = none ∧
  (∀ l : Line, (State.reset.line l).level = .unknown ∧ (State.reset.line l).timer = 0 ∧
    (State.reset.line l).armed = false ∧ (State.reset.line l).sticky = false) ∧
  State.reset.ilk.mode = .lockout ∧ State.reset.ilk.modeIllegal = false ∧ State.reset.ilk.decoded = none ∧
  (∀ d : Drive, (State.reset.drive d).setpoint = 0 ∧ (State.reset.drive d).command = 0 ∧
    (State.reset.drive d).source = .tach ∧ (State.reset.drive d).atSpeed = false) ∧
  State.reset.drv.tachLost = false ∧ State.reset.lnk.stopSlot = none ∧ State.reset.lnk.answers = [] ∧
  State.reset.lnk.demandSlot = none ∧ State.reset.lnk.notices = [] ∧ State.reset.lnk.received = [] ∧
  State.reset.lnk.lost = 0 ∧ State.reset.lnk.quiet = 0 ∧ State.reset.lnk.collisionSeen = false ∧
  State.reset.lnk.checkErrorSeen = false ∧ State.reset.lnk.malformedSeen = false ∧ State.reset.faultLine = false ∧
  QueuesFit State.reset ∧ TableInRange State.reset ∧ HoldingIffCaused State.reset ∧ ValvesApart State.reset ∧
  GrantsHeldOff State.reset ∧ StoreSized State.reset ∧ HeadWithin State.reset

/-- The FAULT output line: asserted in CONFIG_FAULT, with a duplicate node number found, or with a first fault in the record, and not
while the part is held in reset; every reset releases it, and before the end of LOADING no fault is taken that could assert it. -/
def Obligations.FaultLineFollowsItsThreeCauses : Prop :=
  (∀ s : State, s.cfg.held = false → s.pins.supplyLow = false →
    (s.faultLine = true ↔ s.cfg.startUp = .configFault ∨ s.lnk.dupFound = true ∨ s.seq.first.isSome = true)) ∧
  (∀ s : State, s.cfg.held = true ∨ s.pins.supplyLow = true → s.faultLine = false) ∧
  (∀ (s : State) (cause : ResetCause) (held : Bool), (doReset cause held s).faultLine = false) ∧
  (∀ (s t : State) (c : Instr), c = .powerOn ∨ c = .resetLineActive ∨ c = .resetLine → s.cfg.held = false →
    exec c s = .next t → t.faultLine = false) ∧
  (∀ (s : State) (k : FaultKind), s.started = false → takeFault k s = s)

/-! ### Start-up -/

/-- A good load at the end of SETTLE: the image comes into force and LISTEN is entered, the refresh timer starts, the home search and
the line debouncers begin, and the calibrated stroke volumes are the nominal ones; with no trip input active the sequencer stands, and with one
active the fault DRIVE_TRIP takes it to FAULTED. The target of a store operation that a reset cut becomes CORRUPT (of an ERASE_STORE, those not
yet erased), and every other slot and profile, the lock and the stored counters stand.

A failed load: below three failures the station returns to SETTLE with its 50 ms from 0; the third failure enters CONFIG_FAULT,
with LOCKOUT and with LNK's queues, slots and transmitter empty. Nothing else changes.

The image: each field of Table 11-1 with a default takes it for 0, the refresh period is rounded down to its step of 50, and a value outside its
range takes the nearer bound; the clamp count is that of the fields the last two changed, at most 255, and the other fields use every value of their
bits. A load is good when the memory answers its 128 bytes, their sum agrees, the node number is at most 14 and the clamped CMDNODE differs from it.

The model's choice: the arm's radius from the feedback (log entry 51) and LOCKOUT set at CONFIG_FAULT (log entry 10). -/
def Obligations.SettleEndLoadsOrFails : Prop :=
  (∀ (s : State) (b : List Byte), s.cfg.held = false → s.pins.supplyLow = false → s.cfg.startUp = .settle →
     50000 ≤ s.cfg.settleTimer → s.pins.configMemory = some b → loadGood b = true → s.seq.state = .empty →
     ∃ t, exec .settleEnd s = .next t ∧ t.cfg.startUp = .listen ∧ t.cfg.image = some (readImage b) ∧
       t.cfg.imageSum = storedSum b ∧ t.cfg.clampCount = clampCountOf b ∧ t.cfg.retry = s.cfg.retry ∧
       t.cfg.cause = s.cfg.cause ∧ t.peer.refresh = some 0 ∧ t.pcc.arm = .parked ∧ t.pcc.homeFound = false ∧
       t.pcc.search = some 0 ∧ t.pcc.radius = s.pins.armFeedback ∧
       (∀ l, (t.line l).timer = 0 ∧ (t.line l).level = (s.line l).level ∧
         (t.line l).armed = (((readImage b).lines.get l).type == .level)) ∧
       (∀ c, (t.chan c).calibrated = (readImage b).strokeVolume.get c) ∧
       t.pins = s.pins ∧ t.peer.table = s.peer.table ∧ t.lnk.answers = s.lnk.answers ∧ t.pending = s.pending ∧
       (s.pins.trip = ⟨false, false⟩ →
         t.seq = s.seq ∧ t.epm = s.epm ∧ t.drv = s.drv ∧ t.hpc = s.hpc ∧ t.lnk.notices = s.lnk.notices) ∧
       (s.pins.trip.platen = true ∨ s.pins.trip.head = true →
         t.seq.state = .faulted ∧ t.seq.first = some .driveTrip ∧ t.faultLine = true ∧
         t.seq.later = (if s.pins.trip.platen = true ∧ s.pins.trip.head = true then s.seq.later.add .driveTrip
           else s.seq.later) ∧ (∀ d : Drive, (t.drive d).setpoint = 0)) ∧
       t.rcp.lock = s.rcp.lock ∧ t.rcp.diskStored = s.rcp.diskStored ∧ t.rcp.padStored = s.rcp.padStored ∧
       t.rcp.op = s.rcp.op ∧ (s.rcp.inProgress = none → t.rcp = s.rcp) ∧
       (StoreSized s → ∀ o, s.rcp.inProgress = some o → t.rcp.inProgress = none ∧
         (∀ n, 1 ≤ n → n ≤ 16 →
           (∃ part data, o = .writeHeader n part data) ∨ (∃ i data, o = .writeStep n i data) ∨
             (∃ count, o = .closeRecipe n count) ∨ o = .eraseRecipe n →
           (t.slot n).state = .corrupt ∧ (∀ j, 1 ≤ j → j ≤ 16 → j ≠ n → t.slot j = s.slot j) ∧
             t.rcp.profiles = s.rcp.profiles) ∧
         (∀ p segments, p ≤ 3 → o = .writeProfile p segments →
           (t.profile p).state = .corrupt ∧ (∀ j, j ≤ 3 → j ≠ p → t.profile j = s.profile j) ∧
             t.rcp.slots = s.rcp.slots) ∧
         (∀ done, done ≤ 20 → o = .eraseStore done →
           (∀ p, p ≤ 3 → if p < done then t.profile p = s.profile p else (t.profile p).state = .corrupt) ∧
           (∀ j, 1 ≤ j → j ≤ 16 →
             if j + 3 < done then t.slot j = s.slot j else (t.slot j).state = .corrupt)))) ∧
  (∀ s : State, s.cfg.held = false → s.pins.supplyLow = false → s.cfg.startUp = .settle → 50000 ≤ s.cfg.settleTimer →
     (s.pins.configMemory = none ∨ ∃ b, s.pins.configMemory = some b ∧ loadGood b = false) →
     (s.cfg.retry < 2 →
       exec .settleEnd s = .next { s with cfg := { s.cfg with
         image := none, retry := s.cfg.retry + 1, clampCount := 0, settleTimer := 0 } }) ∧
     (s.cfg.retry = 2 →
       let failed : State := { s with
         cfg := { s.cfg with startUp := .configFault, image := none, retry := 3, clampCount := 0 }
         ilk := { s.ilk with mode := .lockout }
         lnk := { s.lnk with
           stopSlot := none, answers := [], demandSlot := none, notices := [], sending := none
           quiet := if s.lnk.sending.isSome = true then 0 else s.lnk.quiet } }
       exec .settleEnd s = .next failed ∧ failed.faultLine = true)) ∧
  (∀ b : List Byte,
     let byte : Nat → Nat := fun n => (b.getD n 0).toNat
     let word : Nat → Nat := fun n => byte n + 256 * byte (n + 1)
     let long : Nat → Nat := fun n => word n + 65536 * word (n + 2)
     let image := readImage b
     let field : Nat → Nat → Nat → Nat → Nat → Nat → Nat × Nat × Nat := fun inForce stored default step lo hi =>
       let taken := if stored = 0 then default else stored
       (inForce, max lo (min (taken - taken % step) hi), taken)
     let plain : Nat → Nat → Nat → Nat → Nat × Nat × Nat := fun inForce stored lo hi => field inForce stored 0 1 lo hi
     let fields : List (Nat × Nat × Nat) :=
       [plain image.cmdNode (byte 1) 0 14, field image.refreshPeriod (word 2) 250 50 100 1000,
        plain image.capacity.a (word 9) 0 4000, plain image.capacity.b (word 11) 0 4000,
        plain image.capacity.c (word 13) 0 4000, plain image.capacity.d (word 15) 0 4000,
        plain image.isolatedShare.a (word 17) 0 1000, plain image.isolatedShare.b (word 19) 0 1000,
        plain image.isolatedShare.c (word 21) 0 1000, plain image.isolatedShare.d (word 23) 0 1000] ++
       [plain image.pumpMax.main (word 26) 0 1000, plain image.pumpMax.additive (word 28) 0 1000,
        plain image.pulseVolume.main (word 30) 10 500, plain image.pulseVolume.additive (word 32) 10 500,
        plain image.strokeVolume.main (word 34) 10 5000, plain image.strokeVolume.additive (word 36) 10 5000,
        field image.tolerance (byte 38) 8 1 1 25, plain image.threshold.main (byte 39) 0 31,
        plain image.threshold.additive (byte 40) 0 31, plain image.flushVolume (word 42) 0 500,
        plain image.clampTimeout (word 44) 500 2000] ++
       [plain image.headMax.z1 (word 46) 0 600, plain image.headMax.z2 (word 48) 0 600, plain image.headMax.z3 (word 50) 0 600,
        plain image.headMax.z4 (word 52) 0 600, plain image.headMax.z5 (word 54) 0 600, plain image.headMax.rr (word 56) 0 800,
        plain image.zoneDiff (word 58) 10 300, plain image.zoneHold (word 60) 0 600, plain image.ringHold (word 62) 0 800,
        plain image.overMargin (word 64) 0 200, field image.regTolerance (word 66) 10 1 1 100,
        field image.settleLimit (word 68) 2000 1 200 10000, plain image.airWarn (word 70) 0 9000,
        plain image.airTrip (word 72) 0 9000, plain image.maxDownforce (byte 74) 0 100,
        plain image.acceleration.platen (byte 91) 1 50, plain image.acceleration.head (byte 92) 1 50,
        field image.waitingLimit (word 93) 120 1 10 600]
     (∀ f ∈ fields, f.1 = f.2.1) ∧
     clampCountOf b = min 255 (fields.filter (fun f => decide (f.2.1 ≠ f.2.2))).length ∧
     image.node = byte 0 ∧ image.serial = long 4 ∧ image.diskLimit = long 75 ∧ image.padLimit = long 79 ∧
     image.stopReaction = (if byte 8 % 2 = 0 then .hold else .abort) ∧
     (∀ f : Feed, (image.plumbedMain.get f = true ↔ byte 25 / 2 ^ numFeed f % 2 = 1) ∧
       (image.plumbedAdditive.get f = true ↔ byte 25 / 2 ^ (4 + numFeed f) % 2 = 1)) ∧
     image.nonOverlap = [500, 1000, 2000, 4000].getD (byte 41 % 4) 0 ∧
     (∀ l : Line,
       let n := byte (83 + numLine l)
       image.lines.get l = ⟨decide (n % 2 = 0), if n / 2 % 2 = 0 then .edge else .level,
         [0, 5, 20, 80].getD (n / 4 % 4) 0, [Routing.note, .hold, .abort, .linkStop].getD (n / 16 % 4) .note⟩) ∧
     storedSum b = word 126 ∧
     (loadGood b = true ↔ b.length = 128 ∧ ((b.take 126).map BitVec.toNat).sum % 65536 = word 126 ∧ byte 0 ≤ 14 ∧
       image.cmdNode ≠ byte 0))

/-- The end of LISTEN: READY, the DEMAND slot filled with the own record, and STARTED with the reset cause, the clamp count and the image
sum behind the notices queued before it, or counted as lost in a full queue. Nothing else changes. That the sum takes two bytes is log entry 15
(DEDUCED). -/
def Obligations.ListenEndEntersReady : Prop :=
  ∀ s : State, s.cfg.held = false → s.pins.supplyLow = false → s.cfg.startUp = .listen → 2 ≤ s.cfg.listenTicks →
    exec .listenEnd s = .next { s with
      cfg := { s.cfg with startUp := .ready }
      lnk := { s.lnk with
        demandSlot := some ⟨.demand, 0, s.peer.own.payload, 0⟩
        sending := s.lnk.sending.map (fun x => if x.frame.kind = .demand then { x with replaced := true } else x)
        notices :=
          if s.lnk.notices.length < 8 then
            s.lnk.notices ++ [⟨.notice, 0, [1, 0, byteOf (numReset s.cfg.cause), byteOf s.cfg.clampCount,
              byteOf s.cfg.imageSum, byteOf (s.cfg.imageSum / 256)], 0⟩]
          else s.lnk.notices
        lost := if s.lnk.notices.length < 8 then s.lnk.lost else min 255 (s.lnk.lost + 1) } }

/-! ### The peer table, isolation and the grants -/

/-- A refresh tick: every entry ages by 1, the quiet count rises up to 8, the timer starts its next period; a mark-free count is 0 where
a mark was seen since the tick before or the feed is in the low-feed set, and else rises by 1 up to 16; a feed of the low-feed set raises
k as a mark does; the two ticks of LISTEN are counted. In READY the DEMAND slot then holds the own record; in any other start-up state no DEMAND
is placed. That the entries of age 3 or 8 become STALE or leave after the tick, not within it, is the model's choice: log entry 54. -/
def Obligations.RefreshTickAgesTableAndCounts : Prop :=
  ∀ (s : State) (r : Nat), s.started = true → s.peer.refresh = some r → s.period ≤ r →
    ∃ t, exec .refreshTick s = .next t ∧
      t.peer.table = s.peer.table.map (fun e => { e with age := min 8 (e.age + 1) }) ∧
      t.peer.quiet = min 8 (s.peer.quiet + 1) ∧ t.peer.refresh = some 0 ∧ t.peer.isolated = s.peer.isolated ∧
      (∀ f : Feed,
        (t.shr.get f).markFree =
          (if (s.shr.get f).markSeen = true ∨ s.peer.lowFeeds.get f = true then 0
           else min 16 ((s.shr.get f).markFree + 1)) ∧
        (t.shr.get f).markSeen = false ∧
        (t.shr.get f).k =
          (if s.peer.lowFeeds.get f = true ∧ (s.shr.get f).raises s.now s.period = true then (s.shr.get f).k + 1
           else (s.shr.get f).k)) ∧
      t.cfg = (if s.cfg.startUp = .listen then { s.cfg with listenTicks := min 2 (s.cfg.listenTicks + 1) } else s.cfg) ∧
      (s.cfg.startUp = .ready → t.lnk.demandSlot = some ⟨.demand, 0, t.peer.own.payload, 0⟩) ∧
      (s.cfg.startUp ≠ .ready → t.lnk.demandSlot = s.lnk.demandSlot) ∧
      t.rcp = s.rcp ∧ t.ilk = s.ilk ∧ t.pins = s.pins ∧ t.sdu.dose = s.sdu.dose ∧ t.lnk.answers = s.lnk.answers ∧
      t.lnk.stopSlot = s.lnk.stopSlot ∧ t.pending = s.pending ∧
      (s.seq.state ≠ .running → s.seq.state ≠ .holding → DirectedBlocksStand s t)

/-- An entry whose age has reached 3 becomes STALE with its summary state and items; one whose age has reached 8 leaves the table;
eight quiet ticks set ISOLATED with its notice. Every other entry stands. For either, SHR runs for every feed that the entry's items name, with the
table as changed, and for no other; the change is then carried through.

With the quiet count at 8, ISOLATED clear and every entry of age 8 removed, ISOLATED is set, ISOLATION_BEGUN is queued (or counted as lost, or
discarded by a silent LNK), and SHR runs for all four feeds; the change is then carried through. While an entry of age 8 stands in the table its
removal comes first: log entry 37. -/
def Obligations.EntriesAgeAndIsolationBegins : Prop :=
  (∀ (s : State) (n : Nat) (e : PeerEntry), s.started = true → findEntry n s.peer.table = some e →
     let changed : State → List PeerEntry → Prop := fun u table =>
       u = { s with shr := u.shr, peer := { s.peer with table := table } } ∧
       ∀ f : Feed, u.shr.get f =
         if e.names f = true then (s.shr.get f).take (computedGrant u f) s.now s.period else s.shr.get f
     (e.presence = .present → 3 ≤ e.age →
       ∃ u t, exec (.entryStale n) s = .next t ∧ t = settle u ∧
         changed u (putEntry { e with presence := .stale } s.peer.table) ∧ findEntry n t.peer.table = some { e with presence := .stale } ∧
         (∀ m, m ≠ n → findEntry m t.peer.table = findEntry m s.peer.table) ∧ t.peer.quiet = s.peer.quiet ∧
         t.peer.isolated = s.peer.isolated ∧ t.cfg = s.cfg ∧ t.rcp = s.rcp ∧ t.ilk = s.ilk ∧ t.pins = s.pins ∧
         t.sdu.dose = s.sdu.dose ∧ t.pending = s.pending ∧
         (s.seq.state ≠ .running → s.seq.state ≠ .holding → DirectedBlocksStand s t)) ∧
     (8 ≤ e.age →
       ∃ u t, exec (.entryRemoved n) s = .next t ∧ t = settle u ∧ changed u (dropEntry n s.peer.table) ∧ findEntry n t.peer.table = none ∧
         (∀ m, m ≠ n → findEntry m t.peer.table = findEntry m s.peer.table) ∧ t.peer.quiet = s.peer.quiet ∧
         t.peer.isolated = s.peer.isolated ∧ t.cfg = s.cfg ∧ t.rcp = s.rcp ∧ t.ilk = s.ilk ∧ t.pins = s.pins ∧
         t.sdu.dose = s.sdu.dose ∧ t.pending = s.pending ∧
         (s.seq.state ≠ .running → s.seq.state ≠ .holding → DirectedBlocksStand s t))) ∧
  (∀ s : State, s.started = true → 8 ≤ s.peer.quiet → s.peer.isolated = false →
     ((∀ e ∈ s.peer.table, e.age < 8) →
       exec .isolationBegun s =
         .next (settle (shrRun .d (shrRun .c (shrRun .b (shrRun .a
           (placeNotice 2 [] { s with peer := { s.peer with isolated := true } }))))))) ∧
     ((∃ e ∈ s.peer.table, 8 ≤ e.age) → exec .isolationBegun s = .next s)) ∧
  (∀ (u : State) (f : Feed), u.peer.isolated = true → capacityInForce u f = u.img.isolatedShare.get f) ∧
  (∀ (u : State) (f : Feed), u.peer.isolated = false → capacityInForce u f = u.img.capacity.get f)

/-- Sixteen mark-free ticks with k above 0: k falls by 1, the count returns to 0, the time of last increment stands, and SHR runs for
the feed, unless a supply-low mark of the same instant is still to be taken, which comes first (R22, log entry 37). The expiry of a hold-off:
the effective grant takes the computed grant and the timer stops. -/
def Obligations.DerateFallsAndHoldOffEnds : Prop :=
  ∀ (s : State) (f : Feed), s.started = true →
    (16 ≤ (s.shr.get f).markFree → 0 < (s.shr.get f).k →
      (markWaits s = false →
        exec (.derateDecrement f) s =
          .next (settle (shrRun f { s with
            shr := s.shr.set f { s.shr.get f with k := (s.shr.get f).k - 1, markFree := 0 } }))) ∧
      (markWaits s = true → exec (.derateDecrement f) s = .next s)) ∧
    (∀ e, (s.shr.get f).holdOff = some e → e ≤ s.now →
      exec (.holdOffExpiry f) s =
        .next (settle { s with
          shr := s.shr.set f { s.shr.get f with effective := (s.shr.get f).computed, holdOff := none } }))

/-- A run for a feed. One that leaves the computed grant at or below the effective grant: the effective grant takes it at once, and a running
hold-off stops without expiring. One that leaves it above: the effective grant stands, a stopped hold-off starts with one refresh period, and a
running one is left to its expiry. The run changes nothing else of the feed, no other feed and nothing but the grants. -/
def Obligations.FallInGrantIsImmediate : Prop :=
  ∀ (s : State) (f : Feed), s.started = true →
    let before := s.shr.get f
    let after := (shrRun f s).shr.get f
    after.computed = computedGrant s f ∧
    (computedGrant s f ≤ before.effective → after.effective = computedGrant s f ∧ after.holdOff = none) ∧
    (before.effective < computedGrant s f → after.effective = before.effective ∧
      (before.holdOff = none → after.holdOff = some (s.now + 1000 * s.img.refreshPeriod)) ∧
      (∀ expiry, before.holdOff = some expiry → after.holdOff = some expiry)) ∧
    after.k = before.k ∧ after.lastIncrement = before.lastIncrement ∧ after.markFree = before.markFree ∧
    after.markSeen = before.markSeen ∧ shrRun f s = { s with shr := (shrRun f s).shr } ∧
    (∀ g, g ≠ f → (shrRun f s).shr.get g = s.shr.get g)

/-- When the floors fit, every participant has its floor and none is denied: the remainder stage starts from them with R = C′ − M. -/
def Obligations.FloorsAreGrantedWhenTheyFit : Prop :=
  ∀ (cap : Nat) (ps : List Part), (ps.map Part.m).sum ≤ cap →
    floorStage cap ps = ps.map (fun p => ⟨p, p.m, false⟩) ∧
    shareGrants cap ps =
      remainderStage (ps.length + 1) (cap - (ps.map Part.m).sum) (byNode (ps.map (fun p => ⟨p, p.m, false⟩)))

/-- The share computation is fair and never gives out more than there is: the grants of all participants sum to at most the effective
capacity; no grant exceeds its request; a grant that is not 0 is at least its floor; and when the requests fit, every participant is
granted its request.

The order of giving. Where the floors do not fit, the participants are taken in ascending order of rank and node number, and each in turn has its
floor where it fits in what remains, and is denied where it does not. The remainder is then given in rounds in ascending order of node number: of the
members of the active set, not denied and below their requests, those whose weighted extra, rounded down, reaches their excess take the excess and
leave; where none does, each takes its extra, the first of them one unit more as long as the leftover lasts, and the stage ends. It also ends with
no member or nothing left.

A run for a feed takes the capacity in force, or the isolated share while ISOLATED, less k tenths, rounded down. Its participants are the own
items on the feed with a request above 0 and, while ISOLATED is clear, those of every entry of the table, ranked RUNNING 0, HOLDING 1, WAITING 2,
a STALE entry's 2. The computed grant is that of the own item, and 0 where there is none. -/
def Obligations.ShareGrantsFitTheCapacity : Prop :=
  (∀ (cap : Nat) (ps : List Part), (∀ p ∈ ps, p.m ≤ p.q ∧ 1 ≤ p.w) →
    (shareGrants cap ps).length = ps.length ∧ grantSum (shareGrants cap ps) ≤ cap ∧
    (∀ g ∈ shareGrants cap ps, g.part ∈ ps ∧ g.grant ≤ g.part.q ∧ (g.grant = 0 ∨ g.part.m ≤ g.grant)) ∧
    ((ps.map Part.q).sum ≤ cap → ∀ g ∈ shareGrants cap ps, g.grant = g.part.q) ∧
    (cap = 0 → ∀ g ∈ shareGrants cap ps, g.grant = 0 ∧ (0 < g.part.m → g.denied = true))) ∧
  (∀ (cap : Nat) (ps : List Part), cap < (ps.map Part.m).sum →
    let scan := floorStage cap ps
    (scan.map Grant.part).Perm ps ∧
    (scan.map Grant.part).Pairwise (fun x y => x.rank < y.rank ∨ (x.rank = y.rank ∧ x.node ≤ y.node)) ∧
    ∀ (i : Nat) (g : Grant), scan[i]? = some g →
      let remains := cap - ((scan.take i).map Grant.grant).sum
      g = (if g.part.m ≤ remains then ⟨g.part, g.part.m, false⟩ else ⟨g.part, 0, true⟩)) ∧
  (∀ (cap : Nat) (ps : List Part),
    ∃ gs : List Grant, gs.Perm (floorStage cap ps) ∧ gs.Pairwise (fun x y => x.part.node ≤ y.part.node) ∧
      shareGrants cap ps = remainderStage (ps.length + 1) (cap - (gs.map Grant.grant).sum) gs) ∧
  (∀ (left n : Nat) (gs : List Grant),
    let active : Grant → Bool := fun g => !g.denied && decide (g.grant < g.part.q)
    let weights := ((gs.filter active).map (fun g => g.part.w)).sum
    let extra : Grant → Nat := fun g => left * g.part.w / weights
    let fills : Grant → Bool := fun g => active g && decide (g.part.q - g.grant ≤ extra g)
    (left = 0 ∨ gs.any active = false → remainderStage n left gs = gs) ∧
    (0 < left → gs.any fills = true →
      remainderStage (n + 1) left gs =
        remainderStage n (left - ((gs.filter fills).map (fun g => g.part.q - g.grant)).sum)
          (gs.map (fun g => if fills g = true then { g with grant := g.part.q } else g))) ∧
    (0 < left → gs.any active = true → gs.any fills = false →
      (remainderStage (n + 1) left gs).length = gs.length ∧
      ∀ (i : Nat) (g : Grant), gs[i]? = some g →
        (remainderStage (n + 1) left gs)[i]? = some (if active g = true then
          { g with grant := g.grant + extra g +
              (if ((gs.take i).filter active).length < left - ((gs.filter active).map extra).sum then 1 else 0) }
        else g)) ∧
    (gs.length ≤ n → remainderStage (n + 1) left gs = remainderStage (gs.length + 1) left gs)) ∧
  (∀ (s : State) (f : Feed),
    let inForce := if s.peer.isolated = true then s.img.isolatedShare.get f else s.img.capacity.get f
    let cap := inForce * (10 - (s.shr.get f).k) / 10
    let ps := participants s.img.node s.peer f
    let rank : Summary → Nat := fun x => if x = .running then 0 else if x = .holding then 1 else 2
    (∀ p : Part, p ∈ ps ↔
      (∃ i ∈ s.peer.own.items, i.feed = f ∧ 0 < i.q ∧ p = ⟨true, s.img.node, rank s.peer.own.summary, i.q, i.m, i.w⟩) ∨
      (s.peer.isolated = false ∧ ∃ e ∈ s.peer.table, ∃ i ∈ e.items, i.feed = f ∧ 0 < i.q ∧
        p = ⟨false, e.node, if e.presence = .stale then 2 else rank e.summary, i.q, i.m, i.w⟩)) ∧
    (∀ g, (shareGrants cap ps).find? (fun g => g.part.own) = some g → computedGrant s f = g.grant) ∧
    ((shareGrants cap ps).find? (fun g => g.part.own) = none → computedGrant s f = 0) ∧
    ((∀ p ∈ ps, p.m ≤ p.q ∧ 1 ≤ p.w) →
      computedGrant s f ≤ cap ∧
      ((∀ i ∈ s.peer.own.items, i.feed = f → i.q = 0) → computedGrant s f = 0) ∧
      (∀ it ∈ s.peer.own.items, it.feed = f → (∀ j ∈ s.peer.own.items, j.feed = f → j = it) →
        computedGrant s f ≤ it.q ∧ (computedGrant s f = 0 ∨ it.m ≤ computedGrant s f))))

/-! ### The Station Link -/

/-- A frame the station builds passes every check of a receiver and reads back as it was built: source, destination, kind, tag and
payload.

A DEMAND payload that a station builds from a record in its ranges is accepted by every other station and gives that station an entry
with the same summary state and the same items. -/
def Obligations.FramesAndDemandsReadBack : Prop :=
  (∀ (src dest : Nat) (k : FrameKind) (tag : Byte) (payload : List Byte), src ≤ 14 → dest ≤ 15 → payload.length ≤ 48 →
     let b := frameBytes src dest (numKindOf k) tag payload
     b.length = 5 + payload.length ∧ lengthGood b = true ∧ sumGood b = true ∧ sourceOf b = src ∧ targetNode b = dest ∧
       kindOf (rd b 1) = some k ∧ par b 2 = tag ∧ payloadOf b = payload) ∧
  (∀ (n : Nat) (r : OwnRecord), n ≠ 15 → (∀ i ∈ r.items, i.q ≤ 1000 ∧ i.m ≤ i.q ∧ 1 ≤ i.w ∧ i.w ≤ 8) →
     (r.items.map Item.feed).Nodup → (r.summary = .idle → r.items = []) →
     demandOk n r.payload = true ∧ entryOf n r.payload = ⟨n, .present, r.summary, r.items, 0⟩)

/-- What a received frame does at its end, check by check: a bad length or check sum sets CHECK_ERROR_SEEN; an unknown kind, or a source of 15, sets
MALFORMED_SEEN; a valid frame from another node for neither this station nor all nodes, and an ANSWER or a NOTICE, is only heard; one addressed
here is taken by its kind: a STOP as STOP_RECEIVED takes it, an ORDER as an order of its payload, a DEMAND that passes its checks as its node's
entry, one that fails as MALFORMED_SEEN. A DEMAND taken so marks its feeds and makes SHR run for the feeds of its entry as DEMAND_RECEIVED does on
the state with the quiet count and ISOLATED cleared. Each clears the quiet count and ISOLATED, and where ISOLATED was set SHR then runs for all
four feeds. A frame the station may not take, as in reset and before LISTEN, leaves nothing: it ends the carrier, and the receive buffer is empty.

A frame with the station's own number from another node is a duplicate: DUPLICATE_NODE, the FAULT line asserted, every queue and slot empty and
nothing on the line, and a DUPLICATE_NODE fault that ends a run in ABORTING and takes a station at rest to FAULTED; with a restart pending the
station resets at once. That the receive buffer keeps the bytes of a frame taken past the carrier's end, and nothing of one not taken, is the
model's choice: log entry 30. That the marks of a DEMAND are reported with the new entry in the table, which fixes the hold-off after both, is log
entry 21 (DEDUCED). The dose in the CUT entry of a step that has not started is log entry 28 (DEDUCED). -/
def Obligations.ReceivedFramesAreCheckedAndDelivered : Prop :=
  (∀ (s : State) (b : List Byte),
     let heard : State := { s with lnk := { s.lnk with
       carrier := none, received := if takesFrame s = true then b else []
       quiet := if s.lnk.sending.isNone = true then 0 else s.lnk.quiet } }
     let told : State := { heard with peer := { s.peer with quiet := 0, isolated := false } }
     let runs : State → State := fun u =>
       if s.peer.isolated = true then shrRun .d (shrRun .c (shrRun .b (shrRun .a u))) else u
     (takesFrame s = false → exec (.frameReceived b) s = .next heard) ∧
     (takesFrame s = true → lengthGood b = false ∨ sumGood b = false →
       exec (.frameReceived b) s = .next (settle { heard with lnk := { heard.lnk with checkErrorSeen := true } })) ∧
     (takesFrame s = true → lengthGood b = true → sumGood b = true → kindOf (rd b 1) = none →
       exec (.frameReceived b) s = .next (settle { heard with lnk := { heard.lnk with malformedSeen := true } })) ∧
     (takesFrame s = true → lengthGood b = true → sumGood b = true →
       ∀ k, kindOf (rd b 1) = some k → sourceOf b ≠ s.img.node →
         let malformed : State := { told with lnk := { heard.lnk with malformedSeen := true } }
         (sourceOf b = 15 → exec (.frameReceived b) s = .next (settle (runs malformed))) ∧
         (sourceOf b ≠ 15 → (targetNode b ≠ s.img.node ∧ targetNode b ≠ 15) ∨ k = .answer ∨ k = .notice →
           exec (.frameReceived b) s = .next (settle (runs told))) ∧
         (sourceOf b ≠ 15 → targetNode b = s.img.node ∨ targetNode b = 15 →
           (k = .stop → exec .stopReceived told = .next (settle (takeStop told)) ∧
             exec (.frameReceived b) s = .next (settle (runs (takeStop told)))) ∧
           (k = .order → ∃ u,
             exec (.unknownOrder ⟨sourceOf b, targetNode b == 15, par b 2⟩ (payloadOf b)) told = .next u ∧
             exec (.frameReceived b) s = .next (settle (runs u))) ∧
           (k = .demand → demandOk (sourceOf b) (payloadOf b) = false →
             exec (.frameReceived b) s = .next (settle (runs malformed))) ∧
           (k = .demand → demandOk (sourceOf b) (payloadOf b) = true →
             ∃ u t, exec (.demandReceived (sourceOf b) (payloadOf b)) told = .next (settle u) ∧
               exec (.frameReceived b) s = .next t ∧ t = settle (runs u) ∧
               u = { told with
                 shr := u.shr, peer := { told.peer with table := putEntry (entryOf (sourceOf b) (payloadOf b)) s.peer.table } } ∧
               (∀ f : Feed,
                 let marked := (entryOf (sourceOf b) (payloadOf b)).items.any (fun i => i.feed == f && i.low)
                 let raised := marked && (s.shr.get f).raises s.now s.period
                 let touched := (findEntry (sourceOf b) s.peer.table).any (fun e => e.names f) ||
                   (entryOf (sourceOf b) (payloadOf b)).names f
                 let x : FeedShare := { s.shr.get f with
                   k := if raised then (s.shr.get f).k + 1 else (s.shr.get f).k
                   lastIncrement := if raised then some s.now else (s.shr.get f).lastIncrement
                   markFree := if marked then 0 else (s.shr.get f).markFree
                   markSeen := marked || (s.shr.get f).markSeen }
                 u.shr.get f = if touched = true then x.take (computedGrant u f) s.now s.period else x) ∧
               t.peer.table = putEntry (entryOf (sourceOf b) (payloadOf b)) s.peer.table ∧ t.peer.quiet = 0 ∧
               t.peer.isolated = false ∧ t.lnk.received = b ∧ t.lnk.carrier = none ∧ t.cfg = s.cfg ∧ t.rcp = s.rcp ∧
               t.ilk = s.ilk ∧ t.pins = s.pins ∧ t.pending = s.pending)))) ∧
  (∀ (s : State) (b : List Byte) (k : FrameKind), takesFrame s = true → lengthGood b = true → sumGood b = true →
     kindOf (rd b 1) = some k → sourceOf b = s.img.node →
     (s.cfg.restartPending = false →
       ∃ t, exec (.frameReceived b) s = .next t ∧ t.cfg.startUp = .duplicateNode ∧ t.faultLine = true ∧
         t.lnk.stopSlot = none ∧ t.lnk.answers = [] ∧ t.lnk.demandSlot = none ∧ t.lnk.notices = [] ∧
         t.lnk.sending = none ∧
         (s.seq.state.inRun = true ∨ s.seq.state = .aborting → t.seq.state = .aborting) ∧
         t.seq.record = s.seq.record ++ cutOf s ∧
         (s.seq.state.inRun = false → s.seq.state ≠ .aborting → t.seq.state = .faulted) ∧
         (s.seq.state.inRun = true ∨ s.seq.first = none → t.seq.first = some .duplicateNode ∨ s.seq.state = .faulted) ∧
         t.peer.table = s.peer.table ∧ t.rcp = s.rcp ∧ t.ilk = s.ilk ∧ t.pins = s.pins ∧ t.pending = s.pending) ∧
     (s.cfg.restartPending = true →
       exec (.frameReceived b) s =
         .next (doReset .restartOrder false { s with lnk := { s.lnk with carrier := none } })))

/-- A DEMAND delivered to PEER: one that passes the checks gives its node a PRESENT entry of age 0 and leaves every other entry; one that fails is
dropped whole with MALFORMED_SEEN; the station's own is ignored. A feed that an item marks has its mark-free count at 0 and its k raised where a
refresh period has passed since the last increment; no other k or count changes. SHR runs for every feed that an item of the entry named before or
names after, with the new entry in the table, and for no other; the change is then carried through. That the marks are reported with the new entry
already in the table, so that a rise of k makes no run on the old entry and begins no hold-off there, is log entry 21 (DEDUCED). -/
def Obligations.DemandReceivedGivesAnEntry : Prop :=
  ∀ (s : State) (n : Nat) (p : List Byte), s.started = true →
    (n = s.img.node → exec (.demandReceived n p) s = .next (settle s)) ∧
    (n ≠ s.img.node → demandOk n p = false →
      exec (.demandReceived n p) s = .next (settle { s with lnk := { s.lnk with malformedSeen := true } })) ∧
    (n ≠ s.img.node → demandOk n p = true →
      ∃ u t, exec (.demandReceived n p) s = .next t ∧ t = settle u ∧
        findEntry n t.peer.table = some (entryOf n p) ∧
        (∀ m, m ≠ n → findEntry m t.peer.table = findEntry m s.peer.table) ∧
        (∀ f : Feed,
          let marked := (entryOf n p).items.any (fun i => i.feed == f && i.low)
          let touched := (findEntry n s.peer.table).any (fun e => e.names f) || (entryOf n p).names f
          (marked = false → (t.shr.get f).k = (s.shr.get f).k ∧ (t.shr.get f).markFree = (s.shr.get f).markFree) ∧
          (marked = true → (t.shr.get f).markFree = 0 ∧ (t.shr.get f).markSeen = true ∧
            (t.shr.get f).k =
              (if (s.shr.get f).raises s.now s.period = true then (s.shr.get f).k + 1 else (s.shr.get f).k)) ∧
          (touched = true → (u.shr.get f).computed = computedGrant u f ∧
            u.shr.get f = (if marked = true then (s.shr.get f).mark s.now s.period else s.shr.get f).take
              (computedGrant u f) s.now s.period) ∧
          (touched = false → u.shr.get f = s.shr.get f)) ∧
        u = { s with shr := u.shr, peer := { s.peer with table := putEntry (entryOf n p) s.peer.table } } ∧
        t.peer.quiet = s.peer.quiet ∧ t.peer.isolated = s.peer.isolated ∧ t.cfg = s.cfg ∧ t.rcp = s.rcp ∧
        t.ilk = s.ilk ∧ t.pins = s.pins ∧ t.sdu.dose = s.sdu.dose ∧ t.pending = s.pending ∧
        (s.seq.state ≠ .running → s.seq.state ≠ .holding → DirectedBlocksStand s t))

/-- A received STOP. With reaction HOLD the cause STOP holds a WAITING or RUNNING step, joins the set in HOLDING, waits in the deferred set in ENDING,
and has no effect elsewhere; with reaction ABORT a run in progress aborts with result STOPPED and its undecided step CUT, and elsewhere nothing
happens. The dose in the CUT entry of a step that has not started is log entry 28. -/
def Obligations.StopReceivedHoldsOrAborts : Prop :=
  ∀ s : State, s.started = true →
    (s.img.stopReaction = .hold →
      (∀ target, (s.seq.state = .waiting ∧ target = ResumeTarget.waiting) ∨ (s.seq.state = .running ∧ target = .running) →
        ∃ t, exec .stopReceived s = .next t ∧ t.seq.state = .holding ∧ t.seq.causes.stop = true ∧
          t.seq.resume = some target ∧ t.seq.index = s.seq.index ∧ t.seq.record = s.seq.record ∧ t.rcp = s.rcp ∧
          t.ilk = s.ilk ∧ t.pins = s.pins ∧ t.cfg = s.cfg ∧ t.lnk.answers = s.lnk.answers) ∧
      (s.seq.state = .holding →
        ∃ t, exec .stopReceived s = .next t ∧ t.seq.state = .holding ∧ t.seq.causes.stop = true ∧
          t.seq.resume = s.seq.resume ∧ t.hpc = s.hpc ∧ t.pcc = s.pcc ∧ t.drv = s.drv ∧
          t.lnk.notices = s.lnk.notices ∧ t.rcp = s.rcp ∧ t.ilk = s.ilk ∧ t.pins = s.pins) ∧
      (s.seq.state = .ending →
        ∃ t, exec .stopReceived s = .next t ∧
          t.seq = { s.seq with deferred := { s.seq.deferred with stop := true } } ∧ t.hpc = s.hpc ∧ t.pcc = s.pcc ∧
          t.lnk.notices = s.lnk.notices ∧ t.rcp = s.rcp ∧ t.ilk = s.ilk ∧ t.pins = s.pins) ∧
      (s.seq.state.inRun = false → exec .stopReceived s = .next (settle s))) ∧
    (s.img.stopReaction = .abort →
      (s.seq.state.inRun = true →
        ∃ t, exec .stopReceived s = .next t ∧ t.seq.state = .aborting ∧ t.seq.result = .stopped ∧
          t.seq.first = s.seq.first ∧ t.seq.causes.isEmpty = true ∧ t.seq.abortTimer = some 0 ∧ CutsStep s t ∧ t.rcp = s.rcp ∧
          t.ilk = s.ilk ∧ t.pins = s.pins) ∧
      (s.seq.state.inRun = false → exec .stopReceived s = .next (settle s)))

/-- The arbiter starts the head of the lowest-class queue or slot once the quiet time has reached its gap: 10 + 16 × class + node, and the
retreat 4 + 4 × (serial mod 16) after a collision. A NOTICE takes the notices-lost count as its payload's byte 1 at that moment.

A frame is driven byte by byte, each a start bit at 0, its bits from bit 0 up, and a stop bit at 1. Driven to its end it leaves its queue, or its
slot unless that was filled anew; the quiet time starts from 0 and a NOTICE's lost count is taken off. With a restart pending and no ANSWER left,
the station resets.

A collision, which the station can see where it drives a 1: it stops driving, COLLISION_SEEN is set, the carrier goes on as no frame, and the
frame's count rises by one where it stands; the sixteenth discards it, a NOTICE then counted as lost. A slot filled anew keeps its new frame as it
is. Where the ANSWER of a pending restart is discarded, the station resets. Another node's carrier ends a quiet period; its frame may be taken only
where the station was not transmitting.

The model's choice: the overlap of carriers is log entry 31, the cleared receive buffer log entry 30, the bit an echo mismatch is judged on log
entry 45. -/
def Obligations.FramesAreSentByClass : Prop :=
  (∀ (s : State) (f : Frame) (cls : Nat), s.cfg.startUp = .ready → s.cfg.held = false → s.pins.supplyLow = false →
     s.lnk.sending = none → s.lnk.carrier = none →
     (cls = 0 ∧ f.kind = .stop ∧ s.lnk.stopSlot = some f) ∨
     (cls = 1 ∧ f.kind = .answer ∧ s.lnk.stopSlot = none ∧ s.lnk.answers.head? = some f) ∨
     (cls = 2 ∧ f.kind = .demand ∧ s.lnk.stopSlot = none ∧ s.lnk.answers = [] ∧ s.lnk.demandSlot = some f) ∨
     (cls = 3 ∧ f.kind = .notice ∧ s.lnk.stopSlot = none ∧ s.lnk.answers = [] ∧ s.lnk.demandSlot = none ∧
       s.lnk.notices.head? = some f) →
     10 + 16 * cls + s.img.node + (if 0 < f.collisions then 4 + 4 * (s.img.serial % 16) else 0) ≤ s.lnk.quiet →
     exec .transmitStart s = .next { s with lnk := { s.lnk with
       quiet := 0
       sending := some (if f.kind = .notice then ⟨{ f with payload := withLost f.payload s.lnk.lost }, 0, s.lnk.lost, false⟩
         else ⟨f, 0, 0, false⟩) } }) ∧
  (∀ (f : Frame) (i : Image), (f.bits i).length = (5 + f.payload.length) * 10 ∧
     ∀ (j : Nat) (b : Byte), (f.wire i)[j]? = some b →
       (f.bits i)[10 * j]? = some false ∧ (f.bits i)[10 * j + 9]? = some true ∧
       ∀ k, k < 8 → (f.bits i)[10 * j + 1 + k]? = some (b.getLsbD k)) ∧
  (∀ (s : State) (x : Sending), s.started = true → s.lnk.sending = some x →
     (5 + x.frame.payload.length) * 10 ≤ x.timer →
     let sent : State := { s with lnk := { s.lnk with
       stopSlot := if x.frame.kind = .stop ∧ x.replaced = false then none else s.lnk.stopSlot
       answers := if x.frame.kind = .answer ∨ x.frame.kind = .order then s.lnk.answers.tail else s.lnk.answers
       demandSlot := if x.frame.kind = .demand ∧ x.replaced = false then none else s.lnk.demandSlot
       notices := if x.frame.kind = .notice then s.lnk.notices.tail else s.lnk.notices
       sending := none, carrier := none, quiet := 0, lost := s.lnk.lost - x.lost } }
     exec .frameSent s =
       .next (if s.cfg.restartPending = true ∧ sent.lnk.answers = [] then doReset .restartOrder false sent else sent)) ∧
  (∀ (s : State) (x : Sending), s.started = true → s.lnk.sending = some x →
     ((x.frame.bits s.img)[x.timer]? ≠ some true → exec .echoMismatch s = .next s) ∧
     ((x.frame.bits s.img)[x.timer]? = some true →
       (∀ (f : Frame) (rest : List Frame), x.frame.kind = .notice → s.lnk.notices = f :: rest →
         s.cfg.restartPending = false ∨ s.lnk.answers ≠ [] →
         exec .echoMismatch s = .next { s with lnk := { s.lnk with
           sending := none, carrier := some false, collisionSeen := true
           notices := if x.frame.collisions + 1 < 16 then { f with collisions := f.collisions + 1 } :: rest else rest
           lost := if x.frame.collisions + 1 < 16 then s.lnk.lost else min 255 (s.lnk.lost + 1) } }) ∧
       (∀ (f : Frame) (rest : List Frame), x.frame.kind = .answer → s.lnk.answers = f :: rest →
         (s.cfg.restartPending = false ∨ x.frame.collisions + 1 < 16 ∨ rest ≠ [] →
           exec .echoMismatch s = .next { s with lnk := { s.lnk with
             sending := none, carrier := some false, collisionSeen := true
             answers := if x.frame.collisions + 1 < 16 then { f with collisions := f.collisions + 1 } :: rest
               else rest } }) ∧
         (s.cfg.restartPending = true → 16 ≤ x.frame.collisions + 1 → rest = [] →
           exec .echoMismatch s =
             .next (doReset .restartOrder false { s with lnk := { s.lnk with carrier := some false } }))) ∧
       (s.cfg.restartPending = false ∨ s.lnk.answers ≠ [] →
         (∀ f : Frame, x.frame.kind = .demand → s.lnk.demandSlot = some f →
           exec .echoMismatch s = .next { s with lnk := { s.lnk with
             sending := none, carrier := some false, collisionSeen := true
             demandSlot := if x.replaced = true then some f
               else if x.frame.collisions + 1 < 16 then some { f with collisions := f.collisions + 1 } else none } }) ∧
         (∀ f : Frame, x.frame.kind = .stop → s.lnk.stopSlot = some f →
           exec .echoMismatch s = .next { s with lnk := { s.lnk with
             sending := none, carrier := some false, collisionSeen := true
             stopSlot := if x.replaced = true then some f
               else if x.frame.collisions + 1 < 16 then some { f with collisions := f.collisions + 1 }
                 else none } })))) ∧
  (∀ s : State, s.lnk.carrier = none →
     exec .carrierBegins s = .next { s with lnk := { s.lnk with
       carrier := some s.lnk.sending.isNone, quiet := 0, received := [] } })

/-! ### Orders -/

/-- LNK takes no ORDER before READY, from a source other than CMDNODE, while a restart is pending, or, addressed, with no place in the
ANSWER queue: such an order changes nothing, whichever it is.

In LOCKOUT every order but the readings and CLEAR_EVENTS is answered MODE (11) and changes nothing else; the answer to RESUME carries the
hold causes. -/
def Obligations.OrdersTurnedAway : Prop :=
  (∀ (s : State) (m : OrderMeta) (n i k : Byte) (data : List Byte) (mask : BitVec 16),
     (s.started = false ∨ s.cfg.startUp = .listen ∨ m.source ≠ s.img.cmdNode ∨ s.cfg.restartPending = true ∨
       (m.toAll = false ∧ s.cfg.startUp ≠ .duplicateNode ∧ 4 ≤ s.lnk.answers.length)) →
     ∀ c ∈ [Instr.unknownOrder m data, .load m n, .unload m, .start m, .hold m, .resume m, .abort m, .clearFault m,
         .readResult m n, .writeHeader m n i data, .writeStep m n i data, .closeRecipe m n, .eraseRecipe m n,
         .eraseStore m, .lockStore m, .readRecipe m n i k, .sumRecipe m n, .writeProfile m n i data, .diskReplaced m,
         .padReplaced m, .queryStatus m n, .clearEvents m mask, .restart m],
       exec c s = .next s) ∧
  (∀ (s : State) (m : OrderMeta) (n i : Byte) (data : List Byte), takesOrder m s = true → s.ilk.mode = .lockout →
     (∀ c ∈ [Instr.load m n, .unload m, .start m, .hold m, .abort m, .clearFault m, .closeRecipe m n, .eraseRecipe m n,
         .eraseStore m, .lockStore m, .diskReplaced m, .padReplaced m, .restart m],
       exec c s = .next (answered m 11 [] s)) ∧
     (data.length = (if i = 0 then 16 else 25) → exec (.writeHeader m n i data) s = .next (answered m 11 [] s)) ∧
     (data.length = 32 → exec (.writeStep m n i data) s = .next (answered m 11 [] s)) ∧
     (data.length = 3 * i.toNat → exec (.writeProfile m n i data) s = .next (answered m 11 [] s)) ∧
     exec (.resume m) s = .next (answered m 11 [byteOf (bitSet s.seq.causes.bits)] s))

/-- An order byte with no meaning, and an empty payload, are answered UNKNOWN (12); an order of the wrong length is answered RANGE (4), RESUME's
with the hold causes (R185); an order that reads well is that order. That UNKNOWN_ORDER runs an order that reads well is the model's choice: log
entry 34. -/
def Obligations.UnknownAndMalformedOrders : Prop :=
  ∀ (s : State) (m : OrderMeta), takesOrder m s = true →
    let taken : List Byte → Host.Outcome State Fault Refusal := fun payload => exec (.unknownOrder m payload) s
    (taken [] = .next (answered m 12 [] s)) ∧
    (∀ (c : Byte) (p : List Byte), 21 < c.toNat → taken (c :: p) = .next (answered m 12 [] s)) ∧
    (∀ p : List Byte,
      (p.length ≠ 1 → ∀ c ∈ [0#8, 7#8, 10#8, 11#8, 12#8, 19#8], taken (c :: p) = .next (answered m 4 [] s)) ∧
      (p ≠ [] → ∀ c ∈ [1#8, 2#8, 3#8, 5#8, 6#8, 13#8, 14#8, 17#8, 18#8, 21#8],
        taken (c :: p) = .next (answered m 4 [] s)) ∧
      (p ≠ [] → taken (4 :: p) = .next (answered m 4 [byteOf (bitSet s.seq.causes.bits)] s)) ∧
      (p.length ≠ 2 + (if p.getD 1 0 = 0 then 16 else 25) → taken (8 :: p) = .next (answered m 4 [] s)) ∧
      (p.length ≠ 34 → taken (9 :: p) = .next (answered m 4 [] s)) ∧
      (p.length ≠ 3 → taken (15 :: p) = .next (answered m 4 [] s)) ∧
      (p.length ≠ 2 + 3 * (p.getD 1 0).toNat → taken (16 :: p) = .next (answered m 4 [] s)) ∧
      (p.length ≠ 2 → taken (20 :: p) = .next (answered m 4 [] s))) ∧
    (∀ (n i k : Byte) (data : List Byte),
      taken [0, n] = exec (.load m n) s ∧ taken [1] = exec (.unload m) s ∧ taken [2] = exec (.start m) s ∧
      taken [3] = exec (.hold m) s ∧ taken [4] = exec (.resume m) s ∧ taken [5] = exec (.abort m) s ∧
      taken [6] = exec (.clearFault m) s ∧ taken [7, n] = exec (.readResult m n) s ∧
      (data.length = (if i = 0 then 16 else 25) → taken (8 :: n :: i :: data) = exec (.writeHeader m n i data) s) ∧
      (data.length = 32 → taken (9 :: n :: i :: data) = exec (.writeStep m n i data) s) ∧
      taken [10, n] = exec (.closeRecipe m n) s ∧ taken [11, n] = exec (.eraseRecipe m n) s ∧
      taken [12, n] = exec (.sumRecipe m n) s ∧ taken [13] = exec (.eraseStore m) s ∧
      taken [14] = exec (.lockStore m) s ∧ taken [15, n, i, k] = exec (.readRecipe m n i k) s ∧
      (data.length = 3 * i.toNat → taken (16 :: n :: i :: data) = exec (.writeProfile m n i data) s) ∧
      taken [17] = exec (.diskReplaced m) s ∧ taken [18] = exec (.padReplaced m) s ∧
      taken [19, n] = exec (.queryStatus m n) s ∧
      taken [20, n, i] = exec (.clearEvents m (BitVec.ofNat 16 (n.toNat + 256 * i.toNat))) s ∧
      taken [21] = exec (.restart m) s)

/-- LOAD in EMPTY, LOADED or DONE of a CLOSED slot whose sum agrees: the working copy is the slot's recipe (its name, settings,
signatures, stored sum and steps 1 to its step count), the run record is empty, the step
index 0 and the state LOADED, with every valve shut, the head vented and the drives commanded to 0; a slot whose sum disagrees becomes
CORRUPT, its header as the store held it, and is answered CORRUPT (8).

LOAD is refused, and changes nothing, with STATE (2) in any other state, then with RANGE (4) for a slot number outside 1 to 16, BUSY (3) with a
store operation in flight, EMPTY (6) for an ERASED or OPEN slot and CORRUPT (8) for one already CORRUPT. That a vent leaves no target set in force is
log entry 20, and that the slot marked CORRUPT keeps its step count log entry 39. -/
def Obligations.LoadTakesTheCopy : Prop :=
  (∀ (s : State) (m : OrderMeta) (n : Byte), takesOrder m s = true → s.ilk.mode ≠ .lockout →
    (s.seq.state ∉ [SeqState.empty, .loaded, .done] → exec (.load m n) s = .next (answered m 2 [] s)) ∧
    (s.seq.state = .empty ∨ s.seq.state = .loaded ∨ s.seq.state = .done →
      (n.toNat = 0 ∨ 16 < n.toNat → exec (.load m n) s = .next (answered m 4 [] s)) ∧
      (1 ≤ n.toNat → n.toNat ≤ 16 →
        (s.rcp.op.isSome = true → exec (.load m n) s = .next (answered m 3 [] s)) ∧
        (s.rcp.op = none →
          ((s.slot n.toNat).state = .erased ∨ (s.slot n.toNat).state = .opened →
            exec (.load m n) s = .next (answered m 6 [] s)) ∧
          ((s.slot n.toNat).state = .corrupt → exec (.load m n) s = .next (answered m 8 [] s)) ∧
          ((s.slot n.toNat).state = .closed →
            ((s.slot n.toNat).sumOf (s.slot n.toNat).stepCount = (s.slot n.toNat).sum →
              ∃ t, exec (.load m n) s = .next t ∧
                t.seq = { s.seq with
                  state := .loaded, copy := some (s.slot n.toNat).recipe, record := [], result := .none, index := 0 } ∧
                t.lnk.answers = (answered m 0 [] s).lnk.answers ∧ t.hpc.inForce = false ∧ t.hpc.ramp = none ∧
                (∀ (c : Channel) (f : Feed), ((t.chan c).valves.get f).isOpen = false) ∧ t.sdu.di.isOpen = false ∧
                (∀ c : HeadCh, (t.head c).applied = 0) ∧ (∀ d : Drive, (t.drive d).setpoint = 0) ∧
                t.epm.state = .stopped ∧ t.rcp = s.rcp ∧ t.pcc = s.pcc ∧ t.ilk = s.ilk ∧ t.cfg = s.cfg ∧
                t.pins = s.pins ∧ t.peer.table = s.peer.table ∧ t.pending = s.pending) ∧
            ((s.slot n.toNat).sumOf (s.slot n.toNat).stepCount ≠ (s.slot n.toNat).sum →
              exec (.load m n) s = .next (answered m 8 [] { s with rcp := { s.rcp with
                slots := s.rcp.slots.set (n.toNat - 1) { s.slot n.toNat with state := .corrupt } } }))))))) ∧
  (∀ sl : Slot,
    let byte : Nat → Nat := fun i => (sl.part0.getD i 0).toNat
    sl.recipe.name = sl.part0.take 12 ∧ sl.recipe.threshold = byte 12 + 256 * byte 13 ∧
    (byte 14 ≤ 3 → sl.recipe.period = 500 * 2 ^ byte 14) ∧ sl.recipe.recovery = byte 15 ∧ sl.recipe.sum = sl.sum ∧
    (∀ i, i < 3 → sl.recipe.sigs.get i = readSig (sl.sigs.get i)) ∧
    ∀ i, sl.recipe.steps[i]? = if i < sl.stepCount then (sl.steps[i]?).map readStep else none)

/-- UNLOAD in LOADED and DONE: the working copy is discarded, the step index 0 and the state EMPTY; the run record and the run result are
kept. In any other state it is answered STATE (2) and changes nothing. -/
def Obligations.UnloadKeepsTheRecord : Prop :=
  ∀ (s : State) (m : OrderMeta), takesOrder m s = true → s.ilk.mode ≠ .lockout →
    (s.seq.state = .loaded ∨ s.seq.state = .done →
      ∃ t, exec (.unload m) s = .next t ∧ t.seq = { s.seq with state := .empty, copy := none, index := 0 } ∧
        t.lnk.answers = (answered m 0 [] s).lnk.answers ∧ t.rcp = s.rcp ∧ t.pcc = s.pcc ∧ t.ilk = s.ilk ∧
        t.cfg = s.cfg ∧ t.pins = s.pins ∧ t.peer.table = s.peer.table ∧ t.pending = s.pending) ∧
    (s.seq.state ≠ .loaded → s.seq.state ≠ .done → exec (.unload m) s = .next (answered m 2 [] s))

/-- START in LOADED or DONE with a working copy, in RUN and with neither life counter worn: the run record is empty, step 1 waits with every
step timer at 0, and the drives take the step's speeds and the head hold levels (or vents, for a CONDITION step). With no trip input
active and no switch that meets a fault, the state is WAITING, or, for a conditioning step with COND_LOST set, HOLDING with cause CONDITIONER. A
switch that meets a fault is the fault VALVE, and a trip input that is active the fault DRIVE_TRIP: the step is entered CUT and the station is in
ABORTING, its DEMAND of WAITING followed in the slot by an IDLE one.

In any other state, or without a working copy, it is answered STATE (2); in SERVICE, MODE (11); with a worn counter, WORN (10). That a vent takes the
targets to 0 is log entry 20, and the order of the entry's faults log entry 13. -/
def Obligations.StartEntersWaiting : Prop :=
  (∀ (s : State) (m : OrderMeta), takesOrder m s = true → s.ilk.mode ≠ .lockout →
    (s.seq.state ≠ .loaded ∧ s.seq.state ≠ .done) ∨ s.seq.copy = none →
    exec (.start m) s = .next (answered m 2 [] s)) ∧
  (∀ (s : State) (m : OrderMeta) (r : Recipe) (st : StepRec), takesOrder m s = true → s.ilk.mode ≠ .lockout →
    s.seq.copy = some r → r.steps[0]? = some st → s.seq.state = .loaded ∨ s.seq.state = .done →
    (s.ilk.mode = .service → exec (.start m) s = .next (answered m 11 [] s)) ∧
    (s.ilk.mode = .run → s.img.diskLimit ≤ s.pcc.diskLife ∨ s.img.padLimit ≤ s.pcc.padLife →
      exec (.start m) s = .next (answered m 10 [] s)) ∧
    (s.ilk.mode = .run → s.pcc.diskLife < s.img.diskLimit → s.pcc.padLife < s.img.padLimit →
      let switchesMeetFault := switchFault .main (targetOf .main st) s || switchFault .additive (targetOf .additive st) s
      let tripped := s.pins.trip.platen || s.pins.trip.head
      (tripped = false → s.seq.deferred = CauseSet.empty → switchesMeetFault = false →
        ∃ t, exec (.start m) s = .next t ∧
          (s.pcc.condLost = false ∨ st.inSitu = false → t.seq.state = .waiting ∧ t.seq.causes = CauseSet.empty) ∧
          (s.pcc.condLost = true → st.inSitu = true →
            t.seq.state = .holding ∧ t.seq.causes.conditioner = true ∧ t.seq.resume = some .waiting) ∧
          t.seq.index = 1 ∧ t.seq.record = [] ∧ t.seq.result = .none ∧ t.seq.elapsed = 0 ∧ t.seq.hold = 0 ∧
          t.seq.waiting = 0 ∧ t.seq.disposition = .normal ∧ t.seq.endpoint = none ∧ t.seq.copy = s.seq.copy ∧
          t.seq.first = s.seq.first ∧ (t.drive .platen).setpoint = st.platenSpeed ∧
          (t.drive .head).setpoint = st.headSpeed ∧
          (st.kind = .condition → ∀ c : HeadCh, (t.head c).applied = 0 ∧ (t.head c).target = 0) ∧
          (st.kind ≠ .condition → ∀ c : HeadCh, (s.head c).state ≠ .channelFault →
            (t.head c).target = (holdTargets s.img).get c) ∧
          t.lnk.answers = (answered m 0 [] s).lnk.answers ∧ t.rcp = s.rcp ∧ t.ilk = s.ilk ∧ t.cfg = s.cfg ∧
          t.pins = s.pins ∧ t.peer.table = s.peer.table ∧ t.pending = s.pending) ∧
      (tripped = true ∨ switchesMeetFault = true →
        ∃ t, exec (.start m) s = .next t ∧ t.seq.state = .aborting ∧ t.seq.result = .faulted ∧
          t.seq.first = some (if switchesMeetFault = true then .valve else .driveTrip) ∧
          t.seq.later = (if switchesMeetFault = true ∧ tripped = true ∨ s.pins.trip = ⟨true, true⟩
            then s.seq.later.add .driveTrip else s.seq.later) ∧
          t.seq.index = 1 ∧ t.seq.record.map RunEntry.result = [.cut] ∧ t.seq.causes = CauseSet.empty ∧
          (∀ d : Drive, (t.drive d).setpoint = 0) ∧ t.peer.own = ⟨.idle, none, none⟩ ∧
          (s.cfg.startUp = .ready → st.mainFeed.isSome = true →
            t.lnk.demandSlot = some ⟨.demand, 0, [0, 0], 0⟩) ∧
          t.lnk.answers = (answered m 0 [] s).lnk.answers ∧ OutsideStands s t)))

/-- HOLD: WAITING and RUNNING enter HOLDING with cause ORDERED and the state left as resume target; ENDING defers the cause; every other state,
HOLDING included, is answered STATE (2).

ABORT: a run in progress enters ABORTING with result ABORTED, the cause sets empty, the abort timer at 0, both drives commanded to 0, the head
vented, every feed valve shut, and a step without an entry recorded as CUT with STEP_ENDED queued; in ABORTING it is answered OK and changes
nothing else; at rest it is answered STATE (2). That the resume point becomes absent for a PARKED arm too is log entry 17, and the dose in the CUT
entry of a step that has not started log entry 28. -/
def Obligations.HoldAndAbort : Prop :=
  (∀ (s : State) (m : OrderMeta), takesOrder m s = true → s.ilk.mode ≠ .lockout →
     (∀ target, (s.seq.state = .waiting ∧ target = ResumeTarget.waiting) ∨ (s.seq.state = .running ∧ target = .running) →
       ∃ t, exec (.hold m) s = .next t ∧ t.seq.state = .holding ∧ t.seq.causes.ordered = true ∧
         t.seq.resume = some target ∧ t.seq.index = s.seq.index ∧ t.seq.elapsed = s.seq.elapsed ∧
         t.seq.record = s.seq.record ∧ t.seq.copy = s.seq.copy ∧ t.sdu.dose = s.sdu.dose ∧ t.drv = s.drv ∧
         t.lnk.answers = (answered m 0 [] s).lnk.answers ∧ t.rcp = s.rcp ∧ t.ilk = s.ilk ∧ t.cfg = s.cfg ∧
         t.pins = s.pins ∧ t.peer.table = s.peer.table ∧ t.pending = s.pending) ∧
     (s.seq.state = .ending →
       ∃ t, exec (.hold m) s = .next t ∧ t.seq = { s.seq with deferred := { s.seq.deferred with ordered := true } } ∧
         t.lnk.answers = (answered m 0 [] s).lnk.answers ∧ t.hpc = s.hpc ∧ t.pcc = s.pcc ∧ t.epm = s.epm ∧
         t.drv = s.drv ∧ t.rcp = s.rcp ∧ t.ilk = s.ilk ∧ t.cfg = s.cfg ∧ t.pins = s.pins ∧ t.pending = s.pending) ∧
     (s.seq.state ∉ [SeqState.waiting, .running, .ending] → exec (.hold m) s = .next (answered m 2 [] s))) ∧
  (∀ (s : State) (m : OrderMeta), takesOrder m s = true → s.ilk.mode ≠ .lockout →
     (s.seq.state.inRun = true →
       ∃ t, exec (.abort m) s = .next t ∧ t.seq.state = .aborting ∧ t.seq.result = .aborted ∧
         t.seq.causes.isEmpty = true ∧ t.seq.deferred.isEmpty = true ∧ t.seq.resume = none ∧
         t.seq.abortTimer = some 0 ∧ t.seq.first = s.seq.first ∧ t.seq.index = s.seq.index ∧ t.seq.copy = s.seq.copy ∧
         (∀ d : Drive, (t.drive d).setpoint = 0) ∧ (∀ c : HeadCh, (t.head c).applied = 0) ∧
         (∀ (c : Channel) (f : Feed), ((t.chan c).valves.get f).isOpen = false) ∧ t.sdu.di.isOpen = false ∧
         t.epm.state = .stopped ∧ t.pcc.resume = none ∧ CutsStep s t ∧
         t.lnk.answers = (answered m 0 [] s).lnk.answers ∧ t.rcp = s.rcp ∧ t.ilk = s.ilk ∧ t.cfg = s.cfg ∧
         t.pins = s.pins ∧ t.peer.table = s.peer.table ∧ t.pending = s.pending) ∧
     (s.seq.state = .aborting → exec (.abort m) s = .next (answered m 0 [] s)) ∧
     (s.seq.state.atRest = true → exec (.abort m) s = .next (answered m 2 [] s)))

/-- RESUME in HOLDING: ORDERED, STOP, CONDITIONER and ENDPOINT leave the set, and MODE and INTERLOCK where their reason has gone; the answer carries
what stays. SHARE and SUPPLY leave only as SDU withdraws them. With MODE kept by SERVICE, INTERLOCK by an active HOLD line, SUPPLY by a low inlet
or SHARE by its condition the sequencer stays in HOLDING, and CONDITIONER has left with its decision taken. With nothing left, resume target
WAITING returns to WAITING; resume target RUNNING returns to RUNNING (where SHARE may hold it again at once), or, for a step already concluded,
goes to ENDING. The return to RUNNING queues HOLD_LEFT, takes the step targets afresh, puts a suspended symbolizer in REFERENCE, and moves the arm
in toward its resume point within the profile as read now; with the SHARE condition holding it stays in HOLDING with cause SHARE. Where
CONDITIONER leaves with COND_LOST still set, an IN_SITU step goes on without conditioning and a CONDITION step is skipped, each with its COND_LOST
flag. A resume point whose profile cannot be read is the arm fault PROFILE, its COND_LOST behind HOLD_LEFT (log entry 41). In any other state the
answer is STATE (2). That such a fault leaves the home state as it stood is log entry 47. That a vented
channel has target 0 and none in force is log entry 20. -/
def Obligations.ResumeClearsItsCauses : Prop :=
  ∀ (s : State) (m : OrderMeta), takesOrder m s = true → s.ilk.mode ≠ .lockout →
    (s.seq.state = .holding →
      let kept : CauseSet := { CauseSet.empty with
        interlock := s.seq.causes.interlock && holdLineActive s, mode := s.seq.causes.mode && s.ilk.mode == .service
        share := s.seq.causes.share, supply := s.seq.causes.supply }
      let decided : Seq :=
        if s.seq.causes.conditioner = true ∧ s.pcc.condLost = true then
          if s.stepKind = some .condition then { s.seq with disposition := .skip }
          else { s.seq with disposition := .conditioningOff, flags := { s.seq.flags with condLost := true } }
        else s.seq
      let u : State := { s with seq := { decided with causes := kept } }
      kept.isEmpty = false →
        exec (.resume m) s = .next (answered m 0 [byteOf (bitSet (settle u).seq.causes.bits)] (settle u)) ∧
        (kept.interlock = true ∨ kept.mode = true ∨
            (kept.supply = true ∧ ((s.chan .main).supplyLow = true ∨ (s.chan .additive).supplyLow = true)) →
          (settle u).seq.state = .holding ∧ (settle u).seq.causes.interlock = kept.interlock ∧
          (settle u).seq.causes.mode = kept.mode) ∧
        (kept.share = true → (carry u).sdu.share = true →
          (settle u).seq.state = .holding ∧ (settle u).seq.causes.share = true)) ∧
    (s.seq.state = .holding → s.pcc.condLost = false ∨ s.seq.causes.conditioner = false →
      (s.seq.causes.mode = true ∧ s.ilk.mode = .service ∨ s.seq.causes.interlock = true ∧ holdLineActive s = true →
        ∃ t, exec (.resume m) s = .next t ∧ t.seq.state = .holding ∧
          t.seq.causes.mode = (s.seq.causes.mode && s.ilk.mode == .service) ∧
          t.seq.causes.interlock = (s.seq.causes.interlock && holdLineActive s) ∧ t.seq.causes.ordered = false ∧
          t.seq.causes.stop = false ∧ t.seq.causes.conditioner = false ∧ t.seq.causes.endpoint = false ∧
          t.seq.resume = s.seq.resume ∧ t.hpc = s.hpc ∧ t.pcc = s.pcc ∧ t.drv = s.drv ∧ t.lnk.notices = s.lnk.notices ∧
          t.lnk.answers = (answered m 0 [byteOf (bitSet t.seq.causes.bits)] s).lnk.answers ∧ t.rcp = s.rcp ∧
          t.ilk = s.ilk ∧ t.cfg = s.cfg ∧ t.pins = s.pins ∧ t.pending = s.pending) ∧
      (s.seq.causes.interlock = false ∨ holdLineActive s = false → s.seq.causes.mode = false ∨ s.ilk.mode = .run →
        s.seq.causes.share = false → s.seq.causes.supply = false →
        (s.seq.resume = some .waiting → s.seq.disposition = .skip → postRinseFault s = false →
          ∃ t, exec (.resume m) s = .next t ∧ t.seq.state = .ending ∧ t.seq.causes = CauseSet.empty ∧ t.seq.resume = none ∧
            t.seq.record = s.seq.record ++
              [⟨s.seq.index, .skipped, 0, min 65535 (s.seq.hold / 100000), 0, none, { s.seq.flags with condLost := true }⟩] ∧
            t.lnk.answers = (answered m 0 [0#8] s).lnk.answers ∧ t.drv = s.drv ∧ OutsideStands s t) ∧
        (s.seq.resume = some .waiting → s.seq.disposition ≠ .skip →
          ∃ t, exec (.resume m) s = .next t ∧
            t.seq = { s.seq with state := .waiting, causes := CauseSet.empty, resume := none } ∧
            t.hpc = s.hpc ∧ t.pcc = s.pcc ∧ t.drv = s.drv ∧ t.lnk.answers = (answered m 0 [0#8] s).lnk.answers ∧
            t.rcp = s.rcp ∧ t.ilk = s.ilk ∧ t.cfg = s.cfg ∧ t.pins = s.pins ∧ t.pending = s.pending) ∧
        (s.seq.resume = some .running → s.seq.disposition ≠ .concluded → s.sdu.share = false →
          ∃ t, exec (.resume m) s = .next t ∧
            (t.seq.state = .running ∨ t.seq.state = .holding ∧ t.seq.resume = some .running) ∧
            t.seq.elapsed = s.seq.elapsed ∧ t.seq.index = s.seq.index ∧ t.seq.copy = s.seq.copy ∧
            t.sdu.dose = s.sdu.dose ∧ t.rcp = s.rcp ∧ t.ilk = s.ilk ∧ t.cfg = s.cfg ∧ t.pins = s.pins ∧
            t.pending = s.pending) ∧
        (s.seq.resume = some .running → s.seq.disposition ≠ .concluded → s.sdu.share = false →
          let clamped := s.seq.flags.clamped || decide (s.hpc.stepTargets ≠ s.hpc.ch.map HeadChan.requested)
          let lost := s.pcc.resume.isSome && !s.pcc.withdrawn && (stepProfile s).state != .written
          let left := placeNotice 6 ([byteOf s.seq.index, 3] ++ le2 (min 65535 (s.seq.hold / 100000))) s
          ∃ u, exec (.resume m) s =
              .next (answered m 0 [byteOf (bitSet (settle u).seq.causes.bits)] (settle u)) ∧
            u.seq = { s.seq with
              state := .running, causes := CauseSet.empty, resume := none, sinceStart := false
              flags := { s.seq.flags with clamped := clamped, condLost := s.seq.flags.condLost || lost } } ∧
            u.epm = (if s.epm.state = .suspended then { s.epm with state := .reference, periodTimer := 0 } else s.epm) ∧
            u.hpc.stepTargets = s.hpc.stepTargets ∧
            (∀ c : HeadCh, (u.head c).requested = (s.head c).requested ∧ (u.head c).measured = (s.head c).measured) ∧
            (∀ st, s.stepNow = some st →
              (st.kind = .condition → u.hpc.ramp = none ∧ u.hpc.inForce = false ∧
                ∀ c : HeadCh, (u.head c).applied = 0 ∧ (u.head c).target = 0) ∧
              (st.kind ≠ .condition → st.rampTime = 0 → u.hpc.ramp = none ∧ u.hpc.atTarget = true ∧
                ∀ c : HeadCh, (s.head c).state ≠ .channelFault → (u.head c).state = .regulating ∧
                  (u.head c).target = s.hpc.stepTargets.get c ∧ (u.head c).applied = s.hpc.stepTargets.get c) ∧
              (st.kind ≠ .condition → 0 < st.rampTime → u.hpc.ramp = some ⟨s.applied, st.rampTime * 5, 0, 0⟩ ∧
                ∀ c : HeadCh, (s.head c).state ≠ .channelFault → (u.head c).state = .ramping ∧
                  (u.head c).target = s.hpc.stepTargets.get c ∧ (u.head c).applied = (s.head c).applied)) ∧
            (s.pcc.resume = none ∨ s.pcc.withdrawn = true → u.pcc = s.pcc) ∧
            (lost = true → u.pcc = { s.pcc with
              downforce := 0, arm := .lost, resume := none, search := none, withdrawn := true, condLost := true
              positionTimer := 0, stallTimer := 0 }) ∧
            (∀ point, s.pcc.resume = some point → s.pcc.withdrawn = false → lost = false →
              let segs := (stepProfile s).segments
              let radius := min point.radius (lastOuter segs)
              let direction := if lastOuter segs < point.radius then .inward else point.direction
              let seg := u.pcc.segment
              u.pcc = { s.pcc with
                segments := segs, segment := seg, direction := direction, arm := .movingIn, destination := radius
                resume := some ⟨radius, seg, direction⟩ } ∧
              (1 ≤ segs.length → 40000000 ≤ radius → 1 ≤ seg ∧ seg ≤ segs.length ∧
                innerOf segs seg ≤ radius ∧ radius ≤ outerOf segs seg ∧
                (direction = .outward → radius < outerOf segs seg ∨ seg = segs.length) ∧
                (direction = .inward → innerOf segs seg < radius ∨ seg = 1))) ∧
            u.lnk = (if lost then placeNotice 16 (2 :: le2 (s.pins.armFeedback / 1000000)) left else left).lnk ∧
            u.peer = s.peer ∧ u.shr = s.shr ∧ u.sdu = s.sdu ∧ u.drv = s.drv ∧ OutsideStands s u) ∧
        (s.seq.resume = some .running → s.seq.disposition ≠ .concluded → s.sdu.share = true →
          let u := { s with seq := { s.seq with causes := { CauseSet.empty with share := true } } }
          exec (.resume m) s =
            .next (answered m 0 [byteOf (bitSet (settle u).seq.causes.bits)] (settle u))) ∧
        (s.seq.resume = some .running → s.seq.disposition = .concluded → postRinseFault s = false →
          ∃ t, exec (.resume m) s = .next t ∧ t.seq.state = .ending ∧ t.seq.causes = CauseSet.empty ∧
            t.seq.resume = none ∧ t.seq.record = s.seq.record ∧ t.seq.elapsed = s.seq.elapsed ∧
            t.lnk.answers = (answered m 0 [0#8] s).lnk.answers ∧ t.rcp = s.rcp ∧ t.ilk = s.ilk ∧ t.cfg = s.cfg ∧
            t.pins = s.pins ∧ t.pending = s.pending))) ∧
    (s.seq.state = .holding → s.pcc.condLost = true → s.seq.causes.conditioner = true →
      s.seq.causes.interlock = false ∨ holdLineActive s = false → s.seq.causes.mode = false ∨ s.ilk.mode = .run →
      s.seq.causes.share = false → s.seq.causes.supply = false → s.seq.resume = some .waiting →
      let flags := { s.seq.flags with condLost := true }
      (s.stepKind ≠ some .condition →
        ∃ t, exec (.resume m) s = .next t ∧
          t.seq = { s.seq with
            state := .waiting, causes := CauseSet.empty, resume := none, disposition := .conditioningOff, flags := flags } ∧
          t.hpc = s.hpc ∧ t.pcc = s.pcc ∧ t.drv = s.drv ∧ t.lnk.answers = (answered m 0 [0#8] s).lnk.answers ∧
          t.rcp = s.rcp ∧ t.ilk = s.ilk ∧ t.cfg = s.cfg ∧ t.pins = s.pins ∧ t.pending = s.pending) ∧
      (s.stepKind = some .condition → postRinseFault s = false →
        ∃ t, exec (.resume m) s = .next t ∧ t.seq.state = .ending ∧ t.seq.causes = CauseSet.empty ∧ t.seq.resume = none ∧
          t.seq.disposition = .skip ∧ t.seq.index = s.seq.index ∧
          t.seq.record = s.seq.record ++
            [⟨s.seq.index, .skipped, 0, min 65535 (s.seq.hold / 100000), 0, none, flags⟩] ∧
          t.lnk.answers = (answered m 0 [0#8] s).lnk.answers ∧ t.drv = s.drv ∧ OutsideStands s t)) ∧
    (s.seq.state ≠ .holding → exec (.resume m) s = .next (answered m 2 [byteOf (bitSet s.seq.causes.bits)] s))

/-- CLEAR_FAULT in FAULTED, with no DUPLICATE_NODE in the record and no line routed ABORT or LINK_STOP active: the fault record empties, every
CHANNEL_FAULT channel enters VENTED, and the state is DONE; else it is answered STATE (2) and changes nothing. -/
def Obligations.ClearFaultEntersDone : Prop :=
  ∀ (s : State) (m : OrderMeta), takesOrder m s = true → s.ilk.mode ≠ .lockout →
    (s.seq.state = .faulted → s.seq.first ≠ some .duplicateNode → s.seq.later.duplicateNode = false →
      faultLineActive s = false →
      ∃ t, exec (.clearFault m) s = .next t ∧
        t.seq = { s.seq with state := .done, first := none, later := KindSet.empty } ∧
        (∀ c : HeadCh, (t.head c).state = .vented ∧ (t.head c).applied = 0 ∧
          ((s.head c).state = .channelFault → (t.head c).overTimer = 0)) ∧
        t.lnk.answers = (answered m 0 [] s).lnk.answers ∧ t.rcp = s.rcp ∧ t.pcc = s.pcc ∧ t.ilk = s.ilk ∧
        t.cfg = s.cfg ∧ t.pins = s.pins ∧ t.pending = s.pending) ∧
    (s.seq.state ≠ .faulted ∨ s.seq.first = some .duplicateNode ∨ s.seq.later.duplicateNode = true ∨
      faultLineActive s = true → exec (.clearFault m) s = .next (answered m 2 [] s))

/-- QUERY_STATUS answers OK with page 0 or 1 of the status record as it stands, and any other page with RANGE (4); it changes nothing.

Page 0: the sequencer state and step index, the hold causes and the fault record; for each item its feed, request and effective grant; the derate
steps; ISOLATED, the store's state and the sticky flags; the lines' flags and levels; tool mode, reset cause, arm state; the life percents and the
fallbacks. Page 1: the applied and measured pressures and the channel states. That an absent item shows 7, 0 and 0 is log entry 19; that the
first-named derate step and channel state take the low bits, log entry 49. -/
def Obligations.QueryStatusChangesNothing : Prop :=
  (∀ (s : State) (m : OrderMeta) (page : Byte), takesOrder m s = true →
    (page = 0 → exec (.queryStatus m page) s = .next (answered m 0 (statusPage0 s) s)) ∧
    (page = 1 → exec (.queryStatus m page) s = .next (answered m 0 (statusPage1 s) s)) ∧
    (page ≠ 0 → page ≠ 1 → exec (.queryStatus m page) s = .next (answered m 4 [] s))) ∧
  (∀ s : State,
    let page := statusPage0 s
    let byte : Nat → Nat := fun i => (page.getD i 0).toNat
    let word : Nat → Nat := fun i => byte i + 256 * byte (i + 1)
    let bits : Nat → List Bool := fun i => (List.range 8).map (fun j => (page.getD i 0).getLsbD j)
    let percent : Nat → Nat → Nat := fun life limit => if limit = 0 then 255 else min 255 (life * 100 / limit)
    let kinds : List FaultKind :=
      [.leak, .overpressure, .supplyAir, .valve, .pumpBlocked, .driveTrip, .interlock, .duplicateNode]
    page.length = 28 ∧ byte 0 = 0 ∧
    byte 1 = [SeqState.empty, .loaded, .waiting, .running, .holding, .ending, .aborting, .done, .faulted].idxOf s.seq.state ∧
    byte 2 = s.seq.index % 256 ∧
    bits 3 = [s.seq.causes.ordered, s.seq.causes.interlock, s.seq.causes.stop, s.seq.causes.mode, s.seq.causes.share,
      s.seq.causes.supply, s.seq.causes.conditioner, s.seq.causes.endpoint] ∧
    (s.seq.first = none → byte 4 = 0) ∧ (∀ k, s.seq.first = some k → byte 4 = 1 + kinds.idxOf k) ∧
    bits 5 = [s.seq.later.leak, s.seq.later.overpressure, s.seq.later.supplyAir, s.seq.later.valve,
      s.seq.later.pumpBlocked, s.seq.later.driveTrip, s.seq.later.interlock, s.seq.later.duplicateNode] ∧
    (∀ (i : Nat) (item : Option Item), (i = 6 ∧ item = s.peer.own.main) ∨ (i = 11 ∧ item = s.peer.own.additive) →
      (item = none → byte i = 7 ∧ word (i + 1) = 0 ∧ word (i + 3) = 0) ∧
      (∀ x, item = some x → byte i = [Feed.a, .b, .c, .d].idxOf x.feed ∧ word (i + 1) = x.q % 65536 ∧
        word (i + 3) = (s.shr.get x.feed).effective % 65536)) ∧
    ((∀ f : Feed, (s.shr.get f).k ≤ 4) →
      byte 16 % 16 = s.shr.a.k ∧ byte 16 / 16 = s.shr.b.k ∧ byte 17 % 16 = s.shr.c.k ∧ byte 17 / 16 = s.shr.d.k) ∧
    bits 18 = [s.peer.isolated, s.rcp.op.isSome, s.rcp.lock, false, false, false, false, false] ∧
    bits 19 = [s.sdu.mismatch, s.drv.tachLost, s.pcc.condLost, s.hpc.warn, s.ilk.modeIllegal, s.lnk.collisionSeen,
      s.lnk.checkErrorSeen, s.lnk.malformedSeen] ∧
    (∀ l : Line, (page.getD 20 0).getLsbD (numLine l) = (s.line l).sticky ∧
      (page.getD 21 0).getLsbD (numLine l) = ((s.line l).level == .active) ∧
      (page.getD 22 0).getLsbD (numLine l) = ((s.line l).level == .unknown)) ∧
    byte 23 % 16 = [ToolMode.run, .service, .lockout].idxOf s.ilk.mode ∧
    byte 23 / 16 = [ResetCause.powerOn, .resetLine, .restartOrder].idxOf s.cfg.cause ∧
    byte 24 = [ArmState.parked, .movingIn, .sweeping, .lifting, .lost].idxOf s.pcc.arm ∧
    byte 25 = percent s.pcc.diskLife s.img.diskLimit ∧ byte 26 = percent s.pcc.padLife s.img.padLimit ∧
    bits 27 = [(s.chan .main).source == .fallback, (s.chan .additive).source == .fallback,
      (s.drive .platen).source == .estimate, (s.drive .head).source == .estimate, false, false, false, false]) ∧
  (∀ s : State,
    let page := statusPage1 s
    let word : Nat → Nat := fun i => (page.getD i 0).toNat + 256 * (page.getD (i + 1) 0).toNat
    page.length = 27 ∧ page.getD 0 0 = 1 ∧ word 25 < 4096 ∧
    ∀ c : HeadCh, word (1 + 2 * numHeadCh c) = (s.head c).applied % 65536 ∧
      word (13 + 2 * numHeadCh c) = (s.head c).measured % 65536 ∧
      word 25 / 4 ^ numHeadCh c % 4 = [ChanState.vented, .ramping, .regulating, .channelFault].idxOf (s.head c).state)

/-- READ_RESULT, READ_RECIPE and SUM_RECIPE change nothing but the ANSWER queue, for every operand: the run result with up to four entries from the
position asked; the slot state, the mark and the contents of a written header part or step, header part 0 with the step count and the stored sum,
or EMPTY (6) with the slot state; the computed and the stored sum and whether they agree, EMPTY for a slot that is ERASED or OPEN and CORRUPT (8)
for one that is. With a store operation in flight the last two are answered BUSY (3), and for a slot, part kind or part out of range RANGE (4). That
the answer's bytes are in the order of Table 10-8 is log entry 25. That a sum takes two bytes is log
entry 15. What an ERASED, OPEN or CORRUPT slot holds as count and sum is log entry 39. -/
def Obligations.ReadingsOnlyAnswer : Prop :=
  ∀ (s : State) (m : OrderMeta) (n i : Byte), takesOrder m s = true →
    exec (.readResult m n) s = .next (answered m 0 ([byteOf (numRun s.seq.result), byteOf s.seq.record.length,
      byteOf (max 1 n.toNat)] ++ ((s.seq.record.drop (max 1 n.toNat - 1)).take 4).flatMap RunEntry.bytes) s) ∧
    (∀ k : Byte, s.rcp.op.isSome = true →
      exec (.readRecipe m n k i) s = .next (answered m 3 [] s) ∧ exec (.sumRecipe m n) s = .next (answered m 3 [] s)) ∧
    (s.rcp.op = none →
      let sl := s.slot n.toNat
      let inSlot : Prop := 1 ≤ n.toNat ∧ n.toNat ≤ 16
      let reads : Byte → Bool → List Byte → Prop := fun k marked contents =>
        exec (.readRecipe m n k i) s = .next (if marked = true then
          answered m 0 ([byteOf (numSlot sl.state), 1] ++ contents) s
        else answered m 6 [byteOf (numSlot sl.state)] s)
      (inSlot → i = 0 → reads 0 sl.markPart0
        ((sl.part0.take 12 ++ [byteOf sl.stepCount] ++ (sl.part0.drop 12).take 4 ++ sl.sigs.s0 ++ sl.sigs.s1 ++ sl.sigs.s2).take 17 ++
          le2 sl.sum)) ∧
      (inSlot → 1 ≤ i.toNat → i.toNat ≤ 3 → reads 0 (sl.markSigs.get (i.toNat - 1)) (sl.sigs.get (i.toNat - 1))) ∧
      (inSlot → 1 ≤ i.toNat → i.toNat ≤ 24 → reads 1 (sl.markStep i.toNat) (sl.step i.toNat)) ∧
      (∀ k : Byte, ¬inSlot ∨ 1 < k.toNat ∨ (k = 0 ∧ 3 < i.toNat) ∨ (k = 1 ∧ (i = 0 ∨ 24 < i.toNat)) →
        exec (.readRecipe m n k i) s = .next (answered m 4 [] s)) ∧
      (¬inSlot → exec (.sumRecipe m n) s = .next (answered m 4 [] s)) ∧
      (inSlot →
        (sl.state = .erased ∨ sl.state = .opened → exec (.sumRecipe m n) s = .next (answered m 6 [] s)) ∧
        (sl.state = .corrupt → exec (.sumRecipe m n) s = .next (answered m 8 [] s)) ∧
        (sl.state = .closed → exec (.sumRecipe m n) s = .next (answered m 0
          (le2 (sl.sumOf sl.stepCount) ++ le2 sl.sum ++ [if sl.sumOf sl.stepCount = sl.sum then 1 else 0]) s))))

/-! ### The recipe store -/

/-- The six timed store orders, accepted: the operation is in flight from now with its target marked in progress, and the answer is ACCEPTED (1).
Nothing in the store changes yet.

A store order is refused, and changes nothing, at the first check it fails: RANGE (4) for its length; BUSY (3) with an operation in flight; RANGE for
a number out of range; LOCKED (9) under the store lock, which ERASE_STORE does not meet; then by its target's state: CORRUPT (8); WRITTEN (5) for a
CLOSED slot, a part whose mark is set or a WRITTEN profile; EMPTY (6) with nothing to close; GAP (7) for a step missing under the highest; and last
RANGE for a value out of range. -/
def Obligations.StoreOrdersAnswered : Prop :=
  (∀ (s : State) (m : OrderMeta) (n i : Byte) (data : List Byte), takesOrder m s = true → s.ilk.mode ≠ .lockout →
     s.rcp.op = none →
     let begun : StoreOp → Host.Outcome State Fault Refusal := fun o =>
       .next (answered m 1 [] { s with rcp := { s.rcp with inProgress := some o, op := some (o, s.now) } })
     (exec (.eraseStore m) s = begun (.eraseStore 0)) ∧
     (s.rcp.lock = false → 1 ≤ n.toNat → n.toNat ≤ 16 →
       (exec (.eraseRecipe m n) s = begun (.eraseRecipe n.toNat)) ∧
       ((s.slot n.toNat).state = .erased ∨ (s.slot n.toNat).state = .opened →
         (i = 0 → data.length = 16 → (s.slot n.toNat).markPart0 = false → part0Ok data = true →
           exec (.writeHeader m n i data) s = begun (.writeHeader n.toNat 0 data)) ∧
         (1 ≤ i.toNat → i.toNat ≤ 3 → data.length = 25 → (s.slot n.toNat).markSigs.get (i.toNat - 1) = false →
           sigOk data = true → exec (.writeHeader m n i data) s = begun (.writeHeader n.toNat i.toNat data)) ∧
         (1 ≤ i.toNat → i.toNat ≤ 24 → data.length = 32 → (s.slot n.toNat).markStep i.toNat = false →
           stepOk data = true → exec (.writeStep m n i data) s = begun (.writeStep n.toNat i.toNat data)) ∧
         ((s.slot n.toNat).markPart0 = true → 0 < (s.slot n.toNat).highestStep →
           (s.slot n.toNat).stepsWritten (s.slot n.toNat).highestStep = true →
           exec (.closeRecipe m n) s = begun (.closeRecipe n.toNat (s.slot n.toNat).highestStep)))) ∧
     (s.rcp.lock = false → n.toNat ≤ 3 → data.length = 3 * i.toNat → (s.profile n.toNat).state = .unwritten →
       segmentsOk (readSegments data i.toNat) = true →
       exec (.writeProfile m n i data) s = begun (.writeProfile n.toNat (readSegments data i.toNat)))) ∧
  (∀ (s : State) (m : OrderMeta) (n i : Byte) (data : List Byte), takesOrder m s = true → s.ilk.mode ≠ .lockout →
     let refused : Instr → Nat → Prop := fun c code => exec c s = .next (answered m code [] s)
     let header := Instr.writeHeader m n i data
     let step := Instr.writeStep m n i data
     let profile := Instr.writeProfile m n i data
     let headerLong := data.length = (if i = 0 then 16 else 25)
     (¬headerLong → refused header 4) ∧ (data.length ≠ 32 → refused step 4) ∧
     (data.length ≠ 3 * i.toNat → refused profile 4) ∧
     (s.rcp.op.isSome = true →
       (∀ c ∈ [Instr.closeRecipe m n, .eraseRecipe m n, .eraseStore m, .lockStore m], refused c 3) ∧
       (headerLong → refused header 3) ∧ (data.length = 32 → refused step 3) ∧
       (data.length = 3 * i.toNat → refused profile 3)) ∧
     (s.rcp.op = none →
       (n.toNat = 0 ∨ 16 < n.toNat → ∀ c ∈ [Instr.closeRecipe m n, .eraseRecipe m n], refused c 4) ∧
       (n.toNat = 0 ∨ 16 < n.toNat ∨ 3 < i.toNat → headerLong → refused header 4) ∧
       (n.toNat = 0 ∨ 16 < n.toNat ∨ i.toNat = 0 ∨ 24 < i.toNat → data.length = 32 → refused step 4) ∧
       (3 < n.toNat → data.length = 3 * i.toNat → refused profile 4)) ∧
     (s.rcp.op = none → s.rcp.lock = true →
       (1 ≤ n.toNat → n.toNat ≤ 16 →
         (∀ c ∈ [Instr.closeRecipe m n, .eraseRecipe m n], refused c 9) ∧
         (i.toNat ≤ 3 → headerLong → refused header 9) ∧
         (1 ≤ i.toNat → i.toNat ≤ 24 → data.length = 32 → refused step 9)) ∧
       (n.toNat ≤ 3 → data.length = 3 * i.toNat → refused profile 9)) ∧
     (s.rcp.op = none → s.rcp.lock = false → 1 ≤ n.toNat → n.toNat ≤ 16 →
       let slot := s.slot n.toNat
       ((slot.state = .corrupt → refused (.closeRecipe m n) 8) ∧
        (slot.state = .closed → refused (.closeRecipe m n) 5) ∧
        (slot.state = .erased ∨ slot.state = .opened →
          (slot.markPart0 = false ∨ slot.highestStep = 0 → refused (.closeRecipe m n) 6) ∧
          (slot.markPart0 = true → 0 < slot.highestStep → slot.stepsWritten slot.highestStep = false →
            refused (.closeRecipe m n) 7))) ∧
       (i.toNat ≤ 3 → headerLong →
         let marked := if i = 0 then slot.markPart0 else slot.markSigs.get (i.toNat - 1)
         let good := if i = 0 then part0Ok data else sigOk data
         (slot.state = .corrupt → refused header 8) ∧
         (slot.state = .closed → refused header 5) ∧
         (slot.state = .erased ∨ slot.state = .opened →
           (marked = true → refused header 5) ∧ (marked = false → good = false → refused header 4))) ∧
       (1 ≤ i.toNat → i.toNat ≤ 24 → data.length = 32 →
         (slot.state = .corrupt → refused step 8) ∧
         (slot.state = .closed → refused step 5) ∧
         (slot.state = .erased ∨ slot.state = .opened →
           (slot.markStep i.toNat = true → refused step 5) ∧
           (slot.markStep i.toNat = false → stepOk data = false → refused step 4)))) ∧
     (s.rcp.op = none → s.rcp.lock = false → n.toNat ≤ 3 → data.length = 3 * i.toNat →
       ((s.profile n.toNat).state = .written → refused profile 5) ∧
       ((s.profile n.toNat).state = .corrupt → refused profile 8) ∧
       ((s.profile n.toNat).state = .unwritten → segmentsOk (readSegments data i.toNat) = false → refused profile 4)))

/-- The completion of a store operation at its time: the parts it wrote and their marks, an ERASED slot opened by its first write, a slot closed
with its count and sum, a slot erased with no mark, count or signature left, no operation and
no in-progress mark left, and STORE_DONE queued (where LNK is not silent and its queue has room). The bytes of STORE_DONE are log entry 15
(DEDUCED). -/
def Obligations.StoreOperationCompletes : Prop :=
  ∀ (s : State) (o : StoreOp) (at_ : Nat), s.started = true → s.rcp.op = some (o, at_) →
    let slotDone : Nat → Slot → State := fun n sl => { s with rcp := { s.rcp with
      slots := s.rcp.slots.set (n - 1) sl, inProgress := none, op := none } }
    let opens : SlotState → SlotState := fun x => if x = .erased then .opened else x
    (∀ n data, o = .writeHeader n 0 data → at_ + 2000 ≤ s.now →
      exec .storeOpComplete s = .next (placeNotice 10 [8, byteOf n, 0] (slotDone n { s.slot n with
        state := opens (s.slot n).state, part0 := data, markPart0 := true }))) ∧
    (∀ n part data, o = .writeHeader n part data → 1 ≤ part → at_ + 2000 ≤ s.now →
      exec .storeOpComplete s = .next (placeNotice 10 [8, byteOf n, byteOf part] (slotDone n { s.slot n with
        state := opens (s.slot n).state, sigs := (s.slot n).sigs.set (part - 1) data
        markSigs := (s.slot n).markSigs.set (part - 1) true }))) ∧
    (∀ n i data, o = .writeStep n i data → at_ + 2000 ≤ s.now →
      exec .storeOpComplete s = .next (placeNotice 10 [9, byteOf n, byteOf i] (slotDone n { s.slot n with
        state := opens (s.slot n).state, steps := (s.slot n).steps.set (i - 1) data
        markSteps := (s.slot n).markSteps.set (i - 1) true }))) ∧
    (∀ n count, o = .closeRecipe n count → at_ + 4000 ≤ s.now →
      exec .storeOpComplete s = .next (placeNotice 10 [10, byteOf n] (slotDone n { s.slot n with
        state := .closed, stepCount := count, sum := (s.slot n).sumOf count }))) ∧
    (∀ n, o = .eraseRecipe n → at_ + 30000 ≤ s.now →
      ∃ sl, exec .storeOpComplete s = .next (placeNotice 10 [11, byteOf n] (slotDone n sl)) ∧
        sl.state = .erased ∧ sl.stepCount = 0 ∧ sl.markPart0 = false ∧
        (∀ j, sl.markSigs.get j = false ∧ sl.sigs.get j = List.replicate 25 0) ∧ (∀ i, sl.markStep i = false)) ∧
    (∀ p segments, o = .writeProfile p segments → at_ + 2000 ≤ s.now →
      exec .storeOpComplete s = .next (placeNotice 10 [16, byteOf p] { s with rcp := { s.rcp with
        profiles := s.rcp.profiles.set p ⟨.written, segments⟩, inProgress := none, op := none } }))

/-- ERASE_STORE target by target: the four profiles after 4, 8, 12 and 16 ms, then the slots 24 ms apart, each in its erased state; after
the last, at 400 ms, the operation completes and the lock is cleared. That STORE_DONE carries the order's byte alone is log entry 15 (DEDUCED), and
that an erased slot's stored sum, its bytes of header part 0 and its step records are 0 log entry 39. -/
def Obligations.EraseStoreTargetByTarget : Prop :=
  ∀ (s : State) (done at_ : Nat), s.started = true → s.rcp.op = some (.eraseStore done, at_) →
    (done < 4 → at_ + 4000 * (done + 1) ≤ s.now →
      exec .eraseStoreTargetDone s = .next { s with rcp := { s.rcp with
        profiles := s.rcp.profiles.set done Profile.erased, inProgress := some (.eraseStore (done + 1))
        op := some (.eraseStore (done + 1), at_) } }) ∧
    (4 ≤ done → done < 20 → at_ + 16000 + 24000 * (done - 3) ≤ s.now →
      exec .eraseStoreTargetDone s = .next { s with rcp := { s.rcp with
        slots := s.rcp.slots.set (done - 4) Slot.erased, inProgress := some (.eraseStore (done + 1))
        op := some (.eraseStore (done + 1), at_) } }) ∧
    (done = 20 → at_ + 400000 ≤ s.now →
      exec .storeOpComplete s = .next (placeNotice 10 [13] { s with rcp := { s.rcp with
        lock := false, inProgress := none, op := none } }))

/-- LOCK_STORE sets the lock at once. DISK_REPLACED and PAD_REPLACED, at rest or FAULTED, set their counter and remainder to 0, match the warned
mark, and write both counters back; in a run they are answered STATE (2). Sixty seconds of counting write both counters back. -/
def Obligations.LockAndLifeCounters : Prop :=
  ∀ (s : State) (m : OrderMeta),
    (takesOrder m s = true → s.ilk.mode ≠ .lockout →
      (s.rcp.op = none → exec (.lockStore m) s = .next (answered m 0 [] { s with rcp := { s.rcp with lock := true } })) ∧
      (s.seq.state.atRest = true →
        exec (.diskReplaced m) s = .next (answered m 0 [] { s with
          pcc := { s.pcc with diskLife := 0, diskRemainder := 0, diskWarned := s.img.diskLimit == 0 }
          rcp := { s.rcp with diskStored := 0, padStored := s.pcc.padLife, accumulation := 0 } }) ∧
        exec (.padReplaced m) s = .next (answered m 0 [] { s with
          pcc := { s.pcc with padLife := 0, padRemainder := 0, padWarned := s.img.padLimit == 0 }
          rcp := { s.rcp with diskStored := s.pcc.diskLife, padStored := 0, accumulation := 0 } })) ∧
      (s.seq.state.atRest = false →
        exec (.diskReplaced m) s = .next (answered m 2 [] s) ∧ exec (.padReplaced m) s = .next (answered m 2 [] s))) ∧
    (s.started = true → 60000000 ≤ s.rcp.accumulation →
      exec .accumulationTimeout s = .next { s with rcp := { s.rcp with
        diskStored := s.pcc.diskLife, padStored := s.pcc.padLife, accumulation := 0 } })

/-- CLEAR_EVENTS clears each named flag under its owner's rule: a LEVEL line that is ACTIVE keeps its flag, SUPPLY_WARN stays while the air is low,
MODE_ILLEGAL while the combination is; COND_LOST with a LOST arm is cleared and begins a home search. It answers with the flags as they then
stand. All of it is so in every sequencer state, and the change is then carried through; outside RUNNING and HOLDING the sequencer and the arm
stand otherwise. RESTART sets the restart-pending mark and is answered OK, or, where no answer is placed, resets at once; in a run it is answered
STATE (2). That the search takes its first radius from the feedback is the model's choice: log entry 51. -/
def Obligations.ClearEventsAndRestart : Prop :=
  ∀ (s : State) (m : OrderMeta) (mask : BitVec 16), takesOrder m s = true →
    (∃ t, exec (.clearEvents m mask) s = .next t ∧
      (∀ l : Line, (t.line l).sticky = ((s.line l).sticky &&
        (!mask.getLsbD (numLine l) || ((s.img.lines.get l).type == .level && (s.line l).level == .active)))) ∧
      t.lnk.collisionSeen = (s.lnk.collisionSeen && !mask.getLsbD 8) ∧
      t.lnk.checkErrorSeen = (s.lnk.checkErrorSeen && !mask.getLsbD 9) ∧
      t.lnk.malformedSeen = (s.lnk.malformedSeen && !mask.getLsbD 10) ∧
      t.sdu.mismatch = (s.sdu.mismatch && !mask.getLsbD 11) ∧
      t.drv.tachLost = (s.drv.tachLost && !mask.getLsbD 12) ∧
      t.hpc.warn = (s.hpc.warn && (!mask.getLsbD 14 || decide (s.pins.air < s.img.airWarn))) ∧
      t.ilk.modeIllegal = (s.ilk.modeIllegal && (!mask.getLsbD 15 || s.ilk.decoded == some (true, false))) ∧
      t.lnk.answers = (answered m 0 (le2 (flagsWord t)) s).lnk.answers ∧ t.rcp = s.rcp ∧ t.cfg = s.cfg ∧
      t.pins = s.pins ∧ t.pending = s.pending ∧
      (∃ u, t.pcc = (settle u).pcc ∧ t.seq = (settle u).seq ∧ t.epm = (settle u).epm ∧ u.seq = s.seq ∧ u.epm = s.epm ∧
        u.pcc = (if s.pcc.arm = .lost ∧ mask.getLsbD 13 = true then
          { s.pcc with
            condLost := false, arm := .parked, homeFound := false, search := some 0, radius := s.pins.armFeedback }
          else s.pcc)) ∧
      ((s.seq.state ≠ .running ∧ s.seq.state ≠ .holding) ∨ s.pcc.resume = none → s.pcc.arm = .lost → mask.getLsbD 13 = true →
        t.pcc.condLost = false ∧ t.pcc.arm = .parked ∧ t.pcc.homeFound = false ∧ t.pcc.search = some 0) ∧
      (s.seq.state ≠ .running → s.seq.state ≠ .holding →
        (mask.getLsbD 13 = false ∨ s.pcc.arm ≠ .lost → t.pcc = s.pcc) ∧ t.seq = s.seq ∧ t.epm = s.epm)) ∧
    (s.ilk.mode ≠ .lockout → s.seq.state.atRest = true → m.toAll = false → s.silent = false →
      exec (.restart m) s = .next (answered m 0 [] { s with cfg := { s.cfg with restartPending := true } })) ∧
    (s.ilk.mode ≠ .lockout → s.seq.state.atRest = true → m.toAll = true ∨ s.silent = true →
      exec (.restart m) s = .next (doReset .restartOrder false s)) ∧
    (s.ilk.mode ≠ .lockout → s.seq.state.atRest = false → exec (.restart m) s = .next (answered m 2 [] s))

/-! ### The dispense unit -/

/-- A valve found disagreeing for 500 ms becomes FAULT_CLOSED, and a pump whose clamp sense has stood for the timeout stops, its clamp timer 0; either
is reported as a fault: a run in progress enters ABORTING with result FAULTED, a station at rest FAULTED, with the fault in the record, FAULT
queued, and the undecided step of the run CUT with STEP_ENDED behind it. The dose in the CUT entry of a step that has not started is log entry 28. -/
def Obligations.DispenseFaultsAreReported : Prop :=
  ∀ s : State, s.started = true →
    (∀ (c : Channel) (f : Feed), plumbedTo s.img c f = true → ((s.chan c).valves.get f).state ≠ .faultClosed →
      500000 ≤ ((s.chan c).valves.get f).disagree →
      ∃ t, exec (.valveFeedbackFault c (.feed f)) s = .next t ∧ ((t.chan c).valves.get f).state = .faultClosed ∧
        FaultReported .valve s t) ∧
    (s.sdu.di.state ≠ .faultClosed → 500000 ≤ s.sdu.di.disagree →
      ∃ t, exec (.valveFeedbackFault .main .di) s = .next t ∧ t.sdu.di.state = .faultClosed ∧ FaultReported .valve s t) ∧
    (∀ c : Channel, 0 < (s.chan c).rate → 1000 * s.img.clampTimeout ≤ (s.chan c).clampTimer →
      ∃ t, exec (.pumpBlocked c) s = .next t ∧ FaultReported .pumpBlocked s t ∧
        (s.seq.state = .aborting ∨ s.seq.state = .faulted → c = .main → (s.chan .main).switch = .idle →
          (t.chan c).rate = 0 ∧ (t.chan c).clampTimer = 0) ∧
        ((s.seq.state ≠ .aborting ∧ s.seq.state ≠ .faulted) ∨ c = .additive →
          (t.chan c).rate = 0 ∧ (t.chan c).clampTimer = 0))

/-- The end of a switch's non-overlap time and of its flush. After the non-overlap time a MAIN switch toward a feed whose line holds another
feed flushes with DI; else the target's valve opens and the switch is IDLE with the line feed known. A switch toward DI opens DI with its volume
from 0, every MAIN feed valve shut and the line feed as it was. After the flush volume the pump
stops, DI closes and the target opens. Each change is then carried through.

The post-rinse: at the end of its wait DI opens with the volume from 0; at its volume the pump stops, DI closes and the rinse is reported
complete, a DI opening that delivered the flush volume leaving the line feed NONE. -/
def Obligations.SwitchesAndPostRinseEnd : Prop :=
  (∀ (s : State), s.started = true →
     (∀ (c : Channel) (f : Feed) (e : Nat), (s.chan c).switch = .nonOverlap e → e ≤ s.now → (s.chan c).target = .feed f →
       ((s.chan c).valves.get f).state = .closed →
       (c = .main ∧ (s.chan c).lineFeed ≠ .none ∧ (s.chan c).lineFeed ≠ .feed f ∧ 0 < s.img.flushVolume →
         ∃ u, exec (.nonOverlapEnd c) s = .next (settle u) ∧ (u.chan c).switch = .flush 0 ∧ u.sdu.diVolume = 0 ∧
           (s.sdu.di.state ≠ .faultClosed → u.sdu.di.isOpen = true) ∧ u.seq = s.seq ∧ u.hpc = s.hpc ∧ u.pcc = s.pcc ∧
           u.epm = s.epm ∧ u.drv = s.drv ∧ u.rcp = s.rcp ∧ u.ilk = s.ilk ∧ u.lnk = s.lnk ∧ u.cfg = s.cfg ∧
           u.pins = s.pins ∧ u.shr = s.shr ∧ u.pending = s.pending) ∧
       (c = .additive ∨ s.img.flushVolume = 0 ∨ (s.chan c).lineFeed = .feed f ∨ (s.chan c).lineFeed = .none →
         ∃ u, exec (.nonOverlapEnd c) s = .next (settle u) ∧ (u.chan c).switch = .idle ∧
           ((u.chan c).valves.get f).state = .opened ∧ (u.chan c).lineFeed = .feed f ∧ u.seq = s.seq ∧ u.hpc = s.hpc ∧
           u.pcc = s.pcc ∧ u.epm = s.epm ∧ u.drv = s.drv ∧ u.rcp = s.rcp ∧ u.ilk = s.ilk ∧ u.lnk = s.lnk ∧
           u.cfg = s.cfg ∧ u.pins = s.pins ∧ u.shr = s.shr ∧ u.pending = s.pending)) ∧
     (∀ e, (s.chan .main).switch = .nonOverlap e → e ≤ s.now → (s.chan .main).target = .di → s.sdu.di.state = .closed →
       ∃ u, exec (.nonOverlapEnd .main) s = .next (settle u) ∧ (u.chan .main).switch = .idle ∧
         u.sdu.di.state = .opened ∧ u.sdu.diVolume = 0 ∧ (∀ f : Feed, ((u.chan .main).valves.get f).isOpen = false) ∧
         (u.chan .main).lineFeed = (s.chan .main).lineFeed ∧ u.chan .additive = s.chan .additive ∧ u.seq = s.seq ∧
         u.hpc = s.hpc ∧ u.pcc = s.pcc ∧ u.epm = s.epm ∧ u.drv = s.drv ∧ u.rcp = s.rcp ∧ u.ilk = s.ilk ∧
         u.lnk = s.lnk ∧ u.cfg = s.cfg ∧ u.pins = s.pins ∧ u.shr = s.shr ∧ u.pending = s.pending) ∧
     (∀ (f : Feed) (v : Nat), (s.chan .main).switch = .flush v → 100 * s.img.flushVolume ≤ v →
       (s.chan .main).target = .feed f → ((s.chan .main).valves.get f).state = .closed →
       ∃ u, exec .flushDone s = .next (settle u) ∧ (u.chan .main).switch = .idle ∧ (u.chan .main).rate = 0 ∧
         u.sdu.di.isOpen = false ∧ ((u.chan .main).valves.get f).state = .opened ∧ (u.chan .main).lineFeed = .feed f ∧
         u.chan .additive = s.chan .additive ∧ u.seq = s.seq ∧ u.hpc = s.hpc ∧ u.pcc = s.pcc ∧ u.epm = s.epm ∧
         u.drv = s.drv ∧ u.rcp = s.rcp ∧ u.ilk = s.ilk ∧ u.lnk = s.lnk ∧ u.cfg = s.cfg ∧ u.pins = s.pins ∧
         u.shr = s.shr ∧ u.pending = s.pending)) ∧
  (∀ (s : State), s.started = true →
     (∀ e, (s.chan .main).switch = .postRinseWait e → e ≤ s.now → s.sdu.di.state = .closed →
       ∃ u, exec .postRinseWaitEnd s = .next (settle u) ∧ (u.chan .main).switch = .postRinse 0 ∧
         u.sdu.di.state = .opened ∧ u.sdu.diVolume = 0 ∧ (∀ f : Feed, ((u.chan .main).valves.get f).isOpen = false) ∧
         u.sdu.rinseDone = s.sdu.rinseDone ∧ u.chan .additive = s.chan .additive ∧ u.seq = s.seq ∧ u.hpc = s.hpc ∧
         u.pcc = s.pcc ∧ u.epm = s.epm ∧ u.drv = s.drv ∧ u.rcp = s.rcp ∧ u.ilk = s.ilk ∧ u.lnk = s.lnk ∧
         u.cfg = s.cfg ∧ u.pins = s.pins ∧ u.pending = s.pending) ∧
     (∀ v, (s.chan .main).switch = .postRinse v → 100 * s.postRinse ≤ v → s.sdu.di.isOpen = true →
       ∃ u, exec .postRinseDone s = .next (settle u) ∧ (u.chan .main).switch = .idle ∧ (u.chan .main).rate = 0 ∧
         u.sdu.di.state = .closed ∧ u.sdu.rinseDone = true ∧
         (u.chan .main).lineFeed =
           (if 100 * s.img.flushVolume ≤ s.sdu.diVolume then .none else (s.chan .main).lineFeed) ∧
         u.chan .additive = s.chan .additive ∧ u.seq = s.seq ∧ u.hpc = s.hpc ∧ u.pcc = s.pcc ∧ u.epm = s.epm ∧
         u.drv = s.drv ∧ u.rcp = s.rcp ∧ u.ilk = s.ilk ∧ u.lnk = s.lnk ∧ u.cfg = s.cfg ∧ u.pins = s.pins ∧
         u.peer = s.peer ∧ u.pending = s.pending))

/-- Counting. A pump's warm-up ends after 2 s. A stroke counts the calibrated stroke volume during the warm-up and in FLOW_FALLBACK and nothing else,
a flowmeter pulse the pulse volume after the warm-up in FLOWMETER and nothing else, whatever the cross-check window holds; a pulse of either kind
that finds its pump stopped counts nothing. On MAIN the volume joins the dose in RUNNING, the flush or post-rinse volume of the switch, and the
volume of an open DI; on ADDITIVE none of them.

A DOSE step that then has its dose and its min time ends DONE_DOSE, by a pulse or by a stroke. A stroke's entry carries FLOW_FALLBACK where a
channel is or was in fallback, the window that this very stroke closed included. That a window closed by a stroke is judged before the stroke's
volume acts is log entry 12 (DEDUCED); that a lift leaves downforce 0 is log entry 40, and that the resume point becomes absent for any arm log
entry 17 (DEDUCED), both in EndsStep. -/
def Obligations.VolumesAreCounted : Prop :=
  (∀ (s : State) (c : Channel), s.started = true →
    (0 < (s.chan c).rate → (s.chan c).warm = false → 2000000 ≤ (s.chan c).warmTimer →
      exec (.warmUpEnd c) s = .next { s with sdu := { s.sdu with ch := s.sdu.ch.set c { s.chan c with warm := true } } }) ∧
    (s.seq.state ≠ .running → (s.chan c).rate = 0 →
      exec (.strokePulse c) s = .next (settle s) ∧ exec (.flowmeterPulse c) s = .next (settle s)) ∧
    (let runs : Bool := (s.chan c).rate != 0
     let stroke := if runs && (!(s.chan c).warm || (s.chan c).source == .fallback) then (s.chan c).calibrated else 0
     let pulse := if runs && (s.chan c).warm && (s.chan c).source == .flowmeter then s.img.pulseVolume.get c else 0
     ∀ (i : Instr) (v : Nat), (i = .strokePulse c ∧ v = stroke) ∨ (i = .flowmeterPulse c ∧ v = pulse) →
       (∃ t, exec i s = .next t ∧
         t.sdu.dose = (if c = .main ∧ s.seq.state = .running then s.sdu.dose + v else s.sdu.dose) ∧
         t.rcp = s.rcp ∧ t.ilk = s.ilk ∧ t.cfg = s.cfg ∧ t.pins = s.pins ∧ t.peer.table = s.peer.table ∧
         t.seq.copy = s.seq.copy ∧ t.seq.index = s.seq.index ∧ t.pending = s.pending) ∧
       (s.seq.state ≠ .running →
         let w := if c = .main then v else 0
         ∃ u, exec i s = .next (settle u) ∧
           (∀ x, (s.chan .main).switch = .flush x → (u.chan .main).switch = .flush (x + w)) ∧
           (∀ x, (s.chan .main).switch = .postRinse x → (u.chan .main).switch = .postRinse (x + w)) ∧
           u.sdu.diVolume = (if s.sdu.di.isOpen = true then s.sdu.diVolume + w else s.sdu.diVolume) ∧
           u.sdu.dose = s.sdu.dose ∧ (i = .flowmeterPulse c → u = { s with sdu := u.sdu }) ∧
           u = { s with sdu := u.sdu, lnk := u.lnk }))) ∧
  (∀ (s : State) (st : StepRec), s.started = true → s.seq.state = .running → s.stepNow = some st →
    st.termination = .dose → 100000 * st.minTime ≤ s.seq.elapsed → (s.chan .main).rate ≠ 0 →
    st.postRinse = 0 ∨ s.sdu.di.state ≠ .faultClosed →
    let d := s.chan .main
    let dosed : Nat → State := fun v => { s with sdu := { s.sdu with dose := s.sdu.dose + v } }
    (d.warm = true → d.source = .flowmeter →
      st.doseTarget ≤ min 65535 ((s.sdu.dose + s.img.pulseVolume.main) / 100) →
      ∃ t, exec (.flowmeterPulse .main) s = .next t ∧ EndsStep .doneDose (dosed s.img.pulseVolume.main) t) ∧
    (let v := if d.warm = false ∨ d.source = .fallback then d.calibrated else 0
     let vf := d.pulses * s.img.pulseVolume.main
     let vs := 200 * d.calibrated
     st.doseTarget ≤ min 65535 ((s.sdu.dose + v) / 100) →
     ∃ t e, exec (.strokePulse .main) s = .next t ∧ t.seq.state = .ending ∧ t.seq.record = s.seq.record ++ [e] ∧
       e = { stepEntry (dosed v) .doneDose with flags := e.flags } ∧
       ((d.source = .fallback ∧ d.agreeing < 2) ∨ (s.chan .additive).source = .fallback ∨ s.sdu.mismatch = true ∨
          s.seq.flags.flowFallback = true ∨
          (d.warm = true ∧ d.source = .flowmeter ∧ d.windowOpen = true ∧ 199 ≤ d.strokes ∧ 2 ≤ d.disagreeing ∧
            vs * s.img.tolerance < (vf - vs + (vs - vf)) * 100) →
         e.flags.flowFallback = true) ∧
       e.flags.clamped = s.seq.flags.clamped ∧ e.flags.condLost = s.seq.flags.condLost ∧
       t.sdu.dose = s.sdu.dose + v ∧ t.lnk.answers = s.lnk.answers ∧ OutsideStands s t))

/-- A closed window of 200 strokes: V_f from the pulses, V_s from the strokes, agreement when |V_f − V_s| × 100 ≤ V_s × tolerance; an
agreeing window in FLOWMETER recalibrates the stroke within 10 to 5000 µL. Three disagreeing windows in a row enter FLOW_FALLBACK with the event
and its notice; three agreeing ones return to FLOWMETER, the calibration standing. The 200th stroke itself closes and judges its window, enters the
fallback or the return that completes, and marks the step that is RUNNING. A running pump is driven at rate × 1000 / calibrated strokes a minute.

That the window stays open with counts 0 for the next is log entry 12; that the command CROSS_CHECK_WINDOW closes a window by itself, with
FLOW_MISMATCH and FLOW_RESTORED apart from it, is log entry 7. -/
def Obligations.CrossCheckJudgesTheWindow : Prop :=
  (∀ x : Dispense, 0 < x.calibrated → x.strokeRate * (x.calibrated : Rat) = 1000 * (x.rate : Rat)) ∧
  ∀ (s : State) (c : Channel), s.started = true →
    let d := s.chan c
    let vf := d.pulses * s.img.pulseVolume.get c
    let vs := 200 * d.calibrated
    let after : Dispense → State := fun x => { s with sdu := { s.sdu with ch := s.sdu.ch.set c x } }
    let closed : Dispense := { d with strokes := 0, pulses := 0, vf := vf, vs := vs }
    (d.windowOpen = true → 200 ≤ d.strokes →
      (d.source = .flowmeter → (vf - vs + (vs - vf)) * 100 ≤ vs * s.img.tolerance →
        exec (.crossCheckWindow c) s =
          .next (after { closed with calibrated := max 10 (min 5000 (vf / 200)), disagreeing := 0 })) ∧
      (d.source = .flowmeter → vs * s.img.tolerance < (vf - vs + (vs - vf)) * 100 →
        exec (.crossCheckWindow c) s = .next (after { closed with disagreeing := min 3 (d.disagreeing + 1) })) ∧
      (d.source = .fallback →
        exec (.crossCheckWindow c) s = .next (after { closed with
          agreeing := if (vf - vs + (vs - vf)) * 100 ≤ vs * s.img.tolerance then min 3 (d.agreeing + 1) else 0 }))) ∧
    (d.source = .flowmeter → 3 ≤ d.disagreeing →
      exec (.flowMismatch c) s = .next (settle (placeNotice 11
        (byteOf (numChannel c) :: (le4 d.vf ++ le4 d.vs)) { s with sdu := { s.sdu with
          mismatch := true, ch := s.sdu.ch.set c { d with source := .fallback, disagreeing := 0, agreeing := 0 } } }))) ∧
    (d.source = .fallback → 3 ≤ d.agreeing →
      exec (.flowRestored c) s = .next (settle (placeNotice 12 [byteOf (numChannel c)]
        (after { d with source := .flowmeter, agreeing := 0 })))) ∧
    (0 < d.rate → d.warm = true → d.windowOpen = true → 199 ≤ d.strokes →
      ∃ t, exec (.strokePulse c) s = .next t ∧ (t.chan c).strokes = 0 ∧ (t.chan c).pulses = 0 ∧
        (t.chan c).vf = vf ∧ (t.chan c).vs = vs ∧
        (d.source = .flowmeter → (vf - vs + (vs - vf)) * 100 ≤ vs * s.img.tolerance →
          (t.chan c).calibrated = max 10 (min 5000 (vf / 200)) ∧ (t.chan c).source = .flowmeter ∧
          (t.chan c).disagreeing = 0) ∧
        (d.source = .flowmeter → vs * s.img.tolerance < (vf - vs + (vs - vf)) * 100 → d.disagreeing < 2 →
          (t.chan c).calibrated = d.calibrated ∧ (t.chan c).source = .flowmeter ∧
          (t.chan c).disagreeing = d.disagreeing + 1) ∧
        (d.source = .flowmeter → vs * s.img.tolerance < (vf - vs + (vs - vf)) * 100 → 2 ≤ d.disagreeing →
          (t.chan c).calibrated = d.calibrated ∧ (t.chan c).source = .fallback ∧ t.sdu.mismatch = true ∧
          (s.seq.state = .running → t.seq.flags.flowFallback = true)) ∧
        (d.source = .fallback → (vf - vs + (vs - vf)) * 100 ≤ vs * s.img.tolerance → 2 ≤ d.agreeing →
          (t.chan c).calibrated = d.calibrated ∧ (t.chan c).source = .flowmeter) ∧
        t.rcp = s.rcp ∧ t.ilk = s.ilk ∧ t.cfg = s.cfg ∧ t.pins = s.pins ∧ t.peer.table = s.peer.table ∧
        t.pending = s.pending)

/-- SUPPLY-LOW is raised after 500 ms below the threshold on the feed open on a channel: the monitor's flag is set with both timers 0, PEER's low-feed
set gains the feed and SHR sees a mark, in every sequencer state, and the change is then carried through. The flag and the low feed still stand
after that, RUNNING included, except where a HOLDING that only SHARE keeps is left by it, which may shut the valves; after 2 s at or above it, it
clears and the feed leaves the set. After 5 s of SUPPLY-LOW in RUNNING the step is held with cause SUPPLY. -/
def Obligations.StarvationMarksAndHolds : Prop :=
  ∀ (s : State) (c : Channel) (f : Feed), s.started = true → (s.chan c).openFeed = some f →
    (0 < s.img.threshold.get c → (s.chan c).supplyLow = false → 500000 ≤ (s.chan c).lowTimer →
      ∃ u t, exec (.supplyLowRaise c) s = .next t ∧ t = settle u ∧
        u.chan c = { s.chan c with supplyLow := true, lowTimer := 0, recoveryTimer := 0 } ∧
        (∀ x, x ≠ c → u.chan x = s.chan x) ∧
        u = { s with
          sdu := { s.sdu with ch := u.sdu.ch }, shr := u.shr, lnk := u.lnk
          peer := { s.peer with own := u.peer.own, lowFeeds := s.peer.lowFeeds.set f true } } ∧
        (s.seq.state ≠ .holding ∨ s.seq.causes.notForSlurry = true ∨ s.seq.causes.supply = true →
          (t.chan c).supplyLow = true ∧ t.peer.lowFeeds = s.peer.lowFeeds.set f true) ∧
        (t.shr.get f).markFree = 0 ∧ (t.shr.get f).markSeen = true ∧
        (t.shr.get f).k =
          (if (s.shr.get f).raises s.now s.period = true then (s.shr.get f).k + 1 else (s.shr.get f).k) ∧
        (s.seq.state ≠ .running → s.seq.state ≠ .holding →
          t.seq = s.seq ∧ t.hpc = s.hpc ∧ t.pcc = s.pcc ∧ t.epm = s.epm ∧ t.drv = s.drv) ∧
        t.rcp = s.rcp ∧ t.ilk = s.ilk ∧ t.cfg = s.cfg ∧ t.pins = s.pins ∧ t.peer.table = s.peer.table ∧
        t.pending = s.pending) ∧
    ((s.chan c).supplyLow = true → 2000000 ≤ (s.chan c).recoveryTimer →
      exec (.supplyLowClear c) s = .next (settle { s with
        peer := { s.peer with lowFeeds := s.peer.lowFeeds.set f false }
        sdu := { s.sdu with ch := s.sdu.ch.set c { s.chan c with
          supplyLow := false, lowTimer := 0, recoveryTimer := 0 } } })) ∧
    (s.seq.state = .running → (s.chan c).supplyLow = true → 5000000 ≤ s.sdu.persist →
      ∃ t, exec .supplyPersist s = .next t ∧ t.seq.state = .holding ∧ t.seq.causes.supply = true ∧
        t.seq.resume = some .running ∧ t.seq.elapsed = s.seq.elapsed ∧ t.seq.index = s.seq.index ∧
        t.sdu.dose = s.sdu.dose ∧ t.rcp = s.rcp ∧ t.ilk = s.ilk ∧ t.cfg = s.cfg ∧ t.pins = s.pins ∧ t.drv = s.drv ∧
        t.peer.table = s.peer.table ∧ t.pending = s.pending)

/-! ### The sequencer -/

/-- The start of a step: with every start condition of the step's kind holding in WAITING, RUNNING is entered with the elapsed time and the dose at 0,
EPM restarts with the step's settings, the head takes the fitted setpoints at once or by a ramp (or vents, for a CONDITION step), and a step that
conditions begins its sweep from the profile. A profile that is not WRITTEN there is the arm fault PROFILE: the arm is LOST, the conditioner
withdrawn, the step goes on with its COND_LOST flag, and STEP_BEGUN stands before COND_LOST (log entry 41). The change is then carried through.
That a CONDITION step is flagged CLAMPED by its targets is log entry 16; that a vented channel has target 0 and none in force, log entry 20. That
the arm fault leaves the home state as it stood is log entry 47. -/
def Obligations.StepStartsWhenItsConditionsHold : Prop :=
  ∀ (s : State) (r : Recipe) (st : StepRec), s.started = true → s.seq.state = .waiting → s.seq.copy = some r →
    r.steps[s.seq.index - 1]? = some st → 1 ≤ s.seq.index → switchComplete .main s = true →
    switchComplete .additive s = true → (st.kind = .polish → s.sdu.share = false) →
    (st.kind ≠ .condition → (s.line .il1).level = .active) → (∀ d : Drive, (s.drive d).atSpeed = true) →
    (s.pcc.arm = .parked ∧ s.pcc.homeFound = true ∨ st.inSitu = false ∨ s.seq.disposition ≠ .normal) →
    let fitted := fitHead s.img.headMax s.img.zoneDiff st.pressure
    let sweeps : Bool := st.inSitu && s.seq.disposition == .normal && !s.pcc.withdrawn
    let lost : Bool := sweeps && (s.profile st.profile).state != .written
    ∃ u, exec .stepStart s = .next (settle u) ∧
      u.seq = { s.seq with
        state := .running, elapsed := 0, minReached := false, sinceStart := true
        flags := { s.seq.flags with
          clamped := s.seq.flags.clamped || decide (fitted ≠ st.pressure), condLost := s.seq.flags.condLost || lost } } ∧
      u.sdu = { s.sdu with dose := 0, persist := 0 } ∧
      u.epm = { s.epm with
        settings := some ⟨r.threshold, r.period, r.recovery, r.sigs, st.sigIndex, st.minTime⟩
        state := .reference, periodTimer := 0, count := 0, current := none, matchers := ⟨⟨0, 0⟩, ⟨0, 0⟩, ⟨0, 0⟩⟩ } ∧
      u.lnk = (if lost then
          (placeNotice 16 (2 :: le2 (s.pins.armFeedback / 1000000)) (placeNotice 3 [byteOf s.seq.index] s)).lnk
        else (placeNotice 3 [byteOf s.seq.index] s).lnk) ∧ u.hpc.stepTargets = fitted ∧
      (∀ c : HeadCh, (u.head c).requested = st.pressure.get c ∧ (u.head c).measured = (s.head c).measured) ∧
      (st.kind = .condition → u.hpc.ramp = none ∧ u.hpc.inForce = false ∧
        ∀ c : HeadCh, (u.head c).applied = 0 ∧ (u.head c).target = 0) ∧
      (st.kind ≠ .condition → st.rampTime = 0 → u.hpc.ramp = none ∧ u.hpc.atTarget = true ∧
        ∀ c : HeadCh, (s.head c).state ≠ .channelFault → (u.head c).state = .regulating ∧
          (u.head c).target = fitted.get c ∧ (u.head c).applied = fitted.get c) ∧
      (st.kind ≠ .condition → 0 < st.rampTime → u.hpc.ramp = some ⟨s.applied, st.rampTime * 5, 0, 0⟩ ∧
        ∀ c : HeadCh, (s.head c).state ≠ .channelFault → (u.head c).state = .ramping ∧
          (u.head c).target = fitted.get c ∧ (u.head c).applied = (s.head c).applied) ∧
      (sweeps = false → u.pcc = s.pcc) ∧
      (lost = true → u.pcc = { s.pcc with
        downforce := 0, arm := .lost, resume := none, search := none, withdrawn := true, condLost := true
        positionTimer := 0, stallTimer := 0 }) ∧
      (sweeps = true → lost = false → u.pcc = { s.pcc with
        segments := (s.profile st.profile).segments
        segment := firstAboveInner (s.profile st.profile).segments
        direction := .outward, arm := .movingIn, destination := 40000000 }) ∧
      u.peer = s.peer ∧ u.shr = s.shr ∧ u.drv = s.drv ∧ OutsideStands s u

/-- A step of termination TIME that reaches its limit ends with result DONE_TIME: its entry is appended, STEP_ENDED queued and ENDING entered. Min
time, dose target and endpoint play no part. Where the step's post-rinse cannot be run, ENDING is left at once by the fault VALVE (R47).
That a lift leaves downforce 0 is log entry 40, and that the resume point becomes absent for any arm log entry 17 (DEDUCED), both in EndsStep. -/
def Obligations.TimeStepEndsAtItsLimit : Prop :=
  ∀ (s : State) (st : StepRec), s.started = true → s.seq.state = .running → s.stepNow = some st →
    st.termination = .time → 100000 * st.limit ≤ s.seq.elapsed →
    (st.postRinse = 0 ∨ s.sdu.di.state ≠ .faultClosed →
      ∃ t, exec .stepLimitReached s = .next t ∧ EndsStep .doneTime s t) ∧
    (0 < st.postRinse → s.sdu.di.state = .faultClosed →
      ∃ t, exec .stepLimitReached s = .next t ∧ t.seq.record = s.seq.record ++ [stepEntry s .doneTime] ∧
        t.seq.state = .aborting ∧ t.seq.result = .faulted ∧ t.seq.first = some .valve ∧ t.sdu.dose = s.sdu.dose ∧
        OutsideStands s t)

/-- A DOSE step ends at its min time once it has its dose, and at its limit with DONE_DOSE or DOSE_SHORT; a limit that finds the dose short while a
MAIN pulse of its instant still waits leaves the pulse to be counted first, so that the last dose gives DONE_DOSE in either order (log entry 37).
The min time of any other step, or before the dose is there, only arms the matchers.

An ENDPOINT step ends with DONE_ENDPOINT at its overpolish end, or at its limit with a match; at its limit without one its entry is
ENDPOINT_MISSED, and the miss action is followed: ENDING, HOLDING with cause ENDPOINT, or ABORTING. That a lift leaves downforce 0 is log
entry 40, and that the resume point becomes absent for any arm log entry 17 (DEDUCED), both in EndsStep. -/
def Obligations.DoseAndEndpointStepsEnd : Prop :=
  (∀ (s : State) (st : StepRec), s.started = true → s.seq.state = .running → s.stepNow = some st →
     let dose := min 65535 (s.sdu.dose / 100)
     (s.seq.minReached = false → 100000 * st.minTime ≤ s.seq.elapsed →
       (st.termination ≠ .dose ∨ dose < st.doseTarget →
         exec .minTimeReached s = .next (settle { s with seq := { s.seq with minReached := true } })) ∧
       (st.termination = .dose → st.doseTarget ≤ dose → st.postRinse = 0 ∨ s.sdu.di.state ≠ .faultClosed →
         ∃ t, exec .minTimeReached s = .next t ∧
           EndsStep .doneDose { s with seq := { s.seq with minReached := true } } t)) ∧
     (st.termination = .dose → dose < st.doseTarget → s.pending.any mainPulse = true →
       exec .stepLimitReached s = .next s) ∧
     (st.termination = .dose → 100000 * st.limit ≤ s.seq.elapsed → st.postRinse = 0 ∨ s.sdu.di.state ≠ .faultClosed →
       st.doseTarget ≤ dose ∨ s.pending.any mainPulse = false →
       ∃ t, exec .stepLimitReached s = .next t ∧ EndsStep (if st.doseTarget ≤ dose then .doneDose else .doseShort) s t)) ∧
  (∀ (s : State) (st : StepRec), s.started = true → s.seq.state = .running → s.stepNow = some st →
     st.termination = .endpoint →
     (∀ e, s.seq.overEnd = some e → 100000 * e ≤ s.seq.elapsed → st.postRinse = 0 ∨ s.sdu.di.state ≠ .faultClosed →
       ∃ t, exec .overpolishEnd s = .next t ∧ EndsStep .doneEndpoint s t) ∧
     (100000 * st.limit ≤ s.seq.elapsed →
       (s.seq.endpoint.isSome = true → st.postRinse = 0 ∨ s.sdu.di.state ≠ .faultClosed →
         ∃ t, exec .stepLimitReached s = .next t ∧ EndsStep .doneEndpoint s t) ∧
       (s.seq.endpoint = none →
         (st.miss = .next → st.postRinse = 0 ∨ s.sdu.di.state ≠ .faultClosed →
           ∃ t, exec .stepLimitReached s = .next t ∧ EndsStep .endpointMissed s t) ∧
         (st.miss = .hold →
           ∃ t, exec .stepLimitReached s = .next t ∧ t.seq.state = .holding ∧ t.seq.causes.endpoint = true ∧
             t.seq.resume = some .running ∧ t.seq.disposition = .concluded ∧
             t.seq.record = s.seq.record ++ [stepEntry s .endpointMissed] ∧ t.seq.elapsed = s.seq.elapsed ∧
             t.seq.index = s.seq.index ∧ t.seq.copy = s.seq.copy ∧ t.sdu.dose = s.sdu.dose ∧ t.drv = s.drv ∧
             t.lnk.answers = s.lnk.answers ∧ OutsideStands s t) ∧
         (st.miss = .abort →
           ∃ t, exec .stepLimitReached s = .next t ∧ t.seq.state = .aborting ∧ t.seq.result = .aborted ∧
             t.seq.record = s.seq.record ++ [stepEntry s .endpointMissed] ∧ t.seq.causes = CauseSet.empty ∧
             t.seq.deferred = CauseSet.empty ∧ t.seq.resume = none ∧ t.seq.abortTimer = some 0 ∧
             t.seq.first = s.seq.first ∧ (∀ d : Drive, (t.drive d).setpoint = 0) ∧ t.sdu.dose = s.sdu.dose ∧
             t.lnk.answers = s.lnk.answers ∧ OutsideStands s t))))

/-- The waiting timer at the waiting limit: one WAIT_LONG with the step index and the start conditions that do not hold, and nothing else; a
second one is not sent for the step. That the notice has one bit for both drives is log entry 44. -/
def Obligations.WaitLongIsSentOnce : Prop :=
  ∀ s : State, s.started = true → s.seq.state = .waiting → 1000000 * s.img.waitingLimit ≤ s.seq.waiting →
    (s.seq.waitLongSent = false →
      exec .waitLong s = .next (placeNotice 7 [byteOf s.seq.index, byteOf (bitSet (unmetStart s))]
        { s with seq := { s.seq with waitLongSent := true } })) ∧
    (s.seq.waitLongSent = true → exec .waitLong s = .next s)

/-- The completion of ENDING: after the last step DONE with run result COMPLETED, RUN_ENDED and the life counters written back; before it
WAITING for the next step with its timers at 0, or, with causes deferred, HOLDING with them all and resume target WAITING.
COND_LOST before a conditioning step adds CONDITIONER to them. A feed switch of the next step that cannot run is the fault VALVE: the run enters
ABORTING with the step's entry CUT, and the record that named the step's feeds is IDLE again, with its DEMAND placed.

The completion of ABORTING, at both drives at zero with the arm PARKED or LOST, or at the expiry of the abort timer: FAULTED with a first
fault in the record and DONE without, RUN_ENDED with the abort-timeout mark only for the expiry, and the life counters written back. RUN_ENDED's
result, numbered as READ_RESULT numbers it, and its first-fault byte, 0 or 1 and the kind's position, are log entry 15. -/
def Obligations.EndingAndAbortingComplete : Prop :=
  (∀ (s : State) (r : Recipe), s.started = true → s.seq.state = .ending → s.sdu.rinseDone = true →
     s.hpc.atTarget = true → s.seq.copy = some r →
     (r.steps.length ≤ s.seq.index →
       ∃ t, exec .endingComplete s = .next t ∧
         t.seq = { s.seq with state := .done, deferred := .empty, result := .completed } ∧
         t.rcp = { s.rcp with diskStored := s.pcc.diskLife, padStored := s.pcc.padLife, accumulation := 0 } ∧
         t.lnk.notices = (placeNotice 9 [1, byteOf s.seq.record.length,
           (match s.seq.first with | none => 0 | some k => byteOf (1 + numKind k)), 0] s).lnk.notices ∧
         t.epm = { s.epm with state := .stopped, periodTimer := 0 } ∧ t.pcc = s.pcc ∧
         (∀ d : Drive, (t.drive d).setpoint = 0) ∧ (∀ c : HeadCh, (t.head c).applied = 0) ∧ t.cfg = s.cfg ∧
         t.ilk = s.ilk ∧ t.pins = s.pins ∧ t.peer.table = s.peer.table ∧ t.lnk.answers = s.lnk.answers ∧
         t.sdu.dose = s.sdu.dose ∧ t.pending = s.pending) ∧
     (∀ st, r.steps[s.seq.index]? = some st →
       switchFault .main (targetOf .main st) s = false → switchFault .additive (targetOf .additive st) s = false →
       ∃ t, exec .endingComplete s = .next t ∧ t.seq.index = s.seq.index + 1 ∧ t.seq.deferred = CauseSet.empty ∧
         t.seq.elapsed = 0 ∧ t.seq.hold = 0 ∧ t.seq.waiting = 0 ∧ t.seq.waitLongSent = false ∧
         t.seq.disposition = .normal ∧ t.seq.endpoint = none ∧ t.seq.overEnd = none ∧
         t.seq.flags = StepFlags.empty ∧ t.seq.record = s.seq.record ∧ t.seq.copy = s.seq.copy ∧
         (s.pcc.condLost = false ∨ st.inSitu = false → s.seq.deferred = CauseSet.empty →
           t.seq.state = .waiting ∧ t.seq.causes = CauseSet.empty) ∧
         (s.pcc.condLost = true → st.inSitu = true → t.seq.causes.conditioner = true) ∧
         (s.seq.deferred.notForSlurry = true ∨ (s.pcc.condLost = true ∧ st.inSitu = true) →
           t.seq.state = .holding ∧ t.seq.resume = some .waiting ∧
           t.seq.causes.ordered = s.seq.deferred.ordered ∧ t.seq.causes.interlock = s.seq.deferred.interlock ∧
           t.seq.causes.stop = s.seq.deferred.stop ∧ t.seq.causes.mode = s.seq.deferred.mode) ∧
         (t.drive .platen).setpoint = st.platenSpeed ∧ (t.drive .head).setpoint = st.headSpeed ∧
         t.sdu.dose = s.sdu.dose ∧ t.lnk.answers = s.lnk.answers ∧ OutsideStands s t) ∧
     (∀ st, r.steps[s.seq.index]? = some st →
       switchFault .main (targetOf .main st) s = true ∨ switchFault .additive (targetOf .additive st) s = true →
       (∀ e ∈ s.seq.record, e.index ≠ s.seq.index + 1) →
       ∃ t e, exec .endingComplete s = .next t ∧ t.seq.state = .aborting ∧ t.seq.result = .faulted ∧
         t.seq.first = some .valve ∧ t.seq.index = s.seq.index + 1 ∧ t.seq.record = s.seq.record ++ [e] ∧
         e.index = s.seq.index + 1 ∧ e.result = .cut ∧ e.elapsed = 0 ∧ e.hold = 0 ∧ e.flags = StepFlags.empty ∧
         (∀ d : Drive, (t.drive d).setpoint = 0) ∧ t.peer.own = OwnRecord.empty ∧
         (s.cfg.startUp = .ready → s.ilk.mode ≠ .lockout → st.mainFeed.isSome = true →
           t.lnk.demandSlot = some ⟨.demand, 0, [0, 0], 0⟩) ∧
         t.sdu.dose = s.sdu.dose ∧ t.lnk.answers = s.lnk.answers ∧ OutsideStands s t)) ∧
  (∀ s : State, s.started = true → s.seq.state = .aborting →
     let completed : State → Bool → Prop := fun t timeout =>
       t.seq = { s.seq with state := (if s.seq.first.isSome = true then .faulted else .done), abortTimer := none } ∧
       t.rcp = { s.rcp with diskStored := s.pcc.diskLife, padStored := s.pcc.padLife, accumulation := 0 } ∧
       t.lnk.notices = (placeNotice 9 [byteOf (numRun s.seq.result), byteOf s.seq.record.length,
         (match s.seq.first with | none => 0 | some k => byteOf (1 + numKind k)), (if timeout then 1 else 0)] s).lnk.notices ∧
       t.pcc = s.pcc ∧ (∀ d : Drive, (t.drive d).setpoint = 0) ∧ (∀ c : HeadCh, (t.head c).applied = 0) ∧
       t.cfg = s.cfg ∧ t.ilk = s.ilk ∧ t.pins = s.pins ∧ t.peer.table = s.peer.table ∧
       t.lnk.answers = s.lnk.answers ∧ t.sdu.dose = s.sdu.dose ∧ t.pending = s.pending
     ((∀ d : Drive, atZero s d = true) → s.pcc.arm = .parked ∨ s.pcc.arm = .lost →
       ∃ t, exec .abortingComplete s = .next t ∧ completed t false) ∧
     (∀ a, s.seq.abortTimer = some a → 10000000 ≤ a → ∃ t, exec .abortTimeout s = .next t ∧ completed t true))

/-! ### The head -/

/-- The clamp and the zone envelope: zone i takes the smallest, over the five zones j, of the clamped value of j plus D for each zone between;
the ring takes its clamped value alone. -/
def Obligations.FittedTargetsAreTheEnvelope : Prop :=
  ∀ (maxima v : PerHead Nat) (d : Nat),
    let c := fun x => min (v.get x) (maxima.get x)
    let fitted := fitHead maxima d v
    fitted.z1 = min (c .z1) (min (c .z2 + d) (min (c .z3 + 2 * d) (min (c .z4 + 3 * d) (c .z5 + 4 * d)))) ∧
    fitted.z2 = min (c .z1 + d) (min (c .z2) (min (c .z3 + d) (min (c .z4 + 2 * d) (c .z5 + 3 * d)))) ∧
    fitted.z3 = min (c .z1 + 2 * d) (min (c .z2 + d) (min (c .z3) (min (c .z4 + d) (c .z5 + 2 * d)))) ∧
    fitted.z4 = min (c .z1 + 3 * d) (min (c .z2 + 2 * d) (min (c .z3 + d) (min (c .z4) (c .z5 + d)))) ∧
    fitted.z5 = min (c .z1 + 4 * d) (min (c .z2 + 3 * d) (min (c .z3 + 2 * d) (min (c .z4 + d) (c .z5)))) ∧
    fitted.rr = c .rr ∧ ZonesWithin maxima d fitted

/-- A ramp. At tick k of n each ramping channel takes start + (target − start) × k / n truncated toward zero, and with starts and targets
within the maxima and D the applied zones stay within them at every tick; the last tick gives the target exactly. After the n ticks every
ramping channel regulates at its target and "at target" is reported.

Every step of the part keeps the head within it: from a state in which the applied values, the step targets and a ramp in progress keep to the
maxima and D, and a channel is in CHANNEL_FAULT only with its fault in the record, every step leads to one. -/
def Obligations.RampKeepsToTheEnvelope : Prop :=
  (∀ s t : State, HeadWithin s → step s = .next t → HeadWithin t) ∧
  ∀ (s : State) (r : Ramp), s.started = true → s.hpc.ramp = some r →
    (r.k < r.n → 20000 ≤ r.timer →
      ∃ t, exec .rampTick s = .next t ∧ t = { s with hpc := t.hpc } ∧
        t.hpc.ramp = some { r with k := r.k + 1, timer := r.timer - 20000 } ∧
        (∀ c : HeadCh,
          ((s.head c).state = .ramping →
            t.head c = { s.head c with applied := (t.head c).applied } ∧
            ((t.head c).applied : Int) = (r.starts.get c : Int) +
              Int.tdiv ((((s.head c).target : Int) - (r.starts.get c : Int)) * ((r.k : Int) + 1)) (r.n : Int) ∧
            (r.k + 1 = r.n → (t.head c).applied = (s.head c).target)) ∧
          ((s.head c).state ≠ .ramping → t.head c = s.head c)) ∧
        ((∀ c : HeadCh, (s.head c).state = .ramping) → ZonesWithin s.img.headMax s.img.zoneDiff r.starts →
          ZonesWithin s.img.headMax s.img.zoneDiff s.targets →
          ZonesWithin s.img.headMax s.img.zoneDiff t.applied)) ∧
    (r.n ≤ r.k →
      ∃ t, exec .rampEnd s = .next t ∧ t = { s with hpc := t.hpc } ∧ t.hpc.ramp = none ∧ t.hpc.atTarget = true ∧
        ∀ c : HeadCh,
          ((s.head c).state = .ramping → t.head c =
            { s.head c with state := .regulating, applied := (s.head c).target, regTimer := 0 }) ∧
          ((s.head c).state ≠ .ramping → t.head c = s.head c))

/-- Regulation. A regulating channel whose timer has reached the settle limit below its applied value is the fault LEAK; above it with the mark clear,
one REGULATION_HIGH and the mark; else the timer alone returns to 0. A new sensor reading within tolerance clears the timer and the mark, and one
at or below the maximum plus the margin clears the overpressure timer. That the timer runs again from 0 where the mark is set is log entry 42;
that of several channels below at one instant the first alone is reported in a run is log entry 43. The dose in the CUT entry of a step that has
not started is log entry 28. -/
def Obligations.RegulationIsJudged : Prop :=
  ∀ (s : State) (c : HeadCh),
    (s.started = true → (s.head c).state = .regulating → 1000 * s.img.settleLimit ≤ (s.head c).regTimer →
      ((s.head c).measured + s.img.regTolerance < (s.head c).applied →
        ∃ t, exec (.regulationTimeout c) s = .next t ∧ (t.head c).regTimer = 0 ∧ FaultReported .leak s t) ∧
      ((s.head c).applied + s.img.regTolerance < (s.head c).measured → (s.head c).highReported = false →
        exec (.regulationTimeout c) s = .next (settle (placeNotice 13
          (byteOf (numHeadCh c) :: (le2 (s.head c).applied ++ le2 (s.head c).measured))
          { s with hpc := { s.hpc with ch := s.hpc.ch.set c { s.head c with highReported := true, regTimer := 0 } } }))) ∧
      ((s.head c).applied ≤ (s.head c).measured →
        (s.head c).measured ≤ (s.head c).applied + s.img.regTolerance ∨ (s.head c).highReported = true →
        exec (.regulationTimeout c) s = .next (settle
          { s with hpc := { s.hpc with ch := s.hpc.ch.set c { s.head c with regTimer := 0 } } }))) ∧
    (∀ value : Nat,
      let back := value ≤ (s.head c).applied + s.img.regTolerance ∧ (s.head c).applied ≤ value + s.img.regTolerance
      exec (.measuredPressureChange c value) s = .next { s with hpc := { s.hpc with ch := s.hpc.ch.set c { s.head c with
        measured := value
        regTimer := if back then 0 else (s.head c).regTimer
        highReported := (s.head c).highReported && !decide back
        overTimer := if s.img.headMax.get c + s.img.overMargin < value then (s.head c).overTimer else 0 } } })

/-- Overpressure for 100 ms vents all six channels, sets its own to CHANNEL_FAULT and is the fault OVERPRESSURE; an air supply below the trip level
for 50 ms with a channel pressed is the fault SUPPLY_AIR. Below the warn level an armed mark gives one SUPPLY_WARN, and a second at or above it
arms the mark again; that the re-arm timer is 0 from there is log entry 55. With the head vented the air trip timer is 0. That a vented channel's
target is 0 is log entry 20. The dose in the CUT entry of a step that has not started is log entry 28. -/
def Obligations.OverpressureAndAirSupply : Prop :=
  ∀ s : State, s.started = true →
    (∀ c : HeadCh, (s.head c).state ≠ .channelFault → 100000 ≤ (s.head c).overTimer →
      ∃ t, exec (.overpressure c) s = .next t ∧ (t.head c).state = .channelFault ∧
        (∀ x : HeadCh, (t.head x).applied = 0 ∧ (t.head x).target = 0 ∧ (x ≠ c → (t.head x).state ≠ .ramping ∧
          (t.head x).state ≠ .regulating)) ∧ t.hpc.ramp = none ∧ t.hpc.tripTimer = 0 ∧
        FaultReported .overpressure s t) ∧
    (50000 ≤ s.hpc.tripTimer → (∃ c : HeadCh, (s.head c).state = .ramping ∨ (s.head c).state = .regulating) →
      ∃ t, exec .supplyAir s = .next t ∧ t.hpc.tripTimer = 0 ∧ FaultReported .supplyAir s t) ∧
    (s.hpc.armed = true → s.pins.air < s.img.airWarn →
      exec .supplyWarn s = .next (placeNotice 14 (le2 s.pins.air)
        { s with hpc := { s.hpc with warn := true, armed := false, rearmTimer := 0 } })) ∧
    (s.hpc.armed = false → 1000000 ≤ s.hpc.rearmTimer →
      exec .warnRearm s = .next { s with hpc := { s.hpc with armed := true, rearmTimer := 0 } })

/-! ### The pad conditioner -/

/-- The arm's own events. On arrival the disk is lowered with the step's downforce held to the configured maximum and the resume point becomes
absent; a lifting arm parks; the home switch gives the 420 mm; at a segment's bound the index moves, at the last outer radius the direction
turns INWARD, and at 40 mm it turns OUTWARD from the first segment above 40 mm. On a profile whose only segment ends at 40 mm the arm arrives with
direction OUTWARD, and meets no boundary. That boundaries are judged on the commanded radius is log entry 18, and that the home switch sets the
commanded radius alone, not the feedback radius, is the model's choice: log entry 53. -/
def Obligations.ArmMovesThroughItsSweep : Prop :=
  ∀ s : State, s.started = true →
    let with_ : Pcc → Host.Outcome State Fault Refusal := fun p => .next { s with pcc := p }
    let near := s.pins.armFeedback ≤ s.pcc.radius + 1000000 ∧ s.pcc.radius ≤ s.pins.armFeedback + 1000000
    (s.pcc.arm = .movingIn → s.pcc.radius = s.pcc.destination → near →
      ∀ st, s.stepNow = some st → exec .armArrival s = with_ { s.pcc with
        arm := .sweeping, downforce := min st.downforce s.img.maxDownforce, resume := none, stallTimer := 0
        direction := if 40000000 < lastOuter s.pcc.segments then s.pcc.direction else .outward }) ∧
    (s.pcc.arm = .sweeping → lastOuter s.pcc.segments ≤ 40000000 → exec .segmentBoundary s = .next s) ∧
    (s.pcc.arm = .lifting → s.pcc.radius = 420000000 → near →
      exec .armParked s = with_ { s.pcc with arm := .parked }) ∧
    (s.pcc.arm = .parked → s.pcc.search.isSome = true → s.pins.homeSwitch = true →
      exec .homeFound s = with_ { s.pcc with
        radius := 420000000, homeFound := true, search := none, positionTimer := 0 }) ∧
    (s.pcc.arm = .sweeping → 40000000 < lastOuter s.pcc.segments →
      (s.pcc.direction = .outward → outerOf s.pcc.segments s.pcc.segment ≤ s.pcc.radius →
        exec .segmentBoundary s = with_ (if s.pcc.segment < s.pcc.segments.length
          then { s.pcc with segment := s.pcc.segment + 1 } else { s.pcc with direction := .inward })) ∧
      (s.pcc.direction = .inward → s.pcc.radius ≤ innerOf s.pcc.segments s.pcc.segment →
        exec .segmentBoundary s = with_ (if s.pcc.radius ≤ 40000000
          then { s.pcc with direction := .outward, segment := firstAboveInner s.pcc.segments }
          else { s.pcc with segment := s.pcc.segment - 1 })))

/-- An arm fault of cause HOME, POSITION or STALL: the disk is raised, the arm is LOST where it stands, the resume point absent, COND_LOST set
with its notice, and the present step withdrawn where it is RUNNING or will return to it; a conditioning step still in WAITING is held with
cause CONDITIONER. The change is then carried through. That the home state stays as it stood is the model's choice: log entry 47. -/
def Obligations.ArmFaultsLoseTheArm : Prop :=
  ∀ s : State, s.started = true →
    let lost : Instr → Byte → Prop := fun i cause => ∃ u, exec i s = .next (settle u) ∧
      u.pcc = { s.pcc with
        downforce := 0, arm := .lost, resume := none, search := none
        withdrawn := s.pcc.withdrawn || s.seq.state == .running ||
          (s.seq.state == .holding && s.seq.resume == some .running)
        condLost := true, positionTimer := 0, stallTimer := 0 } ∧
      (s.seq.state = .running → u.seq = { s.seq with flags := { s.seq.flags with condLost := true } }) ∧
      (s.seq.state = .holding → u.seq.state = .holding ∧ u.seq.flags = { s.seq.flags with condLost := true } ∧
        u.seq.causes = (if s.seq.resume = some .waiting ∧ conditionsPad s = true then
          { s.seq.causes with conditioner := true } else s.seq.causes)) ∧
      (s.seq.state = .waiting → conditionsPad s = true → u.seq.state = .holding ∧
        u.seq.causes = { s.seq.causes with conditioner := true } ∧ u.seq.resume = some .waiting) ∧
      (s.seq.state ≠ .running → s.seq.state ≠ .holding → s.seq.state ≠ .waiting ∨ conditionsPad s = false →
        u.seq = s.seq) ∧
      (s.seq.state ≠ .waiting ∨ conditionsPad s = false →
        u = { placeNotice 16 (cause :: le2 (s.pins.armFeedback / 1000000)) s with pcc := u.pcc, seq := u.seq }) ∧
      u.sdu.dose = s.sdu.dose ∧ u.drv = s.drv ∧ u.lnk.answers = s.lnk.answers ∧ OutsideStands s u
    (∀ a, s.pcc.search = some a → 15000000 ≤ a → lost .homeTimeout 3) ∧
    (s.pcc.arm ≠ .lost → (s.pcc.arm = .parked → s.pcc.homeFound = true) → 200000 ≤ s.pcc.positionTimer →
      lost .armPositionFault 0) ∧
    (s.pcc.arm = .sweeping → 200000 ≤ s.pcc.stallTimer → lost .diskStall 1)

/-- A life counter rises by 1 for each 1000 of its remainder, up to 4294967295, and sends one LIFE_WARNING when it rises to 90 % of its limit with its
warned mark clear. Nothing else changes.

The remainders: a microsecond of SWEEPING adds the applied downforce to the disk's, and a microsecond of RUNNING a POLISH step with wafer pressure
adds 1 to the pad's, in units a thousand times finer than N·ms and ms (log entry 2). From a step's start pressure counts where an applied zone
value or a step zone target is above 0; after a return to RUNNING the applied values alone decide (log entry 38). -/
def Obligations.LifeCountersRise : Prop :=
  ∀ s : State, s.started = true →
    (s.pending = [] → dueList s = [] →
      let zones : PerHead Nat → Bool := fun v => 0 < v.z1 || 0 < v.z2 || 0 < v.z3 || 0 < v.z4 || 0 < v.z5
      let presses := s.seq.state == .running && s.stepKind == some .polish && (zones s.applied || (s.seq.sinceStart && zones s.hpc.stepTargets))
      ∃ t, step s = .next t ∧ t.pcc.diskLife = s.pcc.diskLife ∧ t.pcc.padLife = s.pcc.padLife ∧
        t.pcc.diskRemainder = s.pcc.diskRemainder + (if s.pcc.arm = .sweeping then s.pcc.downforce else 0) ∧
        t.pcc.padRemainder = s.pcc.padRemainder + (if presses then 1 else 0)) ∧
    (1000000 ≤ s.pcc.diskRemainder →
      let life := min 4294967295 (s.pcc.diskLife + 1)
      let warns := s.pcc.diskWarned = false ∧ s.pcc.diskLife < life ∧ s.img.diskLimit * 9 ≤ life * 10
      let u : State := { s with pcc := { s.pcc with
        diskLife := life, diskRemainder := s.pcc.diskRemainder - 1000000
        diskWarned := s.pcc.diskWarned || decide warns } }
      exec .diskLifeIncrement s =
        .next (if warns then placeNotice 15 (0 :: (le4 life ++ le4 s.img.diskLimit)) u else u)) ∧
    (1000000 ≤ s.pcc.padRemainder →
      let life := min 4294967295 (s.pcc.padLife + 1)
      let warns := s.pcc.padWarned = false ∧ s.pcc.padLife < life ∧ s.img.padLimit * 9 ≤ life * 10
      let u : State := { s with pcc := { s.pcc with
        padLife := life, padRemainder := s.pcc.padRemainder - 1000000
        padWarned := s.pcc.padWarned || decide warns } }
      exec .padLifeIncrement s =
        .next (if warns then placeNotice 15 (1 :: (le4 life ++ le4 s.img.padLimit)) u else u))

/-! ### The endpoint monitor -/

/-- A sample joins the window, the oldest leaving a window of 16. A period expiry takes the present average as previous one and counts; from
CLASSIFYING it classifies the change against the threshold and begins a symbol where the stream's current one differs; every matcher moves, armed
from the step's min time on, with the new symbol or the duration of the current one, and all three reset when one completes. Each that completes
sends ENDPOINT_MATCH, in ascending order, with the step, the elapsed time and whether it is the step's own. The step's own match sets the endpoint
time and the overpolish end of a RUNNING ENDPOINT step, once; no other match changes the sequencer.

A matcher: an unused signature takes no part; a recovery count falls by 1 and nothing else; an unarmed matcher ignores the expiry. Searching at 0
it takes the symbol of element 0; later it checks the ended duration against its element and the new symbol against the next, a failure of either
being a wrong event; with no new symbol it checks the max; pending, it completes at the first expiry at which its last symbol has lasted the
element's min. That a sample's reading becomes the motor-current pin, and that a command is a sample before the 10 ms have run out as well, is the
model's choice: log entry 32. -/
def Obligations.SamplesSymbolsAndMatches : Prop :=
  (∀ (sig : List Elem) (r : Nat) (armed : Bool) (new : Option Beginning) (duration : Nat) (m : Matcher),
    let moved := moveMatcher sig r armed new duration m
    let wrong : Moved := ⟨⟨0, r⟩, false⟩
    let el : Nat → Elem := fun i => sig.getD i ⟨.flat, 0, 0⟩
    (sig = [] → moved = ⟨m, false⟩) ∧
    (sig ≠ [] → 0 < m.recovery → moved = ⟨⟨m.p, m.recovery - 1⟩, false⟩) ∧
    (sig ≠ [] → m.recovery = 0 → armed = false → moved = ⟨m, false⟩) ∧
    (sig ≠ [] → m.recovery = 0 → armed = true →
      (∀ b, new = some b →
        (m.p = 0 → (el 0).symbol ≠ b.symbol → moved = ⟨m, false⟩) ∧
        (m.p = 0 → (el 0).symbol = b.symbol → moved = ⟨⟨1, 0⟩, decide (sig.length = 1 ∧ (el 0).min = 0)⟩) ∧
        (1 ≤ m.p → m.p < sig.length →
          let inside := (el (m.p - 1)).min ≤ b.ended ∧ ((el (m.p - 1)).max = 0 ∨ b.ended ≤ (el (m.p - 1)).max)
          (inside → (el m.p).symbol = b.symbol →
            moved = ⟨⟨m.p + 1, 0⟩, decide (m.p + 1 = sig.length ∧ (el m.p).min = 0)⟩) ∧
          (¬inside ∨ (el m.p).symbol ≠ b.symbol → moved = wrong)) ∧
        (sig.length ≤ m.p → (el (m.p - 1)).min ≤ b.ended → moved = ⟨m, true⟩) ∧
        (sig.length ≤ m.p → b.ended < (el (m.p - 1)).min → moved = wrong)) ∧
      (new = none →
        (m.p = 0 → moved = ⟨m, false⟩) ∧
        (1 ≤ m.p → m.p < sig.length →
          (0 < (el (m.p - 1)).max → (el (m.p - 1)).max < duration → moved = wrong) ∧
          ((el (m.p - 1)).max = 0 ∨ duration ≤ (el (m.p - 1)).max → moved = ⟨m, false⟩)) ∧
        (sig.length ≤ m.p → moved = ⟨m, decide ((el (m.p - 1)).min ≤ duration)⟩)))) ∧
  ∀ s : State,
    (s.cfg.held = false → s.pins.supplyLow = false → s.cfg.startUp ≠ .configFault → ∀ x : Nat,
      ∃ t, exec (.currentSample x) s = .next t ∧
        t = { s with epm := t.epm, pins := { s.pins with motorCurrent := x } } ∧
        t.epm = { s.epm with window := t.epm.window, sampleTimer := 0 } ∧
        (s.epm.window.length < 16 → t.epm.window = s.epm.window ++ [x]) ∧
        (s.epm.window.length = 16 → t.epm.window = s.epm.window.tail ++ [x])) ∧
    (∀ e : EpmSettings, s.started = true → s.epm.settings = some e →
      s.epm.state = .reference ∨ s.epm.state = .classifying → 1000 * e.period ≤ s.epm.periodTimer →
      let present := s.epm.window.sum / s.epm.window.length
      let symbol : Symbol :=
        if s.epm.previous + e.threshold < present then .rise
        else if present + e.threshold < s.epm.previous then .fall else .flat
      let lasted := (s.epm.current.map (fun x => s.epm.count + 1 - x.2)).getD 0
      let new : Option Beginning :=
        if s.epm.state = .classifying ∧ s.epm.current.map Prod.fst ≠ some symbol then some ⟨symbol, lasted⟩ else none
      let move := fun (sig : List Elem) (m : Matcher) =>
        moveMatcher sig e.recovery (decide (e.minTime ≤ s.seq.elapsed / 100000)) new lasted m
      let v : PerSig Moved :=
        ⟨move e.sigs.s0 s.epm.matchers.s0, move e.sigs.s1 s.epm.matchers.s1, move e.sigs.s2 s.epm.matchers.s2⟩
      let notify : Nat → Moved → State → State := fun i x u =>
        if x.complete = true then
          placeNotice 17 ([byteOf i, byteOf s.seq.index] ++ le2 (s.seq.elapsed / 100000) ++
            [if e.sigIndex = some i then 1 else 0]) u
        else u
      ∃ t, exec .symbolPeriodExpiry s = .next t ∧ t = { s with epm := t.epm, seq := t.seq, lnk := t.lnk } ∧
        t.epm = { s.epm with
          state := .classifying, periodTimer := 0, count := s.epm.count + 1, previous := present
          current := t.epm.current, matchers := t.epm.matchers } ∧
        (s.epm.state = .reference → t.epm.current = s.epm.current) ∧
        (s.epm.state = .classifying → t.epm.current =
          (if s.epm.current.map Prod.fst = some symbol then s.epm.current else some (symbol, s.epm.count + 1))) ∧
        t.epm.matchers = (if v.s0.complete = true ∨ v.s1.complete = true ∨ v.s2.complete = true
          then ⟨⟨0, 0⟩, ⟨0, 0⟩, ⟨0, 0⟩⟩ else ⟨v.s0.after, v.s1.after, v.s2.after⟩) ∧
        (∀ (i : Nat) (st : StepRec), e.sigIndex = some i → (v.get i).complete = true → s.stepNow = some st →
          st.termination = .endpoint → s.seq.state = .running → s.seq.endpoint = none →
          t.seq = { s.seq with
            endpoint := some (s.seq.elapsed / 100000)
            overEnd := some (s.seq.elapsed / 100000 + st.overpolish) }) ∧
        ((∀ i, e.sigIndex = some i → (v.get i).complete = false) ∨ s.seq.state ≠ .running ∨
          s.seq.endpoint.isSome = true ∨ (∀ st, s.stepNow = some st → st.termination ≠ .endpoint) → t.seq = s.seq) ∧
        t.lnk = (notify 2 v.s2 (notify 1 v.s1 (notify 0 v.s0 s))).lnk)

/-! ### The tool -/

/-- An interlock line. A new raw level back at the debounced level clears the debounce timer. A line of debounce 0 takes each change at once, as the
debounce time of another does, and a change that still stands is taken before the next. At the debounce time the debounced level takes the raw
level; a change to active is an event of an EDGE line when it comes from INACTIVE, of a LEVEL line when it is armed, and never of IL1. The event
sets the sticky flag and queues its notice; a HOLD line holds WAITING and RUNNING with cause INTERLOCK, in HOLDING the cause joins the set without
a notice of a hold, in ENDING it is deferred; an ABORT line is the fault INTERLOCK, and IL0 or a LINK_STOP line that fault with a STOP naming the
line placed as well, FAULT standing behind the event's notice. The dose in the CUT entry of a step that has not started is log entry 28. -/
def Obligations.InterlockLines : Prop :=
  ∀ (s : State) (l : Line),
    (∀ high : Bool, s.started = false ∨ (s.img.lines.get l).debounce ≠ 0 →
      let active := high == (s.img.lines.get l).activeHigh
      let back := (s.line l).level = (if active = true then .active else .inactive)
      exec (.lineLevelChange l high) s = .next { s with
        pins := { s.pins with lines := s.pins.lines.set l high }
        ilk := { s.ilk with lines := if back then s.ilk.lines.set l { s.line l with timer := 0 } else s.ilk.lines } }) ∧
    (∀ high : Bool, s.started = true → (s.img.lines.get l).debounce = 0 →
      let level : Bool → Level := fun raw => if (raw == (s.img.lines.get l).activeHigh) = true then .active else .inactive
      let u := { s with pins := { s.pins with lines := s.pins.lines.set l high } }
      ((s.line l).level = level (s.pins.lines.get l) → (s.line l).level ≠ level high →
        exec (.lineLevelChange l high) s = exec (.debounceExpiry l) u) ∧
      ((s.line l).level = level (s.pins.lines.get l) → (s.line l).level = level high →
        exec (.lineLevelChange l high) s = .next { u with ilk := { s.ilk with
          lines := s.ilk.lines.set l { s.line l with timer := 0 } } }) ∧
      ((s.line l).level ≠ level (s.pins.lines.get l) →
        ∃ v, exec (.debounceExpiry l) s = .next v ∧ (v.line l).level = level (s.pins.lines.get l) ∧
          exec (.lineLevelChange l high) s = exec (.lineLevelChange l high) v)) ∧
    (s.started = true → 1000 * (s.img.lines.get l).debounce ≤ (s.line l).timer →
      let type := (s.img.lines.get l).type
      let after : Level → Bool → Bool → State := fun level armed sticky => { s with ilk := { s.ilk with
        lines := s.ilk.lines.set l { level := level, timer := 0, armed := armed, sticky := sticky } } }
      let noticed : Nat → State → State := fun r u =>
        placeNotice 18 [byteOf (numLine l), byteOf r, byteOf (numState s.seq.state)] u
      (s.pins.lines.get l ≠ (s.img.lines.get l).activeHigh → (s.line l).level ≠ .inactive →
        exec (.debounceExpiry l) s =
          .next (settle (after .inactive ((s.line l).armed || decide (type = .level)) (s.line l).sticky))) ∧
      (s.pins.lines.get l = (s.img.lines.get l).activeHigh → (s.line l).level ≠ .active →
        (l = .il1 ∨ (type = .edge ∧ (s.line l).level = .unknown) ∨ (type = .level ∧ (s.line l).armed = false) →
          exec (.debounceExpiry l) s = .next (settle (after .active (s.line l).armed (s.line l).sticky))) ∧
        (l ≠ .il1 → (type = .edge ∧ (s.line l).level = .inactive) ∨ (type = .level ∧ (s.line l).armed = true) →
          let u := after .active (if type = .level then false else (s.line l).armed) true
          (l ≠ .il0 → (s.img.lines.get l).routing = .note →
            exec (.debounceExpiry l) s = .next (settle (noticed 0 u))) ∧
          (l ≠ .il0 → (s.img.lines.get l).routing = .hold →
            (s.seq.state = .waiting ∨ s.seq.state = .running →
              ∃ t, exec (.debounceExpiry l) s = .next t ∧ t.ilk = u.ilk ∧ t.seq.state = .holding ∧
                t.seq.causes.interlock = true ∧
                t.seq.resume = some (if s.seq.state = .waiting then .waiting else .running) ∧
                t.seq.index = s.seq.index ∧ t.seq.elapsed = s.seq.elapsed ∧ t.seq.record = s.seq.record ∧
                t.sdu.dose = s.sdu.dose ∧ t.drv = s.drv ∧ OutsideStands u t) ∧
            (s.seq.state = .holding →
              exec (.debounceExpiry l) s = .next (settle (noticed 1
                { u with seq := { s.seq with causes := { s.seq.causes with interlock := true } } })) ∧
              ∀ t, exec (.debounceExpiry l) s = .next t → t.seq.state = .holding ∧ t.seq.causes.interlock = true ∧
                t.seq.resume = s.seq.resume ∧ t.lnk.notices = (noticed 1 s).lnk.notices) ∧
            (s.seq.state = .ending →
              exec (.debounceExpiry l) s = .next (settle (noticed 1
                { u with seq := { s.seq with deferred := { s.seq.deferred with interlock := true } } }))) ∧
            (s.seq.state.atRest = true ∨ s.seq.state = .aborting →
              exec (.debounceExpiry l) s = .next (settle (noticed 1 u)))) ∧
          (l ≠ .il0 → (s.img.lines.get l).routing = .abort →
            ∃ t, exec (.debounceExpiry l) s = .next t ∧ FaultReported .interlock (noticed 2 u) t) ∧
          (l = .il0 ∨ (s.img.lines.get l).routing = .linkStop →
            ∃ t, exec (.debounceExpiry l) s = .next t ∧ FaultReported .interlock (noticed 3 u) t ∧
              (s.silent = false → t.lnk.stopSlot = some ⟨.stop, 0, [byteOf (numLine l)], 0⟩) ∧
              (s.silent = true → t.lnk.stopSlot = s.lnk.stopSlot)))))

/-- The tool mode. A new raw combination of the two mode lines restarts the 20 ms; a combination that has stood 20 ms and is not the decoded one is
decoded: RUN, SERVICE or LOCKOUT, the illegal one LOCKOUT with MODE_ILLEGAL. A change to SERVICE holds a step with cause MODE, which in HOLDING
joins the set without a notice of a hold and in ENDING is deferred; a change to LOCKOUT aborts a run with result LOCKED_OUT and its undecided step
CUT; a change to RUN releases nothing by itself. That MODE_CHANGED stands before the sequencer's notices of the change is log entry 41, and the
dose in the CUT entry of a step that has not started log entry 28. -/
def Obligations.ToolModeIsDecoded : Prop :=
  ∀ s : State,
    (∀ first second : Bool, exec (.modeLinesChange first second) s = .next { s with
      pins := { s.pins with modeFirst := first, modeSecond := second }
      ilk := { s.ilk with
        modeTimer := if s.pins.modeFirst = first ∧ s.pins.modeSecond = second then s.ilk.modeTimer else 0 } }) ∧
    (s.cfg.held = false → s.pins.supplyLow = false → s.cfg.startUp ≠ .configFault → 20000 ≤ s.ilk.modeTimer →
      s.ilk.decoded ≠ some (s.pins.modeFirst, s.pins.modeSecond) →
      let illegal := s.pins.modeFirst && !s.pins.modeSecond
      let mode : ToolMode := if s.pins.modeSecond = false then .lockout
        else if s.pins.modeFirst = true then .run else .service
      let u := { s with ilk := { s.ilk with
        mode := mode, decoded := some (s.pins.modeFirst, s.pins.modeSecond)
        modeIllegal := s.ilk.modeIllegal || illegal } }
      let noticed : State → State := placeNotice 19 [byteOf (numMode mode), if illegal then 1 else 0]
      (mode = s.ilk.mode → exec .modeDecoded s = .next (settle u)) ∧
      (mode ≠ s.ilk.mode →
        (mode = .run → exec .modeDecoded s = .next (settle (noticed u))) ∧
        (mode = .service →
          (s.seq.state = .waiting ∨ s.seq.state = .running →
            ∃ t, exec .modeDecoded s = .next t ∧ t.ilk = u.ilk ∧ t.seq.state = .holding ∧ t.seq.causes.mode = true ∧
              t.seq.resume = some (if s.seq.state = .waiting then .waiting else .running) ∧
              t.seq.index = s.seq.index ∧ t.seq.elapsed = s.seq.elapsed ∧ t.seq.record = s.seq.record ∧
              t.sdu.dose = s.sdu.dose ∧ t.drv = s.drv ∧ OutsideStands u t) ∧
          (s.seq.state = .holding →
            exec .modeDecoded s = .next (settle (noticed
              { u with seq := { s.seq with causes := { s.seq.causes with mode := true } } })) ∧
            ∀ t, exec .modeDecoded s = .next t → t.seq.state = .holding ∧ t.seq.causes.mode = true ∧
              t.seq.resume = s.seq.resume ∧ t.lnk.notices = (noticed s).lnk.notices) ∧
          (s.seq.state = .ending → exec .modeDecoded s = .next (settle (noticed
            { u with seq := { s.seq with deferred := { s.seq.deferred with mode := true } } }))) ∧
          (s.seq.state.atRest = true ∨ s.seq.state = .aborting → exec .modeDecoded s = .next (settle (noticed u)))) ∧
        (mode = .lockout →
          (s.seq.state.inRun = true →
            ∃ t, exec .modeDecoded s = .next t ∧ t.ilk = u.ilk ∧ t.seq.state = .aborting ∧
              t.seq.result = .lockedOut ∧ t.seq.causes = CauseSet.empty ∧ t.seq.deferred = CauseSet.empty ∧
              t.seq.resume = none ∧ t.seq.abortTimer = some 0 ∧ (∀ d : Drive, (t.drive d).setpoint = 0) ∧
              t.sdu.dose = s.sdu.dose ∧ CutsStep (noticed u) t ∧ OutsideStands u t) ∧
          (s.seq.state.inRun = false → exec .modeDecoded s = .next (settle (noticed u))))))

/-- Drives at speed. A drive whose command stands at its setpoint, with feedback within 1 rpm or 3 % and no trip, for 1 s is at speed; a reading or
the end of its ramp that finds it otherwise takes it off speed with its timer at 0. A pulse clears the tach-loss timer.

The ramp: a new setpoint starts a ramp from the command of that moment, and one equal to that in force starts nothing; t microseconds into it the
command is the start value plus a × t / 1000000 toward the setpoint, truncated toward the start, and never past it; an active trip holds it at 0.
That the at-speed timer stands at 0 while a trip is active is log entry 52. -/
def Obligations.DrivesReachTheirSpeed : Prop :=
  ∀ (s : State) (d : Drive),
    let with_ : DriveState → State := fun x => { s with drv := { s.drv with drive := s.drv.drive.set d x } }
    let near : Nat → Bool := fun f =>
      f - (s.drive d).command + ((s.drive d).command - f) ≤ 1 ||
      100 * (f - (s.drive d).command + ((s.drive d).command - f)) ≤ 3 * (s.drive d).command
    let steady := (s.drive d).command == (s.drive d).setpoint && !s.pins.trip.get d
    let feedbackNow := if (s.drive d).source = .tach then s.pins.tachSpeed.get d else s.pins.estimate.get d
    (∀ (x : DriveState) (setpoint : Nat),
      (x.setpoint = setpoint → x.take setpoint = x) ∧
      (x.setpoint ≠ setpoint → x.take setpoint = { x with
        setpoint := setpoint, ramp := if x.command = setpoint then none else some (x.command, 0)
        atSpeed := false, atSpeedTimer := 0 })) ∧
    (s.started = true → s.pending = [] → dueList s = [] →
      ∃ t, step s = .next t ∧ (t.drive d).setpoint = (s.drive d).setpoint ∧
        (s.pins.trip.get d = true → (t.drive d).command = 0) ∧
        (s.pins.trip.get d = false →
          ((s.drive d).ramp = none → (t.drive d).command = (s.drive d).command ∧ (t.drive d).ramp = none) ∧
          (∀ a n, (s.drive d).ramp = some (a, n) → (t.drive d).ramp = some (a, n + 1) ∧
            (a ≤ (s.drive d).setpoint → (t.drive d).command =
              min (s.drive d).setpoint (a + s.img.acceleration.get d * (n + 1) / 1000000)) ∧
            ((s.drive d).setpoint < a → (t.drive d).command =
              max (s.drive d).setpoint (a - s.img.acceleration.get d * (n + 1) / 1000000))))) ∧
    (exec (.tachPulse d) s = .next (with_ { s.drive d with tachLoss := 0, silence := 0 })) ∧
    (s.started = true → steady = true → near feedbackNow = true → (s.drive d).atSpeed = false →
      1000000 ≤ (s.drive d).atSpeedTimer → exec (.atSpeed d) s = .next (with_ { s.drive d with atSpeed := true })) ∧
    (s.started = true → (s.drive d).ramp.isSome = true → (s.drive d).command = (s.drive d).setpoint →
      let on := steady && near feedbackNow
      exec (.driveCommandAtSetpoint d) s = .next (with_ { s.drive d with
        ramp := none, atSpeed := (s.drive d).atSpeed && on
        atSpeedTimer := if on then (s.drive d).atSpeedTimer else 0 })) ∧
    (∀ tach estimate : Nat,
      let on := steady && near (if (s.drive d).source = .tach then tach else estimate)
      let agrees := tach - estimate + (estimate - tach) ≤ 1 ∨ 100 * (tach - estimate + (estimate - tach)) ≤ 5 * estimate
      exec (.driveFeedback d tach estimate) s = .next { with_ { s.drive d with
          agreement := if agrees then (s.drive d).agreement else 0
          atSpeed := (s.drive d).atSpeed && on
          atSpeedTimer := if on then (s.drive d).atSpeedTimer else 0 } with
        pins := { s.pins with
          tachSpeed := s.pins.tachSpeed.set d tach, estimate := s.pins.estimate.set d estimate } })

/-- A tach lost for 500 ms at a command of at least 5 rpm: the drive runs on its estimate, TACH_LOST is set, its notice queued, and a RUNNING step
flagged TACH_FALLBACK; two seconds of agreement return it to its tach with TACH_RESTORED. A trip input that becomes active takes the drive's
command to 0 and is the fault DRIVE_TRIP; its release starts the command from 0 toward the setpoint. A trip and its release leave the tach-loss
timer at 0. Before the image is in force the input alone changes. The two-byte speeds of TACH_LOST are log entry 15, and that the
at-speed timer stands at 0 under a trip is log entry 52. The dose in the CUT entry of a step that has not started is log entry 28. -/
def Obligations.TachFallbackAndTrips : Prop :=
  ∀ (s : State) (d : Drive),
    ((s.drive d).command < 5 → exec (.tachLost d) s = .next s) ∧
    (s.started = true → (s.drive d).source = .tach → 5 ≤ (s.drive d).command → 500000 ≤ (s.drive d).tachLoss →
      ∃ u, exec (.tachLost d) s = .next (settle u) ∧ u.drv.tachLost = true ∧
        u.drive d = { s.drive d with
          source := .estimate, tachLoss := 0, agreement := 0
          atSpeed := (u.drive d).atSpeed, atSpeedTimer := (u.drive d).atSpeedTimer } ∧
        (∀ x, x ≠ d → u.drive x = s.drive x) ∧
        u = { placeNotice 20 (byteOf (numDrive d) :: (le2 (s.drive d).command ++ le2 (s.pins.estimate.get d))) s with
          drv := u.drv } ∧
        (s.seq.state = .running → (settle u).seq.flags.tachFallback = true)) ∧
    (s.started = true → (s.drive d).source = .estimate → 2000000 ≤ (s.drive d).agreement →
      ∃ u, exec (.tachRestored d) s = .next (settle u) ∧ u.drv.tachLost = s.drv.tachLost ∧
        u.drive d = { s.drive d with
          source := .tach, tachLoss := 0, agreement := 0
          atSpeed := (u.drive d).atSpeed, atSpeedTimer := (u.drive d).atSpeedTimer } ∧
        (∀ x, x ≠ d → u.drive x = s.drive x) ∧
        u = { placeNotice 21 [byteOf (numDrive d)] s with drv := u.drv }) ∧
    (s.pins.trip.get d = false →
      let u := { s with pins := { s.pins with trip := s.pins.trip.set d true } }
      (s.started = true → ∃ t, exec (.driveTrip d) s = .next t ∧ (t.drive d).command = 0 ∧
        (t.drive d).ramp = none ∧ (t.drive d).atSpeed = false ∧ (t.drive d).tachLoss = 0 ∧ FaultReported .driveTrip u t) ∧
      (s.started = false → exec (.driveTrip d) s = .next u)) ∧
    (s.pins.trip.get d = true →
      let u := { s with pins := { s.pins with trip := s.pins.trip.set d false } }
      (s.started = true → exec (.driveTripRelease d) s = .next { u with drv := { s.drv with
        drive := s.drv.drive.set d { s.drive d with
          command := 0, tachLoss := 0, ramp := if (s.drive d).setpoint = 0 then none else some (0, 0) } } }) ∧
      (s.started = false → exec (.driveTripRelease d) s = .next u))

/-! ### What every step keeps -/

/-- LNK's queues keep to their places, and the notices-lost count to its byte.

The peer table keeps one entry a node in rising order, with every item cleaned to its ranges and every age at most 8.

The recipe store keeps its 16 slots and 4 sweep profiles. -/
def Obligations.QueuesAndTableKeepTheirBounds : Prop :=
  (∀ s t : State, QueuesFit s → step s = .next t → QueuesFit t) ∧
  (∀ s t : State, TableInRange s → step s = .next t → TableInRange t) ∧
  (∀ s t : State, StoreSized s → step s = .next t → StoreSized t)

/-- The sequencer is in HOLDING exactly while its hold-cause set is non-empty, with a resume target. -/
def Obligations.HoldingExactlyWithACause : Prop :=
  ∀ s t : State, HoldingIffCaused s → step s = .next t → HoldingIffCaused t

/-- Never two feed valves of one channel open together, and never DI together with a MAIN feed.

The effective grant never passes the computed grant, a hold-off runs exactly while it is below, and k and the mark-free count keep their
ranges. -/
def Obligations.ValvesApartAndGrantsHeldOff : Prop :=
  (∀ s t : State, ValvesApart s → step s = .next t → ValvesApart t) ∧
  (∀ s t : State, GrantsHeldOff s → step s = .next t → GrantsHeldOff t)

/-- A FAULTED station leaves FAULTED only through a CLEAR_FAULT order or a reset, and no command but a START order makes a run of a station that
is in none. (An order may also arrive as UNKNOWN_ORDER with its payload or inside a frame, and a pending restart may follow the end of a frame.) -/
def Obligations.FaultedAndRestAreLeftByOrderOnly : Prop :=
  ∀ (s t : State) (c : Instr), exec c s = .next t →
    (s.seq.state = .faulted → t.seq.state ≠ .faulted →
      c = .powerOn ∨ c = .resetLine ∨ c = .resetLineActive ∨ (∃ b, c = .frameReceived b) ∨
      (∃ m p, c = .unknownOrder m p) ∨ (∃ m, c = .clearFault m) ∨ (∃ m, c = .restart m) ∨ c = .frameSent ∨
      c = .echoMismatch) ∧
    (s.seq.state.inRun = false → t.seq.state.inRun = true →
      (∃ m, c = .start m) ∨ (∃ m p, c = .unknownOrder m p) ∨ ∃ b, c = .frameReceived b)
end

