-- ==== Sys2Proof/Laws/State.lean ====
section
/-! SUPPORT. One lemma per field per block update: a replaced block reads as the new one, every other field as before. -/

namespace Sys2Proof.Machine

@[simp] theorem State.setCfg_cfg (s : State) (x : Cfg) : (s.setCfg x).cfg = x := rfl
@[simp] theorem State.setCfg_peer (s : State) (x : Cfg) : (s.setCfg x).peer = s.peer := rfl
@[simp] theorem State.setCfg_shr (s : State) (x : Cfg) : (s.setCfg x).shr = s.shr := rfl
@[simp] theorem State.setCfg_sdu (s : State) (x : Cfg) : (s.setCfg x).sdu = s.sdu := rfl
@[simp] theorem State.setCfg_seq (s : State) (x : Cfg) : (s.setCfg x).seq = s.seq := rfl
@[simp] theorem State.setCfg_rcp (s : State) (x : Cfg) : (s.setCfg x).rcp = s.rcp := rfl
@[simp] theorem State.setCfg_hpc (s : State) (x : Cfg) : (s.setCfg x).hpc = s.hpc := rfl
@[simp] theorem State.setCfg_pcc (s : State) (x : Cfg) : (s.setCfg x).pcc = s.pcc := rfl
@[simp] theorem State.setCfg_epm (s : State) (x : Cfg) : (s.setCfg x).epm = s.epm := rfl
@[simp] theorem State.setCfg_ilk (s : State) (x : Cfg) : (s.setCfg x).ilk = s.ilk := rfl
@[simp] theorem State.setCfg_drv (s : State) (x : Cfg) : (s.setCfg x).drv = s.drv := rfl
@[simp] theorem State.setCfg_lnk (s : State) (x : Cfg) : (s.setCfg x).lnk = s.lnk := rfl
@[simp] theorem State.setCfg_pins (s : State) (x : Cfg) : (s.setCfg x).pins = s.pins := rfl
@[simp] theorem State.setCfg_now (s : State) (x : Cfg) : (s.setCfg x).now = s.now := rfl
@[simp] theorem State.setCfg_freeCount (s : State) (x : Cfg) : (s.setCfg x).freeCount = s.freeCount := rfl
@[simp] theorem State.setCfg_pending (s : State) (x : Cfg) : (s.setCfg x).pending = s.pending := rfl
@[simp] theorem State.setPeer_cfg (s : State) (x : Peer) : (s.setPeer x).cfg = s.cfg := rfl
@[simp] theorem State.setPeer_peer (s : State) (x : Peer) : (s.setPeer x).peer = x := rfl
@[simp] theorem State.setPeer_shr (s : State) (x : Peer) : (s.setPeer x).shr = s.shr := rfl
@[simp] theorem State.setPeer_sdu (s : State) (x : Peer) : (s.setPeer x).sdu = s.sdu := rfl
@[simp] theorem State.setPeer_seq (s : State) (x : Peer) : (s.setPeer x).seq = s.seq := rfl
@[simp] theorem State.setPeer_rcp (s : State) (x : Peer) : (s.setPeer x).rcp = s.rcp := rfl
@[simp] theorem State.setPeer_hpc (s : State) (x : Peer) : (s.setPeer x).hpc = s.hpc := rfl
@[simp] theorem State.setPeer_pcc (s : State) (x : Peer) : (s.setPeer x).pcc = s.pcc := rfl
@[simp] theorem State.setPeer_epm (s : State) (x : Peer) : (s.setPeer x).epm = s.epm := rfl
@[simp] theorem State.setPeer_ilk (s : State) (x : Peer) : (s.setPeer x).ilk = s.ilk := rfl
@[simp] theorem State.setPeer_drv (s : State) (x : Peer) : (s.setPeer x).drv = s.drv := rfl
@[simp] theorem State.setPeer_lnk (s : State) (x : Peer) : (s.setPeer x).lnk = s.lnk := rfl
@[simp] theorem State.setPeer_pins (s : State) (x : Peer) : (s.setPeer x).pins = s.pins := rfl
@[simp] theorem State.setPeer_now (s : State) (x : Peer) : (s.setPeer x).now = s.now := rfl
@[simp] theorem State.setPeer_freeCount (s : State) (x : Peer) : (s.setPeer x).freeCount = s.freeCount := rfl
@[simp] theorem State.setPeer_pending (s : State) (x : Peer) : (s.setPeer x).pending = s.pending := rfl
@[simp] theorem State.setShr_cfg (s : State) (x : PerFeed FeedShare) : (s.setShr x).cfg = s.cfg := rfl
@[simp] theorem State.setShr_peer (s : State) (x : PerFeed FeedShare) : (s.setShr x).peer = s.peer := rfl
@[simp] theorem State.setShr_shr (s : State) (x : PerFeed FeedShare) : (s.setShr x).shr = x := rfl
@[simp] theorem State.setShr_sdu (s : State) (x : PerFeed FeedShare) : (s.setShr x).sdu = s.sdu := rfl
@[simp] theorem State.setShr_seq (s : State) (x : PerFeed FeedShare) : (s.setShr x).seq = s.seq := rfl
@[simp] theorem State.setShr_rcp (s : State) (x : PerFeed FeedShare) : (s.setShr x).rcp = s.rcp := rfl
@[simp] theorem State.setShr_hpc (s : State) (x : PerFeed FeedShare) : (s.setShr x).hpc = s.hpc := rfl
@[simp] theorem State.setShr_pcc (s : State) (x : PerFeed FeedShare) : (s.setShr x).pcc = s.pcc := rfl
@[simp] theorem State.setShr_epm (s : State) (x : PerFeed FeedShare) : (s.setShr x).epm = s.epm := rfl
@[simp] theorem State.setShr_ilk (s : State) (x : PerFeed FeedShare) : (s.setShr x).ilk = s.ilk := rfl
@[simp] theorem State.setShr_drv (s : State) (x : PerFeed FeedShare) : (s.setShr x).drv = s.drv := rfl
@[simp] theorem State.setShr_lnk (s : State) (x : PerFeed FeedShare) : (s.setShr x).lnk = s.lnk := rfl
@[simp] theorem State.setShr_pins (s : State) (x : PerFeed FeedShare) : (s.setShr x).pins = s.pins := rfl
@[simp] theorem State.setShr_now (s : State) (x : PerFeed FeedShare) : (s.setShr x).now = s.now := rfl
@[simp] theorem State.setShr_freeCount (s : State) (x : PerFeed FeedShare) : (s.setShr x).freeCount = s.freeCount := rfl
@[simp] theorem State.setShr_pending (s : State) (x : PerFeed FeedShare) : (s.setShr x).pending = s.pending := rfl
@[simp] theorem State.setSdu_cfg (s : State) (x : Sdu) : (s.setSdu x).cfg = s.cfg := rfl
@[simp] theorem State.setSdu_peer (s : State) (x : Sdu) : (s.setSdu x).peer = s.peer := rfl
@[simp] theorem State.setSdu_shr (s : State) (x : Sdu) : (s.setSdu x).shr = s.shr := rfl
@[simp] theorem State.setSdu_sdu (s : State) (x : Sdu) : (s.setSdu x).sdu = x := rfl
@[simp] theorem State.setSdu_seq (s : State) (x : Sdu) : (s.setSdu x).seq = s.seq := rfl
@[simp] theorem State.setSdu_rcp (s : State) (x : Sdu) : (s.setSdu x).rcp = s.rcp := rfl
@[simp] theorem State.setSdu_hpc (s : State) (x : Sdu) : (s.setSdu x).hpc = s.hpc := rfl
@[simp] theorem State.setSdu_pcc (s : State) (x : Sdu) : (s.setSdu x).pcc = s.pcc := rfl
@[simp] theorem State.setSdu_epm (s : State) (x : Sdu) : (s.setSdu x).epm = s.epm := rfl
@[simp] theorem State.setSdu_ilk (s : State) (x : Sdu) : (s.setSdu x).ilk = s.ilk := rfl
@[simp] theorem State.setSdu_drv (s : State) (x : Sdu) : (s.setSdu x).drv = s.drv := rfl
@[simp] theorem State.setSdu_lnk (s : State) (x : Sdu) : (s.setSdu x).lnk = s.lnk := rfl
@[simp] theorem State.setSdu_pins (s : State) (x : Sdu) : (s.setSdu x).pins = s.pins := rfl
@[simp] theorem State.setSdu_now (s : State) (x : Sdu) : (s.setSdu x).now = s.now := rfl
@[simp] theorem State.setSdu_freeCount (s : State) (x : Sdu) : (s.setSdu x).freeCount = s.freeCount := rfl
@[simp] theorem State.setSdu_pending (s : State) (x : Sdu) : (s.setSdu x).pending = s.pending := rfl
@[simp] theorem State.setSeq_cfg (s : State) (x : Seq) : (s.setSeq x).cfg = s.cfg := rfl
@[simp] theorem State.setSeq_peer (s : State) (x : Seq) : (s.setSeq x).peer = s.peer := rfl
@[simp] theorem State.setSeq_shr (s : State) (x : Seq) : (s.setSeq x).shr = s.shr := rfl
@[simp] theorem State.setSeq_sdu (s : State) (x : Seq) : (s.setSeq x).sdu = s.sdu := rfl
@[simp] theorem State.setSeq_seq (s : State) (x : Seq) : (s.setSeq x).seq = x := rfl
@[simp] theorem State.setSeq_rcp (s : State) (x : Seq) : (s.setSeq x).rcp = s.rcp := rfl
@[simp] theorem State.setSeq_hpc (s : State) (x : Seq) : (s.setSeq x).hpc = s.hpc := rfl
@[simp] theorem State.setSeq_pcc (s : State) (x : Seq) : (s.setSeq x).pcc = s.pcc := rfl
@[simp] theorem State.setSeq_epm (s : State) (x : Seq) : (s.setSeq x).epm = s.epm := rfl
@[simp] theorem State.setSeq_ilk (s : State) (x : Seq) : (s.setSeq x).ilk = s.ilk := rfl
@[simp] theorem State.setSeq_drv (s : State) (x : Seq) : (s.setSeq x).drv = s.drv := rfl
@[simp] theorem State.setSeq_lnk (s : State) (x : Seq) : (s.setSeq x).lnk = s.lnk := rfl
@[simp] theorem State.setSeq_pins (s : State) (x : Seq) : (s.setSeq x).pins = s.pins := rfl
@[simp] theorem State.setSeq_now (s : State) (x : Seq) : (s.setSeq x).now = s.now := rfl
@[simp] theorem State.setSeq_freeCount (s : State) (x : Seq) : (s.setSeq x).freeCount = s.freeCount := rfl
@[simp] theorem State.setSeq_pending (s : State) (x : Seq) : (s.setSeq x).pending = s.pending := rfl
@[simp] theorem State.setRcp_cfg (s : State) (x : Rcp) : (s.setRcp x).cfg = s.cfg := rfl
@[simp] theorem State.setRcp_peer (s : State) (x : Rcp) : (s.setRcp x).peer = s.peer := rfl
@[simp] theorem State.setRcp_shr (s : State) (x : Rcp) : (s.setRcp x).shr = s.shr := rfl
@[simp] theorem State.setRcp_sdu (s : State) (x : Rcp) : (s.setRcp x).sdu = s.sdu := rfl
@[simp] theorem State.setRcp_seq (s : State) (x : Rcp) : (s.setRcp x).seq = s.seq := rfl
@[simp] theorem State.setRcp_rcp (s : State) (x : Rcp) : (s.setRcp x).rcp = x := rfl
@[simp] theorem State.setRcp_hpc (s : State) (x : Rcp) : (s.setRcp x).hpc = s.hpc := rfl
@[simp] theorem State.setRcp_pcc (s : State) (x : Rcp) : (s.setRcp x).pcc = s.pcc := rfl
@[simp] theorem State.setRcp_epm (s : State) (x : Rcp) : (s.setRcp x).epm = s.epm := rfl
@[simp] theorem State.setRcp_ilk (s : State) (x : Rcp) : (s.setRcp x).ilk = s.ilk := rfl
@[simp] theorem State.setRcp_drv (s : State) (x : Rcp) : (s.setRcp x).drv = s.drv := rfl
@[simp] theorem State.setRcp_lnk (s : State) (x : Rcp) : (s.setRcp x).lnk = s.lnk := rfl
@[simp] theorem State.setRcp_pins (s : State) (x : Rcp) : (s.setRcp x).pins = s.pins := rfl
@[simp] theorem State.setRcp_now (s : State) (x : Rcp) : (s.setRcp x).now = s.now := rfl
@[simp] theorem State.setRcp_freeCount (s : State) (x : Rcp) : (s.setRcp x).freeCount = s.freeCount := rfl
@[simp] theorem State.setRcp_pending (s : State) (x : Rcp) : (s.setRcp x).pending = s.pending := rfl
@[simp] theorem State.setHpc_cfg (s : State) (x : Hpc) : (s.setHpc x).cfg = s.cfg := rfl
@[simp] theorem State.setHpc_peer (s : State) (x : Hpc) : (s.setHpc x).peer = s.peer := rfl
@[simp] theorem State.setHpc_shr (s : State) (x : Hpc) : (s.setHpc x).shr = s.shr := rfl
@[simp] theorem State.setHpc_sdu (s : State) (x : Hpc) : (s.setHpc x).sdu = s.sdu := rfl
@[simp] theorem State.setHpc_seq (s : State) (x : Hpc) : (s.setHpc x).seq = s.seq := rfl
@[simp] theorem State.setHpc_rcp (s : State) (x : Hpc) : (s.setHpc x).rcp = s.rcp := rfl
@[simp] theorem State.setHpc_hpc (s : State) (x : Hpc) : (s.setHpc x).hpc = x := rfl
@[simp] theorem State.setHpc_pcc (s : State) (x : Hpc) : (s.setHpc x).pcc = s.pcc := rfl
@[simp] theorem State.setHpc_epm (s : State) (x : Hpc) : (s.setHpc x).epm = s.epm := rfl
@[simp] theorem State.setHpc_ilk (s : State) (x : Hpc) : (s.setHpc x).ilk = s.ilk := rfl
@[simp] theorem State.setHpc_drv (s : State) (x : Hpc) : (s.setHpc x).drv = s.drv := rfl
@[simp] theorem State.setHpc_lnk (s : State) (x : Hpc) : (s.setHpc x).lnk = s.lnk := rfl
@[simp] theorem State.setHpc_pins (s : State) (x : Hpc) : (s.setHpc x).pins = s.pins := rfl
@[simp] theorem State.setHpc_now (s : State) (x : Hpc) : (s.setHpc x).now = s.now := rfl
@[simp] theorem State.setHpc_freeCount (s : State) (x : Hpc) : (s.setHpc x).freeCount = s.freeCount := rfl
@[simp] theorem State.setHpc_pending (s : State) (x : Hpc) : (s.setHpc x).pending = s.pending := rfl
@[simp] theorem State.setPcc_cfg (s : State) (x : Pcc) : (s.setPcc x).cfg = s.cfg := rfl
@[simp] theorem State.setPcc_peer (s : State) (x : Pcc) : (s.setPcc x).peer = s.peer := rfl
@[simp] theorem State.setPcc_shr (s : State) (x : Pcc) : (s.setPcc x).shr = s.shr := rfl
@[simp] theorem State.setPcc_sdu (s : State) (x : Pcc) : (s.setPcc x).sdu = s.sdu := rfl
@[simp] theorem State.setPcc_seq (s : State) (x : Pcc) : (s.setPcc x).seq = s.seq := rfl
@[simp] theorem State.setPcc_rcp (s : State) (x : Pcc) : (s.setPcc x).rcp = s.rcp := rfl
@[simp] theorem State.setPcc_hpc (s : State) (x : Pcc) : (s.setPcc x).hpc = s.hpc := rfl
@[simp] theorem State.setPcc_pcc (s : State) (x : Pcc) : (s.setPcc x).pcc = x := rfl
@[simp] theorem State.setPcc_epm (s : State) (x : Pcc) : (s.setPcc x).epm = s.epm := rfl
@[simp] theorem State.setPcc_ilk (s : State) (x : Pcc) : (s.setPcc x).ilk = s.ilk := rfl
@[simp] theorem State.setPcc_drv (s : State) (x : Pcc) : (s.setPcc x).drv = s.drv := rfl
@[simp] theorem State.setPcc_lnk (s : State) (x : Pcc) : (s.setPcc x).lnk = s.lnk := rfl
@[simp] theorem State.setPcc_pins (s : State) (x : Pcc) : (s.setPcc x).pins = s.pins := rfl
@[simp] theorem State.setPcc_now (s : State) (x : Pcc) : (s.setPcc x).now = s.now := rfl
@[simp] theorem State.setPcc_freeCount (s : State) (x : Pcc) : (s.setPcc x).freeCount = s.freeCount := rfl
@[simp] theorem State.setPcc_pending (s : State) (x : Pcc) : (s.setPcc x).pending = s.pending := rfl
@[simp] theorem State.setEpm_cfg (s : State) (x : Epm) : (s.setEpm x).cfg = s.cfg := rfl
@[simp] theorem State.setEpm_peer (s : State) (x : Epm) : (s.setEpm x).peer = s.peer := rfl
@[simp] theorem State.setEpm_shr (s : State) (x : Epm) : (s.setEpm x).shr = s.shr := rfl
@[simp] theorem State.setEpm_sdu (s : State) (x : Epm) : (s.setEpm x).sdu = s.sdu := rfl
@[simp] theorem State.setEpm_seq (s : State) (x : Epm) : (s.setEpm x).seq = s.seq := rfl
@[simp] theorem State.setEpm_rcp (s : State) (x : Epm) : (s.setEpm x).rcp = s.rcp := rfl
@[simp] theorem State.setEpm_hpc (s : State) (x : Epm) : (s.setEpm x).hpc = s.hpc := rfl
@[simp] theorem State.setEpm_pcc (s : State) (x : Epm) : (s.setEpm x).pcc = s.pcc := rfl
@[simp] theorem State.setEpm_epm (s : State) (x : Epm) : (s.setEpm x).epm = x := rfl
@[simp] theorem State.setEpm_ilk (s : State) (x : Epm) : (s.setEpm x).ilk = s.ilk := rfl
@[simp] theorem State.setEpm_drv (s : State) (x : Epm) : (s.setEpm x).drv = s.drv := rfl
@[simp] theorem State.setEpm_lnk (s : State) (x : Epm) : (s.setEpm x).lnk = s.lnk := rfl
@[simp] theorem State.setEpm_pins (s : State) (x : Epm) : (s.setEpm x).pins = s.pins := rfl
@[simp] theorem State.setEpm_now (s : State) (x : Epm) : (s.setEpm x).now = s.now := rfl
@[simp] theorem State.setEpm_freeCount (s : State) (x : Epm) : (s.setEpm x).freeCount = s.freeCount := rfl
@[simp] theorem State.setEpm_pending (s : State) (x : Epm) : (s.setEpm x).pending = s.pending := rfl
@[simp] theorem State.setIlk_cfg (s : State) (x : Ilk) : (s.setIlk x).cfg = s.cfg := rfl
@[simp] theorem State.setIlk_peer (s : State) (x : Ilk) : (s.setIlk x).peer = s.peer := rfl
@[simp] theorem State.setIlk_shr (s : State) (x : Ilk) : (s.setIlk x).shr = s.shr := rfl
@[simp] theorem State.setIlk_sdu (s : State) (x : Ilk) : (s.setIlk x).sdu = s.sdu := rfl
@[simp] theorem State.setIlk_seq (s : State) (x : Ilk) : (s.setIlk x).seq = s.seq := rfl
@[simp] theorem State.setIlk_rcp (s : State) (x : Ilk) : (s.setIlk x).rcp = s.rcp := rfl
@[simp] theorem State.setIlk_hpc (s : State) (x : Ilk) : (s.setIlk x).hpc = s.hpc := rfl
@[simp] theorem State.setIlk_pcc (s : State) (x : Ilk) : (s.setIlk x).pcc = s.pcc := rfl
@[simp] theorem State.setIlk_epm (s : State) (x : Ilk) : (s.setIlk x).epm = s.epm := rfl
@[simp] theorem State.setIlk_ilk (s : State) (x : Ilk) : (s.setIlk x).ilk = x := rfl
@[simp] theorem State.setIlk_drv (s : State) (x : Ilk) : (s.setIlk x).drv = s.drv := rfl
@[simp] theorem State.setIlk_lnk (s : State) (x : Ilk) : (s.setIlk x).lnk = s.lnk := rfl
@[simp] theorem State.setIlk_pins (s : State) (x : Ilk) : (s.setIlk x).pins = s.pins := rfl
@[simp] theorem State.setIlk_now (s : State) (x : Ilk) : (s.setIlk x).now = s.now := rfl
@[simp] theorem State.setIlk_freeCount (s : State) (x : Ilk) : (s.setIlk x).freeCount = s.freeCount := rfl
@[simp] theorem State.setIlk_pending (s : State) (x : Ilk) : (s.setIlk x).pending = s.pending := rfl
@[simp] theorem State.setDrv_cfg (s : State) (x : Drv) : (s.setDrv x).cfg = s.cfg := rfl
@[simp] theorem State.setDrv_peer (s : State) (x : Drv) : (s.setDrv x).peer = s.peer := rfl
@[simp] theorem State.setDrv_shr (s : State) (x : Drv) : (s.setDrv x).shr = s.shr := rfl
@[simp] theorem State.setDrv_sdu (s : State) (x : Drv) : (s.setDrv x).sdu = s.sdu := rfl
@[simp] theorem State.setDrv_seq (s : State) (x : Drv) : (s.setDrv x).seq = s.seq := rfl
@[simp] theorem State.setDrv_rcp (s : State) (x : Drv) : (s.setDrv x).rcp = s.rcp := rfl
@[simp] theorem State.setDrv_hpc (s : State) (x : Drv) : (s.setDrv x).hpc = s.hpc := rfl
@[simp] theorem State.setDrv_pcc (s : State) (x : Drv) : (s.setDrv x).pcc = s.pcc := rfl
@[simp] theorem State.setDrv_epm (s : State) (x : Drv) : (s.setDrv x).epm = s.epm := rfl
@[simp] theorem State.setDrv_ilk (s : State) (x : Drv) : (s.setDrv x).ilk = s.ilk := rfl
@[simp] theorem State.setDrv_drv (s : State) (x : Drv) : (s.setDrv x).drv = x := rfl
@[simp] theorem State.setDrv_lnk (s : State) (x : Drv) : (s.setDrv x).lnk = s.lnk := rfl
@[simp] theorem State.setDrv_pins (s : State) (x : Drv) : (s.setDrv x).pins = s.pins := rfl
@[simp] theorem State.setDrv_now (s : State) (x : Drv) : (s.setDrv x).now = s.now := rfl
@[simp] theorem State.setDrv_freeCount (s : State) (x : Drv) : (s.setDrv x).freeCount = s.freeCount := rfl
@[simp] theorem State.setDrv_pending (s : State) (x : Drv) : (s.setDrv x).pending = s.pending := rfl
@[simp] theorem State.setLnk_cfg (s : State) (x : Lnk) : (s.setLnk x).cfg = s.cfg := rfl
@[simp] theorem State.setLnk_peer (s : State) (x : Lnk) : (s.setLnk x).peer = s.peer := rfl
@[simp] theorem State.setLnk_shr (s : State) (x : Lnk) : (s.setLnk x).shr = s.shr := rfl
@[simp] theorem State.setLnk_sdu (s : State) (x : Lnk) : (s.setLnk x).sdu = s.sdu := rfl
@[simp] theorem State.setLnk_seq (s : State) (x : Lnk) : (s.setLnk x).seq = s.seq := rfl
@[simp] theorem State.setLnk_rcp (s : State) (x : Lnk) : (s.setLnk x).rcp = s.rcp := rfl
@[simp] theorem State.setLnk_hpc (s : State) (x : Lnk) : (s.setLnk x).hpc = s.hpc := rfl
@[simp] theorem State.setLnk_pcc (s : State) (x : Lnk) : (s.setLnk x).pcc = s.pcc := rfl
@[simp] theorem State.setLnk_epm (s : State) (x : Lnk) : (s.setLnk x).epm = s.epm := rfl
@[simp] theorem State.setLnk_ilk (s : State) (x : Lnk) : (s.setLnk x).ilk = s.ilk := rfl
@[simp] theorem State.setLnk_drv (s : State) (x : Lnk) : (s.setLnk x).drv = s.drv := rfl
@[simp] theorem State.setLnk_lnk (s : State) (x : Lnk) : (s.setLnk x).lnk = x := rfl
@[simp] theorem State.setLnk_pins (s : State) (x : Lnk) : (s.setLnk x).pins = s.pins := rfl
@[simp] theorem State.setLnk_now (s : State) (x : Lnk) : (s.setLnk x).now = s.now := rfl
@[simp] theorem State.setLnk_freeCount (s : State) (x : Lnk) : (s.setLnk x).freeCount = s.freeCount := rfl
@[simp] theorem State.setLnk_pending (s : State) (x : Lnk) : (s.setLnk x).pending = s.pending := rfl
@[simp] theorem State.setPins_cfg (s : State) (x : Pins) : (s.setPins x).cfg = s.cfg := rfl
@[simp] theorem State.setPins_peer (s : State) (x : Pins) : (s.setPins x).peer = s.peer := rfl
@[simp] theorem State.setPins_shr (s : State) (x : Pins) : (s.setPins x).shr = s.shr := rfl
@[simp] theorem State.setPins_sdu (s : State) (x : Pins) : (s.setPins x).sdu = s.sdu := rfl
@[simp] theorem State.setPins_seq (s : State) (x : Pins) : (s.setPins x).seq = s.seq := rfl
@[simp] theorem State.setPins_rcp (s : State) (x : Pins) : (s.setPins x).rcp = s.rcp := rfl
@[simp] theorem State.setPins_hpc (s : State) (x : Pins) : (s.setPins x).hpc = s.hpc := rfl
@[simp] theorem State.setPins_pcc (s : State) (x : Pins) : (s.setPins x).pcc = s.pcc := rfl
@[simp] theorem State.setPins_epm (s : State) (x : Pins) : (s.setPins x).epm = s.epm := rfl
@[simp] theorem State.setPins_ilk (s : State) (x : Pins) : (s.setPins x).ilk = s.ilk := rfl
@[simp] theorem State.setPins_drv (s : State) (x : Pins) : (s.setPins x).drv = s.drv := rfl
@[simp] theorem State.setPins_lnk (s : State) (x : Pins) : (s.setPins x).lnk = s.lnk := rfl
@[simp] theorem State.setPins_pins (s : State) (x : Pins) : (s.setPins x).pins = x := rfl
@[simp] theorem State.setPins_now (s : State) (x : Pins) : (s.setPins x).now = s.now := rfl
@[simp] theorem State.setPins_freeCount (s : State) (x : Pins) : (s.setPins x).freeCount = s.freeCount := rfl
@[simp] theorem State.setPins_pending (s : State) (x : Pins) : (s.setPins x).pending = s.pending := rfl
@[simp] theorem State.setNow_cfg (s : State) (x : Nat) : (s.setNow x).cfg = s.cfg := rfl
@[simp] theorem State.setNow_peer (s : State) (x : Nat) : (s.setNow x).peer = s.peer := rfl
@[simp] theorem State.setNow_shr (s : State) (x : Nat) : (s.setNow x).shr = s.shr := rfl
@[simp] theorem State.setNow_sdu (s : State) (x : Nat) : (s.setNow x).sdu = s.sdu := rfl
@[simp] theorem State.setNow_seq (s : State) (x : Nat) : (s.setNow x).seq = s.seq := rfl
@[simp] theorem State.setNow_rcp (s : State) (x : Nat) : (s.setNow x).rcp = s.rcp := rfl
@[simp] theorem State.setNow_hpc (s : State) (x : Nat) : (s.setNow x).hpc = s.hpc := rfl
@[simp] theorem State.setNow_pcc (s : State) (x : Nat) : (s.setNow x).pcc = s.pcc := rfl
@[simp] theorem State.setNow_epm (s : State) (x : Nat) : (s.setNow x).epm = s.epm := rfl
@[simp] theorem State.setNow_ilk (s : State) (x : Nat) : (s.setNow x).ilk = s.ilk := rfl
@[simp] theorem State.setNow_drv (s : State) (x : Nat) : (s.setNow x).drv = s.drv := rfl
@[simp] theorem State.setNow_lnk (s : State) (x : Nat) : (s.setNow x).lnk = s.lnk := rfl
@[simp] theorem State.setNow_pins (s : State) (x : Nat) : (s.setNow x).pins = s.pins := rfl
@[simp] theorem State.setNow_now (s : State) (x : Nat) : (s.setNow x).now = x := rfl
@[simp] theorem State.setNow_freeCount (s : State) (x : Nat) : (s.setNow x).freeCount = s.freeCount := rfl
@[simp] theorem State.setNow_pending (s : State) (x : Nat) : (s.setNow x).pending = s.pending := rfl
@[simp] theorem State.setFreeCount_cfg (s : State) (x : Nat) : (s.setFreeCount x).cfg = s.cfg := rfl
@[simp] theorem State.setFreeCount_peer (s : State) (x : Nat) : (s.setFreeCount x).peer = s.peer := rfl
@[simp] theorem State.setFreeCount_shr (s : State) (x : Nat) : (s.setFreeCount x).shr = s.shr := rfl
@[simp] theorem State.setFreeCount_sdu (s : State) (x : Nat) : (s.setFreeCount x).sdu = s.sdu := rfl
@[simp] theorem State.setFreeCount_seq (s : State) (x : Nat) : (s.setFreeCount x).seq = s.seq := rfl
@[simp] theorem State.setFreeCount_rcp (s : State) (x : Nat) : (s.setFreeCount x).rcp = s.rcp := rfl
@[simp] theorem State.setFreeCount_hpc (s : State) (x : Nat) : (s.setFreeCount x).hpc = s.hpc := rfl
@[simp] theorem State.setFreeCount_pcc (s : State) (x : Nat) : (s.setFreeCount x).pcc = s.pcc := rfl
@[simp] theorem State.setFreeCount_epm (s : State) (x : Nat) : (s.setFreeCount x).epm = s.epm := rfl
@[simp] theorem State.setFreeCount_ilk (s : State) (x : Nat) : (s.setFreeCount x).ilk = s.ilk := rfl
@[simp] theorem State.setFreeCount_drv (s : State) (x : Nat) : (s.setFreeCount x).drv = s.drv := rfl
@[simp] theorem State.setFreeCount_lnk (s : State) (x : Nat) : (s.setFreeCount x).lnk = s.lnk := rfl
@[simp] theorem State.setFreeCount_pins (s : State) (x : Nat) : (s.setFreeCount x).pins = s.pins := rfl
@[simp] theorem State.setFreeCount_now (s : State) (x : Nat) : (s.setFreeCount x).now = s.now := rfl
@[simp] theorem State.setFreeCount_freeCount (s : State) (x : Nat) : (s.setFreeCount x).freeCount = x := rfl
@[simp] theorem State.setFreeCount_pending (s : State) (x : Nat) : (s.setFreeCount x).pending = s.pending := rfl
@[simp] theorem State.setPending_cfg (s : State) (x : List Instr) : (s.setPending x).cfg = s.cfg := rfl
@[simp] theorem State.setPending_peer (s : State) (x : List Instr) : (s.setPending x).peer = s.peer := rfl
@[simp] theorem State.setPending_shr (s : State) (x : List Instr) : (s.setPending x).shr = s.shr := rfl
@[simp] theorem State.setPending_sdu (s : State) (x : List Instr) : (s.setPending x).sdu = s.sdu := rfl
@[simp] theorem State.setPending_seq (s : State) (x : List Instr) : (s.setPending x).seq = s.seq := rfl
@[simp] theorem State.setPending_rcp (s : State) (x : List Instr) : (s.setPending x).rcp = s.rcp := rfl
@[simp] theorem State.setPending_hpc (s : State) (x : List Instr) : (s.setPending x).hpc = s.hpc := rfl
@[simp] theorem State.setPending_pcc (s : State) (x : List Instr) : (s.setPending x).pcc = s.pcc := rfl
@[simp] theorem State.setPending_epm (s : State) (x : List Instr) : (s.setPending x).epm = s.epm := rfl
@[simp] theorem State.setPending_ilk (s : State) (x : List Instr) : (s.setPending x).ilk = s.ilk := rfl
@[simp] theorem State.setPending_drv (s : State) (x : List Instr) : (s.setPending x).drv = s.drv := rfl
@[simp] theorem State.setPending_lnk (s : State) (x : List Instr) : (s.setPending x).lnk = s.lnk := rfl
@[simp] theorem State.setPending_pins (s : State) (x : List Instr) : (s.setPending x).pins = s.pins := rfl
@[simp] theorem State.setPending_now (s : State) (x : List Instr) : (s.setPending x).now = s.now := rfl
@[simp] theorem State.setPending_freeCount (s : State) (x : List Instr) : (s.setPending x).freeCount = s.freeCount := rfl
@[simp] theorem State.setPending_pending (s : State) (x : List Instr) : (s.setPending x).pending = x := rfl

@[simp] theorem PerFeed.get_set_self {α : Type} (v : PerFeed α) (i : Feed) (x : α) : (v.set i x).get i = x := by
  cases i <;> rfl

theorem PerFeed.get_set_of_ne {α : Type} (v : PerFeed α) {i j : Feed} (x : α) (h : i ≠ j) : (v.set i x).get j = v.get j := by
  cases i <;> cases j <;> first | rfl | exact absurd rfl h

@[simp] theorem PerFeed.get_map {α β : Type} (f : α → β) (v : PerFeed α) (i : Feed) : (v.map f).get i = f (v.get i) := by
  cases i <;> rfl

@[simp] theorem PerFeed.get_of {α : Type} (f : Feed → α) (i : Feed) : (PerFeed.of f).get i = f i := by
  cases i <;> rfl

@[simp] theorem PerFeed.get_all {α : Type} (x : α) (i : Feed) : (PerFeed.all x).get i = x := by
  cases i <;> rfl

@[simp] theorem PerHead.get_set_self {α : Type} (v : PerHead α) (i : HeadCh) (x : α) : (v.set i x).get i = x := by
  cases i <;> rfl

theorem PerHead.get_set_of_ne {α : Type} (v : PerHead α) {i j : HeadCh} (x : α) (h : i ≠ j) : (v.set i x).get j = v.get j := by
  cases i <;> cases j <;> first | rfl | exact absurd rfl h

@[simp] theorem PerHead.get_map {α β : Type} (f : α → β) (v : PerHead α) (i : HeadCh) : (v.map f).get i = f (v.get i) := by
  cases i <;> rfl

@[simp] theorem PerHead.get_of {α : Type} (f : HeadCh → α) (i : HeadCh) : (PerHead.of f).get i = f i := by
  cases i <;> rfl

@[simp] theorem PerHead.get_all {α : Type} (x : α) (i : HeadCh) : (PerHead.all x).get i = x := by
  cases i <;> rfl

@[simp] theorem PerLine.get_set_self {α : Type} (v : PerLine α) (i : Line) (x : α) : (v.set i x).get i = x := by
  cases i <;> rfl

theorem PerLine.get_set_of_ne {α : Type} (v : PerLine α) {i j : Line} (x : α) (h : i ≠ j) : (v.set i x).get j = v.get j := by
  cases i <;> cases j <;> first | rfl | exact absurd rfl h

@[simp] theorem PerLine.get_map {α β : Type} (f : α → β) (v : PerLine α) (i : Line) : (v.map f).get i = f (v.get i) := by
  cases i <;> rfl

@[simp] theorem PerLine.get_of {α : Type} (f : Line → α) (i : Line) : (PerLine.of f).get i = f i := by
  cases i <;> rfl

@[simp] theorem PerLine.get_all {α : Type} (x : α) (i : Line) : (PerLine.all x).get i = x := by
  cases i <;> rfl

@[simp] theorem PerDrive.get_set_self {α : Type} (v : PerDrive α) (i : Drive) (x : α) : (v.set i x).get i = x := by
  cases i <;> rfl

theorem PerDrive.get_set_of_ne {α : Type} (v : PerDrive α) {i j : Drive} (x : α) (h : i ≠ j) : (v.set i x).get j = v.get j := by
  cases i <;> cases j <;> first | rfl | exact absurd rfl h

@[simp] theorem PerDrive.get_map {α β : Type} (f : α → β) (v : PerDrive α) (i : Drive) : (v.map f).get i = f (v.get i) := by
  cases i <;> rfl

@[simp] theorem PerDrive.get_of {α : Type} (f : Drive → α) (i : Drive) : (PerDrive.of f).get i = f i := by
  cases i <;> rfl

@[simp] theorem PerDrive.get_all {α : Type} (x : α) (i : Drive) : (PerDrive.all x).get i = x := by
  cases i <;> rfl

@[simp] theorem PerChannel.get_set_self {α : Type} (v : PerChannel α) (i : Channel) (x : α) : (v.set i x).get i = x := by
  cases i <;> rfl

theorem PerChannel.get_set_of_ne {α : Type} (v : PerChannel α) {i j : Channel} (x : α) (h : i ≠ j) : (v.set i x).get j = v.get j := by
  cases i <;> cases j <;> first | rfl | exact absurd rfl h

@[simp] theorem PerChannel.get_map {α β : Type} (f : α → β) (v : PerChannel α) (i : Channel) : (v.map f).get i = f (v.get i) := by
  cases i <;> rfl

@[simp] theorem PerChannel.get_of {α : Type} (f : Channel → α) (i : Channel) : (PerChannel.of f).get i = f i := by
  cases i <;> rfl

@[simp] theorem PerChannel.get_all {α : Type} (x : α) (i : Channel) : (PerChannel.all x).get i = x := by
  cases i <;> rfl

@[simp] theorem CauseSet.has_add_self (v : CauseSet) (c : Cause) : (v.add c).has c = true := by
  cases c <;> rfl

theorem CauseSet.has_add_of_ne (v : CauseSet) {c d : Cause} (h : c ≠ d) : (v.add c).has d = v.has d := by
  cases c <;> cases d <;> first | rfl | exact absurd rfl h

@[simp] theorem CauseSet.has_remove_self (v : CauseSet) (c : Cause) : (v.remove c).has c = false := by
  cases c <;> rfl

theorem CauseSet.has_remove_of_ne (v : CauseSet) {c d : Cause} (h : c ≠ d) : (v.remove c).has d = v.has d := by
  cases c <;> cases d <;> first | rfl | exact absurd rfl h

@[simp] theorem KindSet.has_add_self (v : KindSet) (c : FaultKind) : (v.add c).has c = true := by
  cases c <;> rfl

theorem KindSet.has_add_of_ne (v : KindSet) {c d : FaultKind} (h : c ≠ d) : (v.add c).has d = v.has d := by
  cases c <;> cases d <;> first | rfl | exact absurd rfl h

@[simp] theorem KindSet.has_remove_self (v : KindSet) (c : FaultKind) : (v.remove c).has c = false := by
  cases c <;> rfl

theorem KindSet.has_remove_of_ne (v : KindSet) {c d : FaultKind} (h : c ≠ d) : (v.remove c).has d = v.has d := by
  cases c <;> cases d <;> first | rfl | exact absurd rfl h

/-- A set of causes is empty exactly when it holds no cause. -/
theorem CauseSet.isEmpty_iff (v : CauseSet) : v.isEmpty = true ↔ ∀ c, v.has c = false := by
  constructor
  · intro h c
    simp only [CauseSet.isEmpty, Bool.not_eq_true', Bool.or_eq_false_iff] at h
    cases c <;> simp [CauseSet.has, h]
  · intro h
    have := h .ordered; have := h .interlock; have := h .stop; have := h .mode
    have := h .share; have := h .supply; have := h .conditioner; have := h .endpoint
    simp_all [CauseSet.isEmpty, CauseSet.has]

/-- An event that is due acts. -/
@[simp] theorem whenDue_true (s : State) (f : State → State) : whenDue true s f = f s := rfl

/-- An event that is not due changes nothing. -/
@[simp] theorem whenDue_false (s : State) (f : State → State) : whenDue false s f = s := rfl

end Sys2Proof.Machine
end

