-- ==== Sys2Proof/Laws/Frames.lean ====
section
/-! SUPPORT. Frames: what each operation of the machine leaves as it was, as rewriting rules. -/

namespace Sys2Proof.Machine

open Sys2Proof

@[simp] theorem Drv.ite_tachLost (c : Prop) [Decidable c] (x y : Drv) :
    (if c then x else y).tachLost = if c then x.tachLost else y.tachLost := apply_ite Drv.tachLost c x y

@[simp] theorem Epm.ite_settings (c : Prop) [Decidable c] (x y : Epm) :
    (if c then x else y).settings = if c then x.settings else y.settings := apply_ite Epm.settings c x y

@[simp] theorem Epm.ite_window (c : Prop) [Decidable c] (x y : Epm) :
    (if c then x else y).window = if c then x.window else y.window := apply_ite Epm.window c x y

@[simp] theorem Hpc.ite_armed (c : Prop) [Decidable c] (x y : Hpc) :
    (if c then x else y).armed = if c then x.armed else y.armed := apply_ite Hpc.armed c x y

@[simp] theorem Hpc.ite_stepTargets (c : Prop) [Decidable c] (x y : Hpc) :
    (if c then x else y).stepTargets = if c then x.stepTargets else y.stepTargets := apply_ite Hpc.stepTargets c x y

@[simp] theorem Hpc.ite_warn (c : Prop) [Decidable c] (x y : Hpc) :
    (if c then x else y).warn = if c then x.warn else y.warn := apply_ite Hpc.warn c x y

@[simp] theorem Ilk.ite_decoded (c : Prop) [Decidable c] (x y : Ilk) :
    (if c then x else y).decoded = if c then x.decoded else y.decoded := apply_ite Ilk.decoded c x y

@[simp] theorem Ilk.ite_lines (c : Prop) [Decidable c] (x y : Ilk) :
    (if c then x else y).lines = if c then x.lines else y.lines := apply_ite Ilk.lines c x y

@[simp] theorem Ilk.ite_mode (c : Prop) [Decidable c] (x y : Ilk) :
    (if c then x else y).mode = if c then x.mode else y.mode := apply_ite Ilk.mode c x y

@[simp] theorem Lnk.ite_answers (c : Prop) [Decidable c] (x y : Lnk) :
    (if c then x else y).answers = if c then x.answers else y.answers := apply_ite Lnk.answers c x y

@[simp] theorem Lnk.ite_carrier (c : Prop) [Decidable c] (x y : Lnk) :
    (if c then x else y).carrier = if c then x.carrier else y.carrier := apply_ite Lnk.carrier c x y

@[simp] theorem Lnk.ite_checkErrorSeen (c : Prop) [Decidable c] (x y : Lnk) :
    (if c then x else y).checkErrorSeen = if c then x.checkErrorSeen else y.checkErrorSeen := apply_ite Lnk.checkErrorSeen c x y

@[simp] theorem Lnk.ite_collisionSeen (c : Prop) [Decidable c] (x y : Lnk) :
    (if c then x else y).collisionSeen = if c then x.collisionSeen else y.collisionSeen := apply_ite Lnk.collisionSeen c x y

@[simp] theorem Lnk.ite_demandSlot (c : Prop) [Decidable c] (x y : Lnk) :
    (if c then x else y).demandSlot = if c then x.demandSlot else y.demandSlot := apply_ite Lnk.demandSlot c x y

@[simp] theorem Lnk.ite_dupFound (c : Prop) [Decidable c] (x y : Lnk) :
    (if c then x else y).dupFound = if c then x.dupFound else y.dupFound := apply_ite Lnk.dupFound c x y

@[simp] theorem Lnk.ite_lost (c : Prop) [Decidable c] (x y : Lnk) :
    (if c then x else y).lost = if c then x.lost else y.lost := apply_ite Lnk.lost c x y

@[simp] theorem Lnk.ite_malformedSeen (c : Prop) [Decidable c] (x y : Lnk) :
    (if c then x else y).malformedSeen = if c then x.malformedSeen else y.malformedSeen := apply_ite Lnk.malformedSeen c x y

@[simp] theorem Lnk.ite_notices (c : Prop) [Decidable c] (x y : Lnk) :
    (if c then x else y).notices = if c then x.notices else y.notices := apply_ite Lnk.notices c x y

@[simp] theorem Lnk.ite_quiet (c : Prop) [Decidable c] (x y : Lnk) :
    (if c then x else y).quiet = if c then x.quiet else y.quiet := apply_ite Lnk.quiet c x y

@[simp] theorem Lnk.ite_received (c : Prop) [Decidable c] (x y : Lnk) :
    (if c then x else y).received = if c then x.received else y.received := apply_ite Lnk.received c x y

@[simp] theorem Lnk.ite_sending (c : Prop) [Decidable c] (x y : Lnk) :
    (if c then x else y).sending = if c then x.sending else y.sending := apply_ite Lnk.sending c x y

@[simp] theorem Lnk.ite_stopSlot (c : Prop) [Decidable c] (x y : Lnk) :
    (if c then x else y).stopSlot = if c then x.stopSlot else y.stopSlot := apply_ite Lnk.stopSlot c x y

@[simp] theorem Pcc.ite_arm (c : Prop) [Decidable c] (x y : Pcc) :
    (if c then x else y).arm = if c then x.arm else y.arm := apply_ite Pcc.arm c x y

@[simp] theorem Pcc.ite_condLost (c : Prop) [Decidable c] (x y : Pcc) :
    (if c then x else y).condLost = if c then x.condLost else y.condLost := apply_ite Pcc.condLost c x y

@[simp] theorem Pcc.ite_diskLife (c : Prop) [Decidable c] (x y : Pcc) :
    (if c then x else y).diskLife = if c then x.diskLife else y.diskLife := apply_ite Pcc.diskLife c x y

@[simp] theorem Pcc.ite_diskRemainder (c : Prop) [Decidable c] (x y : Pcc) :
    (if c then x else y).diskRemainder = if c then x.diskRemainder else y.diskRemainder := apply_ite Pcc.diskRemainder c x y

@[simp] theorem Pcc.ite_diskWarned (c : Prop) [Decidable c] (x y : Pcc) :
    (if c then x else y).diskWarned = if c then x.diskWarned else y.diskWarned := apply_ite Pcc.diskWarned c x y

@[simp] theorem Pcc.ite_homeFound (c : Prop) [Decidable c] (x y : Pcc) :
    (if c then x else y).homeFound = if c then x.homeFound else y.homeFound := apply_ite Pcc.homeFound c x y

@[simp] theorem Pcc.ite_padLife (c : Prop) [Decidable c] (x y : Pcc) :
    (if c then x else y).padLife = if c then x.padLife else y.padLife := apply_ite Pcc.padLife c x y

@[simp] theorem Pcc.ite_padRemainder (c : Prop) [Decidable c] (x y : Pcc) :
    (if c then x else y).padRemainder = if c then x.padRemainder else y.padRemainder := apply_ite Pcc.padRemainder c x y

@[simp] theorem Pcc.ite_padWarned (c : Prop) [Decidable c] (x y : Pcc) :
    (if c then x else y).padWarned = if c then x.padWarned else y.padWarned := apply_ite Pcc.padWarned c x y

@[simp] theorem Pcc.ite_radius (c : Prop) [Decidable c] (x y : Pcc) :
    (if c then x else y).radius = if c then x.radius else y.radius := apply_ite Pcc.radius c x y

@[simp] theorem Pcc.ite_resume (c : Prop) [Decidable c] (x y : Pcc) :
    (if c then x else y).resume = if c then x.resume else y.resume := apply_ite Pcc.resume c x y

@[simp] theorem Pcc.ite_search (c : Prop) [Decidable c] (x y : Pcc) :
    (if c then x else y).search = if c then x.search else y.search := apply_ite Pcc.search c x y

@[simp] theorem Pcc.ite_withdrawn (c : Prop) [Decidable c] (x y : Pcc) :
    (if c then x else y).withdrawn = if c then x.withdrawn else y.withdrawn := apply_ite Pcc.withdrawn c x y

@[simp] theorem Peer.ite_isolated (c : Prop) [Decidable c] (x y : Peer) :
    (if c then x else y).isolated = if c then x.isolated else y.isolated := apply_ite Peer.isolated c x y

@[simp] theorem Peer.ite_lowFeeds (c : Prop) [Decidable c] (x y : Peer) :
    (if c then x else y).lowFeeds = if c then x.lowFeeds else y.lowFeeds := apply_ite Peer.lowFeeds c x y

@[simp] theorem Peer.ite_own (c : Prop) [Decidable c] (x y : Peer) :
    (if c then x else y).own = if c then x.own else y.own := apply_ite Peer.own c x y

@[simp] theorem Peer.ite_quiet (c : Prop) [Decidable c] (x y : Peer) :
    (if c then x else y).quiet = if c then x.quiet else y.quiet := apply_ite Peer.quiet c x y

@[simp] theorem Peer.ite_refresh (c : Prop) [Decidable c] (x y : Peer) :
    (if c then x else y).refresh = if c then x.refresh else y.refresh := apply_ite Peer.refresh c x y

@[simp] theorem Peer.ite_table (c : Prop) [Decidable c] (x y : Peer) :
    (if c then x else y).table = if c then x.table else y.table := apply_ite Peer.table c x y

@[simp] theorem Rcp.ite_inProgress (c : Prop) [Decidable c] (x y : Rcp) :
    (if c then x else y).inProgress = if c then x.inProgress else y.inProgress := apply_ite Rcp.inProgress c x y

@[simp] theorem Rcp.ite_lock (c : Prop) [Decidable c] (x y : Rcp) :
    (if c then x else y).lock = if c then x.lock else y.lock := apply_ite Rcp.lock c x y

@[simp] theorem Rcp.ite_op (c : Prop) [Decidable c] (x y : Rcp) :
    (if c then x else y).op = if c then x.op else y.op := apply_ite Rcp.op c x y

@[simp] theorem Rcp.ite_profiles (c : Prop) [Decidable c] (x y : Rcp) :
    (if c then x else y).profiles = if c then x.profiles else y.profiles := apply_ite Rcp.profiles c x y

@[simp] theorem Rcp.ite_slots (c : Prop) [Decidable c] (x y : Rcp) :
    (if c then x else y).slots = if c then x.slots else y.slots := apply_ite Rcp.slots c x y

@[simp] theorem Sdu.ite_blend (c : Prop) [Decidable c] (x y : Sdu) :
    (if c then x else y).blend = if c then x.blend else y.blend := apply_ite Sdu.blend c x y

@[simp] theorem Sdu.ite_ch (c : Prop) [Decidable c] (x y : Sdu) :
    (if c then x else y).ch = if c then x.ch else y.ch := apply_ite Sdu.ch c x y

@[simp] theorem Sdu.ite_di (c : Prop) [Decidable c] (x y : Sdu) :
    (if c then x else y).di = if c then x.di else y.di := apply_ite Sdu.di c x y

@[simp] theorem Sdu.ite_diVolume (c : Prop) [Decidable c] (x y : Sdu) :
    (if c then x else y).diVolume = if c then x.diVolume else y.diVolume := apply_ite Sdu.diVolume c x y

@[simp] theorem Sdu.ite_dose (c : Prop) [Decidable c] (x y : Sdu) :
    (if c then x else y).dose = if c then x.dose else y.dose := apply_ite Sdu.dose c x y

@[simp] theorem Sdu.ite_mismatch (c : Prop) [Decidable c] (x y : Sdu) :
    (if c then x else y).mismatch = if c then x.mismatch else y.mismatch := apply_ite Sdu.mismatch c x y

@[simp] theorem Sdu.ite_persist (c : Prop) [Decidable c] (x y : Sdu) :
    (if c then x else y).persist = if c then x.persist else y.persist := apply_ite Sdu.persist c x y

@[simp] theorem Sdu.ite_rinseDone (c : Prop) [Decidable c] (x y : Sdu) :
    (if c then x else y).rinseDone = if c then x.rinseDone else y.rinseDone := apply_ite Sdu.rinseDone c x y

@[simp] theorem Sdu.ite_share (c : Prop) [Decidable c] (x y : Sdu) :
    (if c then x else y).share = if c then x.share else y.share := apply_ite Sdu.share c x y

@[simp] theorem Sdu.ite_u (c : Prop) [Decidable c] (x y : Sdu) :
    (if c then x else y).u = if c then x.u else y.u := apply_ite Sdu.u c x y

@[simp] theorem Seq.ite_causes (c : Prop) [Decidable c] (x y : Seq) :
    (if c then x else y).causes = if c then x.causes else y.causes := apply_ite Seq.causes c x y

@[simp] theorem Seq.ite_copy (c : Prop) [Decidable c] (x y : Seq) :
    (if c then x else y).copy = if c then x.copy else y.copy := apply_ite Seq.copy c x y

@[simp] theorem Seq.ite_deferred (c : Prop) [Decidable c] (x y : Seq) :
    (if c then x else y).deferred = if c then x.deferred else y.deferred := apply_ite Seq.deferred c x y

@[simp] theorem Seq.ite_disposition (c : Prop) [Decidable c] (x y : Seq) :
    (if c then x else y).disposition = if c then x.disposition else y.disposition := apply_ite Seq.disposition c x y

@[simp] theorem Seq.ite_elapsed (c : Prop) [Decidable c] (x y : Seq) :
    (if c then x else y).elapsed = if c then x.elapsed else y.elapsed := apply_ite Seq.elapsed c x y

@[simp] theorem Seq.ite_endpoint (c : Prop) [Decidable c] (x y : Seq) :
    (if c then x else y).endpoint = if c then x.endpoint else y.endpoint := apply_ite Seq.endpoint c x y

@[simp] theorem Seq.ite_first (c : Prop) [Decidable c] (x y : Seq) :
    (if c then x else y).first = if c then x.first else y.first := apply_ite Seq.first c x y

@[simp] theorem Seq.ite_flags (c : Prop) [Decidable c] (x y : Seq) :
    (if c then x else y).flags = if c then x.flags else y.flags := apply_ite Seq.flags c x y

@[simp] theorem Seq.ite_hold (c : Prop) [Decidable c] (x y : Seq) :
    (if c then x else y).hold = if c then x.hold else y.hold := apply_ite Seq.hold c x y

@[simp] theorem Seq.ite_index (c : Prop) [Decidable c] (x y : Seq) :
    (if c then x else y).index = if c then x.index else y.index := apply_ite Seq.index c x y

@[simp] theorem Seq.ite_later (c : Prop) [Decidable c] (x y : Seq) :
    (if c then x else y).later = if c then x.later else y.later := apply_ite Seq.later c x y

@[simp] theorem Seq.ite_overEnd (c : Prop) [Decidable c] (x y : Seq) :
    (if c then x else y).overEnd = if c then x.overEnd else y.overEnd := apply_ite Seq.overEnd c x y

@[simp] theorem Seq.ite_record (c : Prop) [Decidable c] (x y : Seq) :
    (if c then x else y).record = if c then x.record else y.record := apply_ite Seq.record c x y

@[simp] theorem Seq.ite_result (c : Prop) [Decidable c] (x y : Seq) :
    (if c then x else y).result = if c then x.result else y.result := apply_ite Seq.result c x y

@[simp] theorem Seq.ite_resume (c : Prop) [Decidable c] (x y : Seq) :
    (if c then x else y).resume = if c then x.resume else y.resume := apply_ite Seq.resume c x y

@[simp] theorem Seq.ite_state (c : Prop) [Decidable c] (x y : Seq) :
    (if c then x else y).state = if c then x.state else y.state := apply_ite Seq.state c x y

@[simp] theorem State.ite_cfg (c : Prop) [Decidable c] (x y : State) :
    (if c then x else y).cfg = if c then x.cfg else y.cfg := apply_ite State.cfg c x y

@[simp] theorem State.ite_drv (c : Prop) [Decidable c] (x y : State) :
    (if c then x else y).drv = if c then x.drv else y.drv := apply_ite State.drv c x y

@[simp] theorem State.ite_epm (c : Prop) [Decidable c] (x y : State) :
    (if c then x else y).epm = if c then x.epm else y.epm := apply_ite State.epm c x y

@[simp] theorem State.ite_freeCount (c : Prop) [Decidable c] (x y : State) :
    (if c then x else y).freeCount = if c then x.freeCount else y.freeCount := apply_ite State.freeCount c x y

@[simp] theorem State.ite_hpc (c : Prop) [Decidable c] (x y : State) :
    (if c then x else y).hpc = if c then x.hpc else y.hpc := apply_ite State.hpc c x y

@[simp] theorem State.ite_ilk (c : Prop) [Decidable c] (x y : State) :
    (if c then x else y).ilk = if c then x.ilk else y.ilk := apply_ite State.ilk c x y

@[simp] theorem State.ite_lnk (c : Prop) [Decidable c] (x y : State) :
    (if c then x else y).lnk = if c then x.lnk else y.lnk := apply_ite State.lnk c x y

@[simp] theorem State.ite_now (c : Prop) [Decidable c] (x y : State) :
    (if c then x else y).now = if c then x.now else y.now := apply_ite State.now c x y

@[simp] theorem State.ite_pcc (c : Prop) [Decidable c] (x y : State) :
    (if c then x else y).pcc = if c then x.pcc else y.pcc := apply_ite State.pcc c x y

@[simp] theorem State.ite_peer (c : Prop) [Decidable c] (x y : State) :
    (if c then x else y).peer = if c then x.peer else y.peer := apply_ite State.peer c x y

@[simp] theorem State.ite_pending (c : Prop) [Decidable c] (x y : State) :
    (if c then x else y).pending = if c then x.pending else y.pending := apply_ite State.pending c x y

@[simp] theorem State.ite_pins (c : Prop) [Decidable c] (x y : State) :
    (if c then x else y).pins = if c then x.pins else y.pins := apply_ite State.pins c x y

@[simp] theorem State.ite_rcp (c : Prop) [Decidable c] (x y : State) :
    (if c then x else y).rcp = if c then x.rcp else y.rcp := apply_ite State.rcp c x y

@[simp] theorem State.ite_sdu (c : Prop) [Decidable c] (x y : State) :
    (if c then x else y).sdu = if c then x.sdu else y.sdu := apply_ite State.sdu c x y

@[simp] theorem State.ite_seq (c : Prop) [Decidable c] (x y : State) :
    (if c then x else y).seq = if c then x.seq else y.seq := apply_ite State.seq c x y

@[simp] theorem State.ite_shr (c : Prop) [Decidable c] (x y : State) :
    (if c then x else y).shr = if c then x.shr else y.shr := apply_ite State.shr c x y

@[simp] theorem placeNotice_keeps (kind : Nat) (body : List Byte) (s : State) :
    (placeNotice kind body s).cfg = s.cfg ∧ (placeNotice kind body s).peer = s.peer ∧
    (placeNotice kind body s).shr = s.shr ∧ (placeNotice kind body s).sdu = s.sdu ∧
    (placeNotice kind body s).seq = s.seq ∧ (placeNotice kind body s).rcp = s.rcp ∧
    (placeNotice kind body s).hpc = s.hpc ∧ (placeNotice kind body s).pcc = s.pcc ∧
    (placeNotice kind body s).epm = s.epm ∧ (placeNotice kind body s).ilk = s.ilk ∧
    (placeNotice kind body s).drv = s.drv ∧ (placeNotice kind body s).lnk.stopSlot = s.lnk.stopSlot ∧
    (placeNotice kind body s).lnk.answers = s.lnk.answers ∧
    (placeNotice kind body s).lnk.demandSlot = s.lnk.demandSlot ∧
    (placeNotice kind body s).lnk.sending = s.lnk.sending ∧ (placeNotice kind body s).lnk.carrier = s.lnk.carrier ∧
    (placeNotice kind body s).lnk.received = s.lnk.received ∧ (placeNotice kind body s).lnk.quiet = s.lnk.quiet ∧
    (placeNotice kind body s).lnk.collisionSeen = s.lnk.collisionSeen ∧
    (placeNotice kind body s).lnk.checkErrorSeen = s.lnk.checkErrorSeen ∧
    (placeNotice kind body s).lnk.malformedSeen = s.lnk.malformedSeen ∧
    (placeNotice kind body s).lnk.dupFound = s.lnk.dupFound ∧ (placeNotice kind body s).pins = s.pins ∧
    (placeNotice kind body s).now = s.now ∧ (placeNotice kind body s).freeCount = s.freeCount ∧
    (placeNotice kind body s).pending = s.pending := by
  simp [placeNotice]

@[simp] theorem placeAnswer_keeps (tag : Byte) (payload : List Byte) (s : State) :
    (placeAnswer tag payload s).cfg = s.cfg ∧ (placeAnswer tag payload s).peer = s.peer ∧
    (placeAnswer tag payload s).shr = s.shr ∧ (placeAnswer tag payload s).sdu = s.sdu ∧
    (placeAnswer tag payload s).seq = s.seq ∧ (placeAnswer tag payload s).rcp = s.rcp ∧
    (placeAnswer tag payload s).hpc = s.hpc ∧ (placeAnswer tag payload s).pcc = s.pcc ∧
    (placeAnswer tag payload s).epm = s.epm ∧ (placeAnswer tag payload s).ilk = s.ilk ∧
    (placeAnswer tag payload s).drv = s.drv ∧ (placeAnswer tag payload s).lnk.stopSlot = s.lnk.stopSlot ∧
    (placeAnswer tag payload s).lnk.demandSlot = s.lnk.demandSlot ∧
    (placeAnswer tag payload s).lnk.notices = s.lnk.notices ∧
    (placeAnswer tag payload s).lnk.sending = s.lnk.sending ∧
    (placeAnswer tag payload s).lnk.carrier = s.lnk.carrier ∧
    (placeAnswer tag payload s).lnk.received = s.lnk.received ∧ (placeAnswer tag payload s).lnk.quiet = s.lnk.quiet ∧
    (placeAnswer tag payload s).lnk.lost = s.lnk.lost ∧
    (placeAnswer tag payload s).lnk.collisionSeen = s.lnk.collisionSeen ∧
    (placeAnswer tag payload s).lnk.checkErrorSeen = s.lnk.checkErrorSeen ∧
    (placeAnswer tag payload s).lnk.malformedSeen = s.lnk.malformedSeen ∧
    (placeAnswer tag payload s).lnk.dupFound = s.lnk.dupFound ∧ (placeAnswer tag payload s).pins = s.pins ∧
    (placeAnswer tag payload s).now = s.now ∧ (placeAnswer tag payload s).freeCount = s.freeCount ∧
    (placeAnswer tag payload s).pending = s.pending := by
  simp [placeAnswer]

@[simp] theorem placeDemandFrame_keeps (payload : List Byte) (s : State) :
    (placeDemandFrame payload s).cfg = s.cfg ∧ (placeDemandFrame payload s).peer = s.peer ∧
    (placeDemandFrame payload s).shr = s.shr ∧ (placeDemandFrame payload s).sdu = s.sdu ∧
    (placeDemandFrame payload s).seq = s.seq ∧ (placeDemandFrame payload s).rcp = s.rcp ∧
    (placeDemandFrame payload s).hpc = s.hpc ∧ (placeDemandFrame payload s).pcc = s.pcc ∧
    (placeDemandFrame payload s).epm = s.epm ∧ (placeDemandFrame payload s).ilk = s.ilk ∧
    (placeDemandFrame payload s).drv = s.drv ∧ (placeDemandFrame payload s).lnk.stopSlot = s.lnk.stopSlot ∧
    (placeDemandFrame payload s).lnk.answers = s.lnk.answers ∧
    (placeDemandFrame payload s).lnk.notices = s.lnk.notices ∧
    (placeDemandFrame payload s).lnk.carrier = s.lnk.carrier ∧
    (placeDemandFrame payload s).lnk.received = s.lnk.received ∧
    (placeDemandFrame payload s).lnk.quiet = s.lnk.quiet ∧ (placeDemandFrame payload s).lnk.lost = s.lnk.lost ∧
    (placeDemandFrame payload s).lnk.collisionSeen = s.lnk.collisionSeen ∧
    (placeDemandFrame payload s).lnk.checkErrorSeen = s.lnk.checkErrorSeen ∧
    (placeDemandFrame payload s).lnk.malformedSeen = s.lnk.malformedSeen ∧
    (placeDemandFrame payload s).lnk.dupFound = s.lnk.dupFound ∧ (placeDemandFrame payload s).pins = s.pins ∧
    (placeDemandFrame payload s).now = s.now ∧ (placeDemandFrame payload s).freeCount = s.freeCount ∧
    (placeDemandFrame payload s).pending = s.pending := by
  simp [placeDemandFrame]

@[simp] theorem placeStopFrame_keeps (line : Nat) (s : State) :
    (placeStopFrame line s).cfg = s.cfg ∧ (placeStopFrame line s).peer = s.peer ∧
    (placeStopFrame line s).shr = s.shr ∧ (placeStopFrame line s).sdu = s.sdu ∧ (placeStopFrame line s).seq = s.seq ∧
    (placeStopFrame line s).rcp = s.rcp ∧ (placeStopFrame line s).hpc = s.hpc ∧ (placeStopFrame line s).pcc = s.pcc ∧
    (placeStopFrame line s).epm = s.epm ∧ (placeStopFrame line s).ilk = s.ilk ∧ (placeStopFrame line s).drv = s.drv ∧
    (placeStopFrame line s).lnk.answers = s.lnk.answers ∧ (placeStopFrame line s).lnk.demandSlot = s.lnk.demandSlot ∧
    (placeStopFrame line s).lnk.notices = s.lnk.notices ∧ (placeStopFrame line s).lnk.carrier = s.lnk.carrier ∧
    (placeStopFrame line s).lnk.received = s.lnk.received ∧ (placeStopFrame line s).lnk.quiet = s.lnk.quiet ∧
    (placeStopFrame line s).lnk.lost = s.lnk.lost ∧ (placeStopFrame line s).lnk.collisionSeen = s.lnk.collisionSeen ∧
    (placeStopFrame line s).lnk.checkErrorSeen = s.lnk.checkErrorSeen ∧
    (placeStopFrame line s).lnk.malformedSeen = s.lnk.malformedSeen ∧
    (placeStopFrame line s).lnk.dupFound = s.lnk.dupFound ∧ (placeStopFrame line s).pins = s.pins ∧
    (placeStopFrame line s).now = s.now ∧ (placeStopFrame line s).freeCount = s.freeCount ∧
    (placeStopFrame line s).pending = s.pending := by
  simp [placeStopFrame]

@[simp] theorem shrRun_keeps (f : Feed) (s : State) :
    (shrRun f s).cfg = s.cfg ∧ (shrRun f s).peer = s.peer ∧ (shrRun f s).sdu = s.sdu ∧ (shrRun f s).seq = s.seq ∧
    (shrRun f s).rcp = s.rcp ∧ (shrRun f s).hpc = s.hpc ∧ (shrRun f s).pcc = s.pcc ∧ (shrRun f s).epm = s.epm ∧
    (shrRun f s).ilk = s.ilk ∧ (shrRun f s).drv = s.drv ∧ (shrRun f s).lnk = s.lnk ∧ (shrRun f s).pins = s.pins ∧
    (shrRun f s).now = s.now ∧ (shrRun f s).freeCount = s.freeCount ∧ (shrRun f s).pending = s.pending := by
  simp [shrRun]

@[simp] theorem shrRuns_keeps (touched : PerFeed Bool) (s : State) :
    (shrRuns touched s).cfg = s.cfg ∧ (shrRuns touched s).peer = s.peer ∧ (shrRuns touched s).sdu = s.sdu ∧
    (shrRuns touched s).seq = s.seq ∧ (shrRuns touched s).rcp = s.rcp ∧ (shrRuns touched s).hpc = s.hpc ∧
    (shrRuns touched s).pcc = s.pcc ∧ (shrRuns touched s).epm = s.epm ∧ (shrRuns touched s).ilk = s.ilk ∧
    (shrRuns touched s).drv = s.drv ∧ (shrRuns touched s).lnk = s.lnk ∧ (shrRuns touched s).pins = s.pins ∧
    (shrRuns touched s).now = s.now ∧ (shrRuns touched s).freeCount = s.freeCount ∧
    (shrRuns touched s).pending = s.pending := by
  simp [shrRuns]

@[simp] theorem markSeen_keeps (f : Feed) (s : State) :
    (markSeen f s).cfg = s.cfg ∧ (markSeen f s).peer = s.peer ∧ (markSeen f s).sdu = s.sdu ∧
    (markSeen f s).seq = s.seq ∧ (markSeen f s).rcp = s.rcp ∧ (markSeen f s).hpc = s.hpc ∧
    (markSeen f s).pcc = s.pcc ∧ (markSeen f s).epm = s.epm ∧ (markSeen f s).ilk = s.ilk ∧
    (markSeen f s).drv = s.drv ∧ (markSeen f s).lnk = s.lnk ∧ (markSeen f s).pins = s.pins ∧
    (markSeen f s).now = s.now ∧ (markSeen f s).freeCount = s.freeCount ∧ (markSeen f s).pending = s.pending := by
  simp [markSeen]

@[simp] theorem placeDemand_keeps (s : State) :
    (placeDemand s).cfg = s.cfg ∧ (placeDemand s).peer = s.peer ∧ (placeDemand s).shr = s.shr ∧
    (placeDemand s).sdu = s.sdu ∧ (placeDemand s).seq = s.seq ∧ (placeDemand s).rcp = s.rcp ∧
    (placeDemand s).hpc = s.hpc ∧ (placeDemand s).pcc = s.pcc ∧ (placeDemand s).epm = s.epm ∧
    (placeDemand s).ilk = s.ilk ∧ (placeDemand s).drv = s.drv ∧ (placeDemand s).lnk.stopSlot = s.lnk.stopSlot ∧
    (placeDemand s).lnk.answers = s.lnk.answers ∧ (placeDemand s).lnk.notices = s.lnk.notices ∧
    (placeDemand s).lnk.carrier = s.lnk.carrier ∧ (placeDemand s).lnk.received = s.lnk.received ∧
    (placeDemand s).lnk.quiet = s.lnk.quiet ∧ (placeDemand s).lnk.lost = s.lnk.lost ∧
    (placeDemand s).lnk.collisionSeen = s.lnk.collisionSeen ∧
    (placeDemand s).lnk.checkErrorSeen = s.lnk.checkErrorSeen ∧
    (placeDemand s).lnk.malformedSeen = s.lnk.malformedSeen ∧ (placeDemand s).lnk.dupFound = s.lnk.dupFound ∧
    (placeDemand s).pins = s.pins ∧ (placeDemand s).now = s.now ∧ (placeDemand s).freeCount = s.freeCount ∧
    (placeDemand s).pending = s.pending := by
  simp [placeDemand]

@[simp] theorem rebuildRecord_keeps (s : State) :
    (rebuildRecord s).cfg = s.cfg ∧ (rebuildRecord s).peer.table = s.peer.table ∧
    (rebuildRecord s).peer.lowFeeds = s.peer.lowFeeds ∧ (rebuildRecord s).peer.refresh = s.peer.refresh ∧
    (rebuildRecord s).peer.quiet = s.peer.quiet ∧ (rebuildRecord s).peer.isolated = s.peer.isolated ∧
    (rebuildRecord s).sdu = s.sdu ∧ (rebuildRecord s).seq = s.seq ∧ (rebuildRecord s).rcp = s.rcp ∧
    (rebuildRecord s).hpc = s.hpc ∧ (rebuildRecord s).pcc = s.pcc ∧ (rebuildRecord s).epm = s.epm ∧
    (rebuildRecord s).ilk = s.ilk ∧ (rebuildRecord s).drv = s.drv ∧ (rebuildRecord s).lnk.stopSlot = s.lnk.stopSlot ∧
    (rebuildRecord s).lnk.answers = s.lnk.answers ∧ (rebuildRecord s).lnk.notices = s.lnk.notices ∧
    (rebuildRecord s).lnk.carrier = s.lnk.carrier ∧ (rebuildRecord s).lnk.received = s.lnk.received ∧
    (rebuildRecord s).lnk.quiet = s.lnk.quiet ∧ (rebuildRecord s).lnk.lost = s.lnk.lost ∧
    (rebuildRecord s).lnk.collisionSeen = s.lnk.collisionSeen ∧
    (rebuildRecord s).lnk.checkErrorSeen = s.lnk.checkErrorSeen ∧
    (rebuildRecord s).lnk.malformedSeen = s.lnk.malformedSeen ∧ (rebuildRecord s).lnk.dupFound = s.lnk.dupFound ∧
    (rebuildRecord s).pins = s.pins ∧ (rebuildRecord s).now = s.now ∧ (rebuildRecord s).freeCount = s.freeCount ∧
    (rebuildRecord s).pending = s.pending := by
  simp [rebuildRecord]

@[simp] theorem hearFrame_keeps (s : State) :
    (hearFrame s).cfg = s.cfg ∧ (hearFrame s).peer.table = s.peer.table ∧ (hearFrame s).peer.own = s.peer.own ∧
    (hearFrame s).peer.lowFeeds = s.peer.lowFeeds ∧ (hearFrame s).peer.refresh = s.peer.refresh ∧
    (hearFrame s).shr = s.shr ∧ (hearFrame s).sdu = s.sdu ∧ (hearFrame s).seq = s.seq ∧ (hearFrame s).rcp = s.rcp ∧
    (hearFrame s).hpc = s.hpc ∧ (hearFrame s).pcc = s.pcc ∧ (hearFrame s).epm = s.epm ∧ (hearFrame s).ilk = s.ilk ∧
    (hearFrame s).drv = s.drv ∧ (hearFrame s).lnk = s.lnk ∧ (hearFrame s).pins = s.pins ∧ (hearFrame s).now = s.now ∧
    (hearFrame s).freeCount = s.freeCount ∧ (hearFrame s).pending = s.pending := by
  simp [hearFrame]

@[simp] theorem markLowFeeds_keeps (s : State) :
    (markLowFeeds s).cfg = s.cfg ∧ (markLowFeeds s).peer = s.peer ∧ (markLowFeeds s).sdu = s.sdu ∧
    (markLowFeeds s).seq = s.seq ∧ (markLowFeeds s).rcp = s.rcp ∧ (markLowFeeds s).hpc = s.hpc ∧
    (markLowFeeds s).pcc = s.pcc ∧ (markLowFeeds s).epm = s.epm ∧ (markLowFeeds s).ilk = s.ilk ∧
    (markLowFeeds s).drv = s.drv ∧ (markLowFeeds s).lnk = s.lnk ∧ (markLowFeeds s).pins = s.pins ∧
    (markLowFeeds s).now = s.now ∧ (markLowFeeds s).freeCount = s.freeCount ∧
    (markLowFeeds s).pending = s.pending := by
  simp [markLowFeeds]

@[simp] theorem refresh_keeps (s : State) :
    (refresh s).cfg = s.cfg ∧ (refresh s).peer.own = s.peer.own ∧ (refresh s).peer.lowFeeds = s.peer.lowFeeds ∧
    (refresh s).peer.isolated = s.peer.isolated ∧ (refresh s).sdu = s.sdu ∧ (refresh s).seq = s.seq ∧
    (refresh s).rcp = s.rcp ∧ (refresh s).hpc = s.hpc ∧ (refresh s).pcc = s.pcc ∧ (refresh s).epm = s.epm ∧
    (refresh s).ilk = s.ilk ∧ (refresh s).drv = s.drv ∧ (refresh s).lnk.stopSlot = s.lnk.stopSlot ∧
    (refresh s).lnk.answers = s.lnk.answers ∧ (refresh s).lnk.notices = s.lnk.notices ∧
    (refresh s).lnk.carrier = s.lnk.carrier ∧ (refresh s).lnk.received = s.lnk.received ∧
    (refresh s).lnk.quiet = s.lnk.quiet ∧ (refresh s).lnk.lost = s.lnk.lost ∧
    (refresh s).lnk.collisionSeen = s.lnk.collisionSeen ∧ (refresh s).lnk.checkErrorSeen = s.lnk.checkErrorSeen ∧
    (refresh s).lnk.malformedSeen = s.lnk.malformedSeen ∧ (refresh s).lnk.dupFound = s.lnk.dupFound ∧
    (refresh s).pins = s.pins ∧ (refresh s).now = s.now ∧ (refresh s).freeCount = s.freeCount ∧
    (refresh s).pending = s.pending := by
  simp [refresh]

@[simp] theorem makeStale_keeps (n : Nat) (s : State) :
    (makeStale n s).cfg = s.cfg ∧ (makeStale n s).peer.own = s.peer.own ∧
    (makeStale n s).peer.lowFeeds = s.peer.lowFeeds ∧ (makeStale n s).peer.refresh = s.peer.refresh ∧
    (makeStale n s).peer.quiet = s.peer.quiet ∧ (makeStale n s).peer.isolated = s.peer.isolated ∧
    (makeStale n s).sdu = s.sdu ∧ (makeStale n s).seq = s.seq ∧ (makeStale n s).rcp = s.rcp ∧
    (makeStale n s).hpc = s.hpc ∧ (makeStale n s).pcc = s.pcc ∧ (makeStale n s).epm = s.epm ∧
    (makeStale n s).ilk = s.ilk ∧ (makeStale n s).drv = s.drv ∧ (makeStale n s).lnk = s.lnk ∧
    (makeStale n s).pins = s.pins ∧ (makeStale n s).now = s.now ∧ (makeStale n s).freeCount = s.freeCount ∧
    (makeStale n s).pending = s.pending := by
  unfold makeStale
  split <;> simp

@[simp] theorem removeEntry_keeps (n : Nat) (s : State) :
    (removeEntry n s).cfg = s.cfg ∧ (removeEntry n s).peer.own = s.peer.own ∧
    (removeEntry n s).peer.lowFeeds = s.peer.lowFeeds ∧ (removeEntry n s).peer.refresh = s.peer.refresh ∧
    (removeEntry n s).peer.quiet = s.peer.quiet ∧ (removeEntry n s).peer.isolated = s.peer.isolated ∧
    (removeEntry n s).sdu = s.sdu ∧ (removeEntry n s).seq = s.seq ∧ (removeEntry n s).rcp = s.rcp ∧
    (removeEntry n s).hpc = s.hpc ∧ (removeEntry n s).pcc = s.pcc ∧ (removeEntry n s).epm = s.epm ∧
    (removeEntry n s).ilk = s.ilk ∧ (removeEntry n s).drv = s.drv ∧ (removeEntry n s).lnk = s.lnk ∧
    (removeEntry n s).pins = s.pins ∧ (removeEntry n s).now = s.now ∧ (removeEntry n s).freeCount = s.freeCount ∧
    (removeEntry n s).pending = s.pending := by
  unfold removeEntry
  split <;> simp

@[simp] theorem beginIsolation_keeps (s : State) :
    (beginIsolation s).cfg = s.cfg ∧ (beginIsolation s).peer.table = s.peer.table ∧
    (beginIsolation s).peer.own = s.peer.own ∧ (beginIsolation s).peer.lowFeeds = s.peer.lowFeeds ∧
    (beginIsolation s).peer.refresh = s.peer.refresh ∧ (beginIsolation s).peer.quiet = s.peer.quiet ∧
    (beginIsolation s).sdu = s.sdu ∧ (beginIsolation s).seq = s.seq ∧ (beginIsolation s).rcp = s.rcp ∧
    (beginIsolation s).hpc = s.hpc ∧ (beginIsolation s).pcc = s.pcc ∧ (beginIsolation s).epm = s.epm ∧
    (beginIsolation s).ilk = s.ilk ∧ (beginIsolation s).drv = s.drv ∧
    (beginIsolation s).lnk.stopSlot = s.lnk.stopSlot ∧ (beginIsolation s).lnk.answers = s.lnk.answers ∧
    (beginIsolation s).lnk.demandSlot = s.lnk.demandSlot ∧ (beginIsolation s).lnk.sending = s.lnk.sending ∧
    (beginIsolation s).lnk.carrier = s.lnk.carrier ∧ (beginIsolation s).lnk.received = s.lnk.received ∧
    (beginIsolation s).lnk.quiet = s.lnk.quiet ∧ (beginIsolation s).lnk.collisionSeen = s.lnk.collisionSeen ∧
    (beginIsolation s).lnk.checkErrorSeen = s.lnk.checkErrorSeen ∧
    (beginIsolation s).lnk.malformedSeen = s.lnk.malformedSeen ∧ (beginIsolation s).lnk.dupFound = s.lnk.dupFound ∧
    (beginIsolation s).pins = s.pins ∧ (beginIsolation s).now = s.now ∧ (beginIsolation s).freeCount = s.freeCount ∧
    (beginIsolation s).pending = s.pending := by
  simp [beginIsolation]

@[simp] theorem State.setChan_keeps (s : State) (c : Channel) (d : Dispense) :
    (State.setChan s c d).cfg = s.cfg ∧ (State.setChan s c d).peer = s.peer ∧ (State.setChan s c d).shr = s.shr ∧
    (State.setChan s c d).sdu.di = s.sdu.di ∧ (State.setChan s c d).sdu.diVolume = s.sdu.diVolume ∧
    (State.setChan s c d).sdu.dose = s.sdu.dose ∧ (State.setChan s c d).sdu.persist = s.sdu.persist ∧
    (State.setChan s c d).sdu.mismatch = s.sdu.mismatch ∧ (State.setChan s c d).sdu.rinseDone = s.sdu.rinseDone ∧
    (State.setChan s c d).sdu.u = s.sdu.u ∧ (State.setChan s c d).sdu.blend = s.sdu.blend ∧
    (State.setChan s c d).sdu.share = s.sdu.share ∧ (State.setChan s c d).seq = s.seq ∧
    (State.setChan s c d).rcp = s.rcp ∧ (State.setChan s c d).hpc = s.hpc ∧ (State.setChan s c d).pcc = s.pcc ∧
    (State.setChan s c d).epm = s.epm ∧ (State.setChan s c d).ilk = s.ilk ∧ (State.setChan s c d).drv = s.drv ∧
    (State.setChan s c d).lnk = s.lnk ∧ (State.setChan s c d).pins = s.pins ∧ (State.setChan s c d).now = s.now ∧
    (State.setChan s c d).freeCount = s.freeCount ∧ (State.setChan s c d).pending = s.pending := by
  simp [State.setChan]

@[simp] theorem closeFeeds_keeps (c : Channel) (s : State) :
    (closeFeeds c s).cfg = s.cfg ∧ (closeFeeds c s).peer.table = s.peer.table ∧
    (closeFeeds c s).peer.own = s.peer.own ∧ (closeFeeds c s).peer.refresh = s.peer.refresh ∧
    (closeFeeds c s).peer.quiet = s.peer.quiet ∧ (closeFeeds c s).peer.isolated = s.peer.isolated ∧
    (closeFeeds c s).shr = s.shr ∧ (closeFeeds c s).sdu.di = s.sdu.di ∧
    (closeFeeds c s).sdu.diVolume = s.sdu.diVolume ∧ (closeFeeds c s).sdu.dose = s.sdu.dose ∧
    (closeFeeds c s).sdu.persist = s.sdu.persist ∧ (closeFeeds c s).sdu.mismatch = s.sdu.mismatch ∧
    (closeFeeds c s).sdu.rinseDone = s.sdu.rinseDone ∧ (closeFeeds c s).sdu.u = s.sdu.u ∧
    (closeFeeds c s).sdu.blend = s.sdu.blend ∧ (closeFeeds c s).sdu.share = s.sdu.share ∧
    (closeFeeds c s).seq = s.seq ∧ (closeFeeds c s).rcp = s.rcp ∧ (closeFeeds c s).hpc = s.hpc ∧
    (closeFeeds c s).pcc = s.pcc ∧ (closeFeeds c s).epm = s.epm ∧ (closeFeeds c s).ilk = s.ilk ∧
    (closeFeeds c s).drv = s.drv ∧ (closeFeeds c s).lnk = s.lnk ∧ (closeFeeds c s).pins = s.pins ∧
    (closeFeeds c s).now = s.now ∧ (closeFeeds c s).freeCount = s.freeCount ∧
    (closeFeeds c s).pending = s.pending := by
  simp [closeFeeds]

@[simp] theorem closeDi_keeps (s : State) :
    (closeDi s).cfg = s.cfg ∧ (closeDi s).peer = s.peer ∧ (closeDi s).shr = s.shr ∧
    (closeDi s).sdu.diVolume = s.sdu.diVolume ∧ (closeDi s).sdu.dose = s.sdu.dose ∧
    (closeDi s).sdu.persist = s.sdu.persist ∧ (closeDi s).sdu.mismatch = s.sdu.mismatch ∧
    (closeDi s).sdu.rinseDone = s.sdu.rinseDone ∧ (closeDi s).sdu.u = s.sdu.u ∧ (closeDi s).sdu.blend = s.sdu.blend ∧
    (closeDi s).sdu.share = s.sdu.share ∧ (closeDi s).seq = s.seq ∧ (closeDi s).rcp = s.rcp ∧
    (closeDi s).hpc = s.hpc ∧ (closeDi s).pcc = s.pcc ∧ (closeDi s).epm = s.epm ∧ (closeDi s).ilk = s.ilk ∧
    (closeDi s).drv = s.drv ∧ (closeDi s).lnk = s.lnk ∧ (closeDi s).pins = s.pins ∧ (closeDi s).now = s.now ∧
    (closeDi s).freeCount = s.freeCount ∧ (closeDi s).pending = s.pending := by
  simp [closeDi]

@[simp] theorem closeChannel_keeps (c : Channel) (s : State) :
    (closeChannel c s).cfg = s.cfg ∧ (closeChannel c s).peer.table = s.peer.table ∧
    (closeChannel c s).peer.own = s.peer.own ∧ (closeChannel c s).peer.refresh = s.peer.refresh ∧
    (closeChannel c s).peer.quiet = s.peer.quiet ∧ (closeChannel c s).peer.isolated = s.peer.isolated ∧
    (closeChannel c s).shr = s.shr ∧ (closeChannel c s).sdu.diVolume = s.sdu.diVolume ∧
    (closeChannel c s).sdu.dose = s.sdu.dose ∧ (closeChannel c s).sdu.persist = s.sdu.persist ∧
    (closeChannel c s).sdu.mismatch = s.sdu.mismatch ∧ (closeChannel c s).sdu.rinseDone = s.sdu.rinseDone ∧
    (closeChannel c s).sdu.u = s.sdu.u ∧ (closeChannel c s).sdu.blend = s.sdu.blend ∧
    (closeChannel c s).sdu.share = s.sdu.share ∧ (closeChannel c s).seq = s.seq ∧ (closeChannel c s).rcp = s.rcp ∧
    (closeChannel c s).hpc = s.hpc ∧ (closeChannel c s).pcc = s.pcc ∧ (closeChannel c s).epm = s.epm ∧
    (closeChannel c s).ilk = s.ilk ∧ (closeChannel c s).drv = s.drv ∧ (closeChannel c s).lnk = s.lnk ∧
    (closeChannel c s).pins = s.pins ∧ (closeChannel c s).now = s.now ∧ (closeChannel c s).freeCount = s.freeCount ∧
    (closeChannel c s).pending = s.pending := by
  unfold closeChannel
  split <;> simp

@[simp] theorem openFeedValve_keeps (c : Channel) (f : Feed) (s : State) :
    (openFeedValve c f s).cfg = s.cfg ∧ (openFeedValve c f s).peer.table = s.peer.table ∧
    (openFeedValve c f s).peer.own = s.peer.own ∧ (openFeedValve c f s).peer.refresh = s.peer.refresh ∧
    (openFeedValve c f s).peer.quiet = s.peer.quiet ∧ (openFeedValve c f s).peer.isolated = s.peer.isolated ∧
    (openFeedValve c f s).shr = s.shr ∧ (openFeedValve c f s).sdu.diVolume = s.sdu.diVolume ∧
    (openFeedValve c f s).sdu.dose = s.sdu.dose ∧ (openFeedValve c f s).sdu.persist = s.sdu.persist ∧
    (openFeedValve c f s).sdu.mismatch = s.sdu.mismatch ∧ (openFeedValve c f s).sdu.rinseDone = s.sdu.rinseDone ∧
    (openFeedValve c f s).sdu.u = s.sdu.u ∧ (openFeedValve c f s).sdu.blend = s.sdu.blend ∧
    (openFeedValve c f s).sdu.share = s.sdu.share ∧ (openFeedValve c f s).seq = s.seq ∧
    (openFeedValve c f s).rcp = s.rcp ∧ (openFeedValve c f s).hpc = s.hpc ∧ (openFeedValve c f s).pcc = s.pcc ∧
    (openFeedValve c f s).epm = s.epm ∧ (openFeedValve c f s).ilk = s.ilk ∧ (openFeedValve c f s).drv = s.drv ∧
    (openFeedValve c f s).lnk = s.lnk ∧ (openFeedValve c f s).pins = s.pins ∧ (openFeedValve c f s).now = s.now ∧
    (openFeedValve c f s).freeCount = s.freeCount ∧ (openFeedValve c f s).pending = s.pending := by
  simp [openFeedValve]

@[simp] theorem openDi_keeps (s : State) :
    (openDi s).cfg = s.cfg ∧ (openDi s).peer.table = s.peer.table ∧ (openDi s).peer.own = s.peer.own ∧
    (openDi s).peer.refresh = s.peer.refresh ∧ (openDi s).peer.quiet = s.peer.quiet ∧
    (openDi s).peer.isolated = s.peer.isolated ∧ (openDi s).shr = s.shr ∧ (openDi s).sdu.dose = s.sdu.dose ∧
    (openDi s).sdu.persist = s.sdu.persist ∧ (openDi s).sdu.mismatch = s.sdu.mismatch ∧
    (openDi s).sdu.rinseDone = s.sdu.rinseDone ∧ (openDi s).sdu.u = s.sdu.u ∧ (openDi s).sdu.blend = s.sdu.blend ∧
    (openDi s).sdu.share = s.sdu.share ∧ (openDi s).seq = s.seq ∧ (openDi s).rcp = s.rcp ∧ (openDi s).hpc = s.hpc ∧
    (openDi s).pcc = s.pcc ∧ (openDi s).epm = s.epm ∧ (openDi s).ilk = s.ilk ∧ (openDi s).drv = s.drv ∧
    (openDi s).lnk = s.lnk ∧ (openDi s).pins = s.pins ∧ (openDi s).now = s.now ∧ (openDi s).freeCount = s.freeCount ∧
    (openDi s).pending = s.pending := by
  simp [openDi]

@[simp] theorem recomputeFlow_keeps (s : State) :
    (recomputeFlow s).cfg = s.cfg ∧ (recomputeFlow s).peer = s.peer ∧ (recomputeFlow s).shr = s.shr ∧
    (recomputeFlow s).sdu.ch = s.sdu.ch ∧ (recomputeFlow s).sdu.di = s.sdu.di ∧
    (recomputeFlow s).sdu.diVolume = s.sdu.diVolume ∧ (recomputeFlow s).sdu.dose = s.sdu.dose ∧
    (recomputeFlow s).sdu.persist = s.sdu.persist ∧ (recomputeFlow s).sdu.mismatch = s.sdu.mismatch ∧
    (recomputeFlow s).sdu.rinseDone = s.sdu.rinseDone ∧ (recomputeFlow s).seq = s.seq ∧
    (recomputeFlow s).rcp = s.rcp ∧ (recomputeFlow s).hpc = s.hpc ∧ (recomputeFlow s).pcc = s.pcc ∧
    (recomputeFlow s).epm = s.epm ∧ (recomputeFlow s).ilk = s.ilk ∧ (recomputeFlow s).drv = s.drv ∧
    (recomputeFlow s).lnk = s.lnk ∧ (recomputeFlow s).pins = s.pins ∧ (recomputeFlow s).now = s.now ∧
    (recomputeFlow s).freeCount = s.freeCount ∧ (recomputeFlow s).pending = s.pending := by
  simp [recomputeFlow]

@[simp] theorem setPumps_keeps (s : State) :
    (setPumps s).cfg = s.cfg ∧ (setPumps s).peer = s.peer ∧ (setPumps s).shr = s.shr ∧
    (setPumps s).sdu.di = s.sdu.di ∧ (setPumps s).sdu.diVolume = s.sdu.diVolume ∧
    (setPumps s).sdu.dose = s.sdu.dose ∧ (setPumps s).sdu.persist = s.sdu.persist ∧
    (setPumps s).sdu.mismatch = s.sdu.mismatch ∧ (setPumps s).sdu.rinseDone = s.sdu.rinseDone ∧
    (setPumps s).sdu.u = s.sdu.u ∧ (setPumps s).sdu.blend = s.sdu.blend ∧ (setPumps s).sdu.share = s.sdu.share ∧
    (setPumps s).seq = s.seq ∧ (setPumps s).rcp = s.rcp ∧ (setPumps s).hpc = s.hpc ∧ (setPumps s).pcc = s.pcc ∧
    (setPumps s).epm = s.epm ∧ (setPumps s).ilk = s.ilk ∧ (setPumps s).drv = s.drv ∧ (setPumps s).lnk = s.lnk ∧
    (setPumps s).pins = s.pins ∧ (setPumps s).now = s.now ∧ (setPumps s).freeCount = s.freeCount ∧
    (setPumps s).pending = s.pending := by
  simp [setPumps]

@[simp] theorem setSwitch_keeps (c : Channel) (w : Switch) (s : State) :
    (setSwitch c w s).cfg = s.cfg ∧ (setSwitch c w s).peer = s.peer ∧ (setSwitch c w s).shr = s.shr ∧
    (setSwitch c w s).sdu.di = s.sdu.di ∧ (setSwitch c w s).sdu.diVolume = s.sdu.diVolume ∧
    (setSwitch c w s).sdu.dose = s.sdu.dose ∧ (setSwitch c w s).sdu.persist = s.sdu.persist ∧
    (setSwitch c w s).sdu.mismatch = s.sdu.mismatch ∧ (setSwitch c w s).sdu.rinseDone = s.sdu.rinseDone ∧
    (setSwitch c w s).sdu.u = s.sdu.u ∧ (setSwitch c w s).sdu.blend = s.sdu.blend ∧
    (setSwitch c w s).sdu.share = s.sdu.share ∧ (setSwitch c w s).seq = s.seq ∧ (setSwitch c w s).rcp = s.rcp ∧
    (setSwitch c w s).hpc = s.hpc ∧ (setSwitch c w s).pcc = s.pcc ∧ (setSwitch c w s).epm = s.epm ∧
    (setSwitch c w s).ilk = s.ilk ∧ (setSwitch c w s).drv = s.drv ∧ (setSwitch c w s).lnk = s.lnk ∧
    (setSwitch c w s).pins = s.pins ∧ (setSwitch c w s).now = s.now ∧ (setSwitch c w s).freeCount = s.freeCount ∧
    (setSwitch c w s).pending = s.pending := by
  simp [setSwitch]

@[simp] theorem openTarget_keeps (c : Channel) (t : Target) (s : State) :
    (openTarget c t s).cfg = s.cfg ∧ (openTarget c t s).peer.table = s.peer.table ∧
    (openTarget c t s).peer.own = s.peer.own ∧ (openTarget c t s).peer.refresh = s.peer.refresh ∧
    (openTarget c t s).peer.quiet = s.peer.quiet ∧ (openTarget c t s).peer.isolated = s.peer.isolated ∧
    (openTarget c t s).shr = s.shr ∧ (openTarget c t s).sdu.dose = s.sdu.dose ∧
    (openTarget c t s).sdu.persist = s.sdu.persist ∧ (openTarget c t s).sdu.mismatch = s.sdu.mismatch ∧
    (openTarget c t s).sdu.rinseDone = s.sdu.rinseDone ∧ (openTarget c t s).sdu.u = s.sdu.u ∧
    (openTarget c t s).sdu.blend = s.sdu.blend ∧ (openTarget c t s).sdu.share = s.sdu.share ∧
    (openTarget c t s).seq = s.seq ∧ (openTarget c t s).rcp = s.rcp ∧ (openTarget c t s).hpc = s.hpc ∧
    (openTarget c t s).pcc = s.pcc ∧ (openTarget c t s).epm = s.epm ∧ (openTarget c t s).ilk = s.ilk ∧
    (openTarget c t s).drv = s.drv ∧ (openTarget c t s).lnk = s.lnk ∧ (openTarget c t s).pins = s.pins ∧
    (openTarget c t s).now = s.now ∧ (openTarget c t s).freeCount = s.freeCount ∧
    (openTarget c t s).pending = s.pending := by
  unfold openTarget
  split <;> simp

@[simp] theorem startSwitch_keeps (c : Channel) (t : Target) (s : State) :
    (startSwitch c t s).cfg = s.cfg ∧ (startSwitch c t s).peer.table = s.peer.table ∧
    (startSwitch c t s).peer.own = s.peer.own ∧ (startSwitch c t s).peer.refresh = s.peer.refresh ∧
    (startSwitch c t s).peer.quiet = s.peer.quiet ∧ (startSwitch c t s).peer.isolated = s.peer.isolated ∧
    (startSwitch c t s).shr = s.shr ∧ (startSwitch c t s).sdu.dose = s.sdu.dose ∧
    (startSwitch c t s).sdu.persist = s.sdu.persist ∧ (startSwitch c t s).sdu.mismatch = s.sdu.mismatch ∧
    (startSwitch c t s).sdu.rinseDone = s.sdu.rinseDone ∧ (startSwitch c t s).sdu.u = s.sdu.u ∧
    (startSwitch c t s).sdu.blend = s.sdu.blend ∧ (startSwitch c t s).sdu.share = s.sdu.share ∧
    (startSwitch c t s).seq = s.seq ∧ (startSwitch c t s).rcp = s.rcp ∧ (startSwitch c t s).hpc = s.hpc ∧
    (startSwitch c t s).pcc = s.pcc ∧ (startSwitch c t s).epm = s.epm ∧ (startSwitch c t s).ilk = s.ilk ∧
    (startSwitch c t s).drv = s.drv ∧ (startSwitch c t s).lnk = s.lnk ∧ (startSwitch c t s).pins = s.pins ∧
    (startSwitch c t s).now = s.now ∧ (startSwitch c t s).freeCount = s.freeCount ∧
    (startSwitch c t s).pending = s.pending := by
  simp [startSwitch]

@[simp] theorem endNonOverlap_keeps (c : Channel) (s : State) :
    (endNonOverlap c s).cfg = s.cfg ∧ (endNonOverlap c s).peer.table = s.peer.table ∧
    (endNonOverlap c s).peer.own = s.peer.own ∧ (endNonOverlap c s).peer.refresh = s.peer.refresh ∧
    (endNonOverlap c s).peer.quiet = s.peer.quiet ∧ (endNonOverlap c s).peer.isolated = s.peer.isolated ∧
    (endNonOverlap c s).shr = s.shr ∧ (endNonOverlap c s).sdu.dose = s.sdu.dose ∧
    (endNonOverlap c s).sdu.persist = s.sdu.persist ∧ (endNonOverlap c s).sdu.mismatch = s.sdu.mismatch ∧
    (endNonOverlap c s).sdu.rinseDone = s.sdu.rinseDone ∧ (endNonOverlap c s).sdu.u = s.sdu.u ∧
    (endNonOverlap c s).sdu.blend = s.sdu.blend ∧ (endNonOverlap c s).sdu.share = s.sdu.share ∧
    (endNonOverlap c s).seq = s.seq ∧ (endNonOverlap c s).rcp = s.rcp ∧ (endNonOverlap c s).hpc = s.hpc ∧
    (endNonOverlap c s).pcc = s.pcc ∧ (endNonOverlap c s).epm = s.epm ∧ (endNonOverlap c s).ilk = s.ilk ∧
    (endNonOverlap c s).drv = s.drv ∧ (endNonOverlap c s).lnk = s.lnk ∧ (endNonOverlap c s).pins = s.pins ∧
    (endNonOverlap c s).now = s.now ∧ (endNonOverlap c s).freeCount = s.freeCount ∧
    (endNonOverlap c s).pending = s.pending := by
  simp [endNonOverlap]

@[simp] theorem endFlush_keeps (s : State) :
    (endFlush s).cfg = s.cfg ∧ (endFlush s).peer.table = s.peer.table ∧ (endFlush s).peer.own = s.peer.own ∧
    (endFlush s).peer.refresh = s.peer.refresh ∧ (endFlush s).peer.quiet = s.peer.quiet ∧
    (endFlush s).peer.isolated = s.peer.isolated ∧ (endFlush s).shr = s.shr ∧ (endFlush s).sdu.dose = s.sdu.dose ∧
    (endFlush s).sdu.persist = s.sdu.persist ∧ (endFlush s).sdu.mismatch = s.sdu.mismatch ∧
    (endFlush s).sdu.rinseDone = s.sdu.rinseDone ∧ (endFlush s).sdu.u = s.sdu.u ∧
    (endFlush s).sdu.blend = s.sdu.blend ∧ (endFlush s).sdu.share = s.sdu.share ∧ (endFlush s).seq = s.seq ∧
    (endFlush s).rcp = s.rcp ∧ (endFlush s).hpc = s.hpc ∧ (endFlush s).pcc = s.pcc ∧ (endFlush s).epm = s.epm ∧
    (endFlush s).ilk = s.ilk ∧ (endFlush s).drv = s.drv ∧ (endFlush s).lnk = s.lnk ∧ (endFlush s).pins = s.pins ∧
    (endFlush s).now = s.now ∧ (endFlush s).freeCount = s.freeCount ∧ (endFlush s).pending = s.pending := by
  simp [endFlush]

@[simp] theorem cutDispense_keeps (s : State) :
    (cutDispense s).cfg = s.cfg ∧ (cutDispense s).peer.table = s.peer.table ∧ (cutDispense s).peer.own = s.peer.own ∧
    (cutDispense s).peer.refresh = s.peer.refresh ∧ (cutDispense s).peer.quiet = s.peer.quiet ∧
    (cutDispense s).peer.isolated = s.peer.isolated ∧ (cutDispense s).shr = s.shr ∧
    (cutDispense s).sdu.diVolume = s.sdu.diVolume ∧ (cutDispense s).sdu.dose = s.sdu.dose ∧
    (cutDispense s).sdu.persist = s.sdu.persist ∧ (cutDispense s).sdu.mismatch = s.sdu.mismatch ∧
    (cutDispense s).sdu.rinseDone = s.sdu.rinseDone ∧ (cutDispense s).sdu.u = s.sdu.u ∧
    (cutDispense s).sdu.blend = s.sdu.blend ∧ (cutDispense s).sdu.share = s.sdu.share ∧ (cutDispense s).seq = s.seq ∧
    (cutDispense s).rcp = s.rcp ∧ (cutDispense s).hpc = s.hpc ∧ (cutDispense s).pcc = s.pcc ∧
    (cutDispense s).epm = s.epm ∧ (cutDispense s).ilk = s.ilk ∧ (cutDispense s).drv = s.drv ∧
    (cutDispense s).lnk = s.lnk ∧ (cutDispense s).pins = s.pins ∧ (cutDispense s).now = s.now ∧
    (cutDispense s).freeCount = s.freeCount ∧ (cutDispense s).pending = s.pending := by
  simp [cutDispense]

@[simp] theorem runPostRinse_keeps (s : State) :
    (runPostRinse s).cfg = s.cfg ∧ (runPostRinse s).peer.table = s.peer.table ∧
    (runPostRinse s).peer.own = s.peer.own ∧ (runPostRinse s).peer.refresh = s.peer.refresh ∧
    (runPostRinse s).peer.quiet = s.peer.quiet ∧ (runPostRinse s).peer.isolated = s.peer.isolated ∧
    (runPostRinse s).shr = s.shr ∧ (runPostRinse s).sdu.dose = s.sdu.dose ∧
    (runPostRinse s).sdu.persist = s.sdu.persist ∧ (runPostRinse s).sdu.mismatch = s.sdu.mismatch ∧
    (runPostRinse s).sdu.rinseDone = s.sdu.rinseDone ∧ (runPostRinse s).sdu.u = s.sdu.u ∧
    (runPostRinse s).sdu.blend = s.sdu.blend ∧ (runPostRinse s).sdu.share = s.sdu.share ∧
    (runPostRinse s).seq = s.seq ∧ (runPostRinse s).rcp = s.rcp ∧ (runPostRinse s).hpc = s.hpc ∧
    (runPostRinse s).pcc = s.pcc ∧ (runPostRinse s).epm = s.epm ∧ (runPostRinse s).ilk = s.ilk ∧
    (runPostRinse s).drv = s.drv ∧ (runPostRinse s).lnk = s.lnk ∧ (runPostRinse s).pins = s.pins ∧
    (runPostRinse s).now = s.now ∧ (runPostRinse s).freeCount = s.freeCount ∧
    (runPostRinse s).pending = s.pending := by
  simp [runPostRinse]

@[simp] theorem startPostRinse_keeps (s : State) :
    (startPostRinse s).cfg = s.cfg ∧ (startPostRinse s).peer.table = s.peer.table ∧
    (startPostRinse s).peer.own = s.peer.own ∧ (startPostRinse s).peer.refresh = s.peer.refresh ∧
    (startPostRinse s).peer.quiet = s.peer.quiet ∧ (startPostRinse s).peer.isolated = s.peer.isolated ∧
    (startPostRinse s).shr = s.shr ∧ (startPostRinse s).sdu.dose = s.sdu.dose ∧
    (startPostRinse s).sdu.persist = s.sdu.persist ∧ (startPostRinse s).sdu.mismatch = s.sdu.mismatch ∧
    (startPostRinse s).sdu.u = s.sdu.u ∧ (startPostRinse s).sdu.blend = s.sdu.blend ∧
    (startPostRinse s).sdu.share = s.sdu.share ∧ (startPostRinse s).seq = s.seq ∧ (startPostRinse s).rcp = s.rcp ∧
    (startPostRinse s).hpc = s.hpc ∧ (startPostRinse s).pcc = s.pcc ∧ (startPostRinse s).epm = s.epm ∧
    (startPostRinse s).ilk = s.ilk ∧ (startPostRinse s).drv = s.drv ∧ (startPostRinse s).lnk = s.lnk ∧
    (startPostRinse s).pins = s.pins ∧ (startPostRinse s).now = s.now ∧ (startPostRinse s).freeCount = s.freeCount ∧
    (startPostRinse s).pending = s.pending := by
  unfold startPostRinse
  dsimp only
  (repeat' split) <;> simp

@[simp] theorem endPostRinse_keeps (s : State) :
    (endPostRinse s).cfg = s.cfg ∧ (endPostRinse s).peer = s.peer ∧ (endPostRinse s).shr = s.shr ∧
    (endPostRinse s).sdu.diVolume = s.sdu.diVolume ∧ (endPostRinse s).sdu.dose = s.sdu.dose ∧
    (endPostRinse s).sdu.persist = s.sdu.persist ∧ (endPostRinse s).sdu.mismatch = s.sdu.mismatch ∧
    (endPostRinse s).sdu.u = s.sdu.u ∧ (endPostRinse s).sdu.blend = s.sdu.blend ∧
    (endPostRinse s).sdu.share = s.sdu.share ∧ (endPostRinse s).seq = s.seq ∧ (endPostRinse s).rcp = s.rcp ∧
    (endPostRinse s).hpc = s.hpc ∧ (endPostRinse s).pcc = s.pcc ∧ (endPostRinse s).epm = s.epm ∧
    (endPostRinse s).ilk = s.ilk ∧ (endPostRinse s).drv = s.drv ∧ (endPostRinse s).lnk = s.lnk ∧
    (endPostRinse s).pins = s.pins ∧ (endPostRinse s).now = s.now ∧ (endPostRinse s).freeCount = s.freeCount ∧
    (endPostRinse s).pending = s.pending := by
  simp [endPostRinse]

@[simp] theorem countVolume_keeps (c : Channel) (v : Nat) (s : State) :
    (countVolume c v s).cfg = s.cfg ∧ (countVolume c v s).peer = s.peer ∧ (countVolume c v s).shr = s.shr ∧
    (countVolume c v s).sdu.di = s.sdu.di ∧ (countVolume c v s).sdu.persist = s.sdu.persist ∧
    (countVolume c v s).sdu.mismatch = s.sdu.mismatch ∧ (countVolume c v s).sdu.rinseDone = s.sdu.rinseDone ∧
    (countVolume c v s).sdu.u = s.sdu.u ∧ (countVolume c v s).sdu.blend = s.sdu.blend ∧
    (countVolume c v s).sdu.share = s.sdu.share ∧ (countVolume c v s).seq = s.seq ∧ (countVolume c v s).rcp = s.rcp ∧
    (countVolume c v s).hpc = s.hpc ∧ (countVolume c v s).pcc = s.pcc ∧ (countVolume c v s).epm = s.epm ∧
    (countVolume c v s).ilk = s.ilk ∧ (countVolume c v s).drv = s.drv ∧ (countVolume c v s).lnk = s.lnk ∧
    (countVolume c v s).pins = s.pins ∧ (countVolume c v s).now = s.now ∧
    (countVolume c v s).freeCount = s.freeCount ∧ (countVolume c v s).pending = s.pending := by
  unfold countVolume
  split <;> simp

@[simp] theorem closeWindow_keeps (c : Channel) (s : State) :
    (closeWindow c s).cfg = s.cfg ∧ (closeWindow c s).peer = s.peer ∧ (closeWindow c s).shr = s.shr ∧
    (closeWindow c s).sdu.di = s.sdu.di ∧ (closeWindow c s).sdu.diVolume = s.sdu.diVolume ∧
    (closeWindow c s).sdu.dose = s.sdu.dose ∧ (closeWindow c s).sdu.persist = s.sdu.persist ∧
    (closeWindow c s).sdu.mismatch = s.sdu.mismatch ∧ (closeWindow c s).sdu.rinseDone = s.sdu.rinseDone ∧
    (closeWindow c s).sdu.u = s.sdu.u ∧ (closeWindow c s).sdu.blend = s.sdu.blend ∧
    (closeWindow c s).sdu.share = s.sdu.share ∧ (closeWindow c s).seq = s.seq ∧ (closeWindow c s).rcp = s.rcp ∧
    (closeWindow c s).hpc = s.hpc ∧ (closeWindow c s).pcc = s.pcc ∧ (closeWindow c s).epm = s.epm ∧
    (closeWindow c s).ilk = s.ilk ∧ (closeWindow c s).drv = s.drv ∧ (closeWindow c s).lnk = s.lnk ∧
    (closeWindow c s).pins = s.pins ∧ (closeWindow c s).now = s.now ∧ (closeWindow c s).freeCount = s.freeCount ∧
    (closeWindow c s).pending = s.pending := by
  simp [closeWindow]

@[simp] theorem enterFallback_keeps (c : Channel) (s : State) :
    (enterFallback c s).cfg = s.cfg ∧ (enterFallback c s).peer = s.peer ∧ (enterFallback c s).shr = s.shr ∧
    (enterFallback c s).sdu.di = s.sdu.di ∧ (enterFallback c s).sdu.diVolume = s.sdu.diVolume ∧
    (enterFallback c s).sdu.dose = s.sdu.dose ∧ (enterFallback c s).sdu.persist = s.sdu.persist ∧
    (enterFallback c s).sdu.rinseDone = s.sdu.rinseDone ∧ (enterFallback c s).sdu.u = s.sdu.u ∧
    (enterFallback c s).sdu.blend = s.sdu.blend ∧ (enterFallback c s).sdu.share = s.sdu.share ∧
    (enterFallback c s).seq = s.seq ∧ (enterFallback c s).rcp = s.rcp ∧ (enterFallback c s).hpc = s.hpc ∧
    (enterFallback c s).pcc = s.pcc ∧ (enterFallback c s).epm = s.epm ∧ (enterFallback c s).ilk = s.ilk ∧
    (enterFallback c s).drv = s.drv ∧ (enterFallback c s).lnk.stopSlot = s.lnk.stopSlot ∧
    (enterFallback c s).lnk.answers = s.lnk.answers ∧ (enterFallback c s).lnk.demandSlot = s.lnk.demandSlot ∧
    (enterFallback c s).lnk.sending = s.lnk.sending ∧ (enterFallback c s).lnk.carrier = s.lnk.carrier ∧
    (enterFallback c s).lnk.received = s.lnk.received ∧ (enterFallback c s).lnk.quiet = s.lnk.quiet ∧
    (enterFallback c s).lnk.collisionSeen = s.lnk.collisionSeen ∧
    (enterFallback c s).lnk.checkErrorSeen = s.lnk.checkErrorSeen ∧
    (enterFallback c s).lnk.malformedSeen = s.lnk.malformedSeen ∧ (enterFallback c s).lnk.dupFound = s.lnk.dupFound ∧
    (enterFallback c s).pins = s.pins ∧ (enterFallback c s).now = s.now ∧
    (enterFallback c s).freeCount = s.freeCount ∧ (enterFallback c s).pending = s.pending := by
  simp [enterFallback]

@[simp] theorem restoreFlow_keeps (c : Channel) (s : State) :
    (restoreFlow c s).cfg = s.cfg ∧ (restoreFlow c s).peer = s.peer ∧ (restoreFlow c s).shr = s.shr ∧
    (restoreFlow c s).sdu.di = s.sdu.di ∧ (restoreFlow c s).sdu.diVolume = s.sdu.diVolume ∧
    (restoreFlow c s).sdu.dose = s.sdu.dose ∧ (restoreFlow c s).sdu.persist = s.sdu.persist ∧
    (restoreFlow c s).sdu.mismatch = s.sdu.mismatch ∧ (restoreFlow c s).sdu.rinseDone = s.sdu.rinseDone ∧
    (restoreFlow c s).sdu.u = s.sdu.u ∧ (restoreFlow c s).sdu.blend = s.sdu.blend ∧
    (restoreFlow c s).sdu.share = s.sdu.share ∧ (restoreFlow c s).seq = s.seq ∧ (restoreFlow c s).rcp = s.rcp ∧
    (restoreFlow c s).hpc = s.hpc ∧ (restoreFlow c s).pcc = s.pcc ∧ (restoreFlow c s).epm = s.epm ∧
    (restoreFlow c s).ilk = s.ilk ∧ (restoreFlow c s).drv = s.drv ∧ (restoreFlow c s).lnk.stopSlot = s.lnk.stopSlot ∧
    (restoreFlow c s).lnk.answers = s.lnk.answers ∧ (restoreFlow c s).lnk.demandSlot = s.lnk.demandSlot ∧
    (restoreFlow c s).lnk.sending = s.lnk.sending ∧ (restoreFlow c s).lnk.carrier = s.lnk.carrier ∧
    (restoreFlow c s).lnk.received = s.lnk.received ∧ (restoreFlow c s).lnk.quiet = s.lnk.quiet ∧
    (restoreFlow c s).lnk.collisionSeen = s.lnk.collisionSeen ∧
    (restoreFlow c s).lnk.checkErrorSeen = s.lnk.checkErrorSeen ∧
    (restoreFlow c s).lnk.malformedSeen = s.lnk.malformedSeen ∧ (restoreFlow c s).lnk.dupFound = s.lnk.dupFound ∧
    (restoreFlow c s).pins = s.pins ∧ (restoreFlow c s).now = s.now ∧ (restoreFlow c s).freeCount = s.freeCount ∧
    (restoreFlow c s).pending = s.pending := by
  simp [restoreFlow]

@[simp] theorem raiseLow_keeps (c : Channel) (s : State) :
    (raiseLow c s).cfg = s.cfg ∧ (raiseLow c s).peer.table = s.peer.table ∧
    (raiseLow c s).peer.refresh = s.peer.refresh ∧ (raiseLow c s).peer.quiet = s.peer.quiet ∧
    (raiseLow c s).peer.isolated = s.peer.isolated ∧ (raiseLow c s).sdu.di = s.sdu.di ∧
    (raiseLow c s).sdu.diVolume = s.sdu.diVolume ∧ (raiseLow c s).sdu.dose = s.sdu.dose ∧
    (raiseLow c s).sdu.persist = s.sdu.persist ∧ (raiseLow c s).sdu.mismatch = s.sdu.mismatch ∧
    (raiseLow c s).sdu.rinseDone = s.sdu.rinseDone ∧ (raiseLow c s).sdu.u = s.sdu.u ∧
    (raiseLow c s).sdu.blend = s.sdu.blend ∧ (raiseLow c s).sdu.share = s.sdu.share ∧ (raiseLow c s).seq = s.seq ∧
    (raiseLow c s).rcp = s.rcp ∧ (raiseLow c s).hpc = s.hpc ∧ (raiseLow c s).pcc = s.pcc ∧
    (raiseLow c s).epm = s.epm ∧ (raiseLow c s).ilk = s.ilk ∧ (raiseLow c s).drv = s.drv ∧
    (raiseLow c s).lnk.stopSlot = s.lnk.stopSlot ∧ (raiseLow c s).lnk.answers = s.lnk.answers ∧
    (raiseLow c s).lnk.notices = s.lnk.notices ∧ (raiseLow c s).lnk.carrier = s.lnk.carrier ∧
    (raiseLow c s).lnk.received = s.lnk.received ∧ (raiseLow c s).lnk.quiet = s.lnk.quiet ∧
    (raiseLow c s).lnk.lost = s.lnk.lost ∧ (raiseLow c s).lnk.collisionSeen = s.lnk.collisionSeen ∧
    (raiseLow c s).lnk.checkErrorSeen = s.lnk.checkErrorSeen ∧
    (raiseLow c s).lnk.malformedSeen = s.lnk.malformedSeen ∧ (raiseLow c s).lnk.dupFound = s.lnk.dupFound ∧
    (raiseLow c s).pins = s.pins ∧ (raiseLow c s).now = s.now ∧ (raiseLow c s).freeCount = s.freeCount ∧
    (raiseLow c s).pending = s.pending := by
  unfold raiseLow
  split <;> simp

@[simp] theorem clearLow_keeps (c : Channel) (s : State) :
    (clearLow c s).cfg = s.cfg ∧ (clearLow c s).peer.table = s.peer.table ∧ (clearLow c s).peer.own = s.peer.own ∧
    (clearLow c s).peer.refresh = s.peer.refresh ∧ (clearLow c s).peer.quiet = s.peer.quiet ∧
    (clearLow c s).peer.isolated = s.peer.isolated ∧ (clearLow c s).shr = s.shr ∧ (clearLow c s).sdu.di = s.sdu.di ∧
    (clearLow c s).sdu.diVolume = s.sdu.diVolume ∧ (clearLow c s).sdu.dose = s.sdu.dose ∧
    (clearLow c s).sdu.persist = s.sdu.persist ∧ (clearLow c s).sdu.mismatch = s.sdu.mismatch ∧
    (clearLow c s).sdu.rinseDone = s.sdu.rinseDone ∧ (clearLow c s).sdu.u = s.sdu.u ∧
    (clearLow c s).sdu.blend = s.sdu.blend ∧ (clearLow c s).sdu.share = s.sdu.share ∧ (clearLow c s).seq = s.seq ∧
    (clearLow c s).rcp = s.rcp ∧ (clearLow c s).hpc = s.hpc ∧ (clearLow c s).pcc = s.pcc ∧
    (clearLow c s).epm = s.epm ∧ (clearLow c s).ilk = s.ilk ∧ (clearLow c s).drv = s.drv ∧
    (clearLow c s).lnk = s.lnk ∧ (clearLow c s).pins = s.pins ∧ (clearLow c s).now = s.now ∧
    (clearLow c s).freeCount = s.freeCount ∧ (clearLow c s).pending = s.pending := by
  simp [clearLow]

@[simp] theorem stopPump_keeps (c : Channel) (s : State) :
    (stopPump c s).cfg = s.cfg ∧ (stopPump c s).peer = s.peer ∧ (stopPump c s).shr = s.shr ∧
    (stopPump c s).sdu.di = s.sdu.di ∧ (stopPump c s).sdu.diVolume = s.sdu.diVolume ∧
    (stopPump c s).sdu.dose = s.sdu.dose ∧ (stopPump c s).sdu.persist = s.sdu.persist ∧
    (stopPump c s).sdu.mismatch = s.sdu.mismatch ∧ (stopPump c s).sdu.rinseDone = s.sdu.rinseDone ∧
    (stopPump c s).sdu.u = s.sdu.u ∧ (stopPump c s).sdu.blend = s.sdu.blend ∧
    (stopPump c s).sdu.share = s.sdu.share ∧ (stopPump c s).seq = s.seq ∧ (stopPump c s).rcp = s.rcp ∧
    (stopPump c s).hpc = s.hpc ∧ (stopPump c s).pcc = s.pcc ∧ (stopPump c s).epm = s.epm ∧
    (stopPump c s).ilk = s.ilk ∧ (stopPump c s).drv = s.drv ∧ (stopPump c s).lnk = s.lnk ∧
    (stopPump c s).pins = s.pins ∧ (stopPump c s).now = s.now ∧ (stopPump c s).freeCount = s.freeCount ∧
    (stopPump c s).pending = s.pending := by
  simp [stopPump]

@[simp] theorem faultValve_keeps (c : Channel) (p : Path) (s : State) :
    (faultValve c p s).cfg = s.cfg ∧ (faultValve c p s).peer.table = s.peer.table ∧
    (faultValve c p s).peer.own = s.peer.own ∧ (faultValve c p s).peer.refresh = s.peer.refresh ∧
    (faultValve c p s).peer.quiet = s.peer.quiet ∧ (faultValve c p s).peer.isolated = s.peer.isolated ∧
    (faultValve c p s).shr = s.shr ∧ (faultValve c p s).sdu.diVolume = s.sdu.diVolume ∧
    (faultValve c p s).sdu.dose = s.sdu.dose ∧ (faultValve c p s).sdu.persist = s.sdu.persist ∧
    (faultValve c p s).sdu.mismatch = s.sdu.mismatch ∧ (faultValve c p s).sdu.rinseDone = s.sdu.rinseDone ∧
    (faultValve c p s).sdu.u = s.sdu.u ∧ (faultValve c p s).sdu.blend = s.sdu.blend ∧
    (faultValve c p s).sdu.share = s.sdu.share ∧ (faultValve c p s).seq = s.seq ∧ (faultValve c p s).rcp = s.rcp ∧
    (faultValve c p s).hpc = s.hpc ∧ (faultValve c p s).pcc = s.pcc ∧ (faultValve c p s).epm = s.epm ∧
    (faultValve c p s).ilk = s.ilk ∧ (faultValve c p s).drv = s.drv ∧ (faultValve c p s).lnk = s.lnk ∧
    (faultValve c p s).pins = s.pins ∧ (faultValve c p s).now = s.now ∧ (faultValve c p s).freeCount = s.freeCount ∧
    (faultValve c p s).pending = s.pending := by
  unfold faultValve
  split <;> simp

@[simp] theorem State.setHead_keeps (s : State) (c : HeadCh) (h : HeadChan) :
    (State.setHead s c h).cfg = s.cfg ∧ (State.setHead s c h).peer = s.peer ∧ (State.setHead s c h).shr = s.shr ∧
    (State.setHead s c h).sdu = s.sdu ∧ (State.setHead s c h).seq = s.seq ∧ (State.setHead s c h).rcp = s.rcp ∧
    (State.setHead s c h).hpc.stepTargets = s.hpc.stepTargets ∧ (State.setHead s c h).hpc.warn = s.hpc.warn ∧
    (State.setHead s c h).hpc.armed = s.hpc.armed ∧ (State.setHead s c h).pcc = s.pcc ∧
    (State.setHead s c h).epm = s.epm ∧ (State.setHead s c h).ilk = s.ilk ∧ (State.setHead s c h).drv = s.drv ∧
    (State.setHead s c h).lnk = s.lnk ∧ (State.setHead s c h).pins = s.pins ∧ (State.setHead s c h).now = s.now ∧
    (State.setHead s c h).freeCount = s.freeCount ∧ (State.setHead s c h).pending = s.pending := by
  simp [State.setHead]

@[simp] theorem ventHead_keeps (s : State) :
    (ventHead s).cfg = s.cfg ∧ (ventHead s).peer = s.peer ∧ (ventHead s).shr = s.shr ∧ (ventHead s).sdu = s.sdu ∧
    (ventHead s).seq = s.seq ∧ (ventHead s).rcp = s.rcp ∧ (ventHead s).hpc.stepTargets = s.hpc.stepTargets ∧
    (ventHead s).hpc.warn = s.hpc.warn ∧ (ventHead s).hpc.armed = s.hpc.armed ∧ (ventHead s).pcc = s.pcc ∧
    (ventHead s).epm = s.epm ∧ (ventHead s).ilk = s.ilk ∧ (ventHead s).drv = s.drv ∧ (ventHead s).lnk = s.lnk ∧
    (ventHead s).pins = s.pins ∧ (ventHead s).now = s.now ∧ (ventHead s).freeCount = s.freeCount ∧
    (ventHead s).pending = s.pending := by
  simp [ventHead]

@[simp] theorem takeTargets_keeps (targets : PerHead Nat) (rampTime : Nat) (always : Bool) (s : State) :
    (takeTargets targets rampTime always s).cfg = s.cfg ∧ (takeTargets targets rampTime always s).peer = s.peer ∧
    (takeTargets targets rampTime always s).shr = s.shr ∧ (takeTargets targets rampTime always s).sdu = s.sdu ∧
    (takeTargets targets rampTime always s).seq = s.seq ∧ (takeTargets targets rampTime always s).rcp = s.rcp ∧
    (takeTargets targets rampTime always s).hpc.stepTargets = s.hpc.stepTargets ∧
    (takeTargets targets rampTime always s).hpc.warn = s.hpc.warn ∧
    (takeTargets targets rampTime always s).hpc.armed = s.hpc.armed ∧
    (takeTargets targets rampTime always s).pcc = s.pcc ∧ (takeTargets targets rampTime always s).epm = s.epm ∧
    (takeTargets targets rampTime always s).ilk = s.ilk ∧ (takeTargets targets rampTime always s).drv = s.drv ∧
    (takeTargets targets rampTime always s).lnk = s.lnk ∧ (takeTargets targets rampTime always s).pins = s.pins ∧
    (takeTargets targets rampTime always s).now = s.now ∧
    (takeTargets targets rampTime always s).freeCount = s.freeCount ∧
    (takeTargets targets rampTime always s).pending = s.pending := by
  simp [takeTargets]

@[simp] theorem takeHoldLevels_keeps (s : State) :
    (takeHoldLevels s).cfg = s.cfg ∧ (takeHoldLevels s).peer = s.peer ∧ (takeHoldLevels s).shr = s.shr ∧
    (takeHoldLevels s).sdu = s.sdu ∧ (takeHoldLevels s).seq = s.seq ∧ (takeHoldLevels s).rcp = s.rcp ∧
    (takeHoldLevels s).hpc.stepTargets = s.hpc.stepTargets ∧ (takeHoldLevels s).hpc.warn = s.hpc.warn ∧
    (takeHoldLevels s).hpc.armed = s.hpc.armed ∧ (takeHoldLevels s).pcc = s.pcc ∧ (takeHoldLevels s).epm = s.epm ∧
    (takeHoldLevels s).ilk = s.ilk ∧ (takeHoldLevels s).drv = s.drv ∧ (takeHoldLevels s).lnk = s.lnk ∧
    (takeHoldLevels s).pins = s.pins ∧ (takeHoldLevels s).now = s.now ∧ (takeHoldLevels s).freeCount = s.freeCount ∧
    (takeHoldLevels s).pending = s.pending := by
  simp [takeHoldLevels]

@[simp] theorem takeHoldOrVent_keeps (s : State) :
    (takeHoldOrVent s).cfg = s.cfg ∧ (takeHoldOrVent s).peer = s.peer ∧ (takeHoldOrVent s).shr = s.shr ∧
    (takeHoldOrVent s).sdu = s.sdu ∧ (takeHoldOrVent s).seq = s.seq ∧ (takeHoldOrVent s).rcp = s.rcp ∧
    (takeHoldOrVent s).hpc.stepTargets = s.hpc.stepTargets ∧ (takeHoldOrVent s).hpc.warn = s.hpc.warn ∧
    (takeHoldOrVent s).hpc.armed = s.hpc.armed ∧ (takeHoldOrVent s).pcc = s.pcc ∧ (takeHoldOrVent s).epm = s.epm ∧
    (takeHoldOrVent s).ilk = s.ilk ∧ (takeHoldOrVent s).drv = s.drv ∧ (takeHoldOrVent s).lnk = s.lnk ∧
    (takeHoldOrVent s).pins = s.pins ∧ (takeHoldOrVent s).now = s.now ∧ (takeHoldOrVent s).freeCount = s.freeCount ∧
    (takeHoldOrVent s).pending = s.pending := by
  simp [takeHoldOrVent]

@[simp] theorem reportClamped_keeps (s : State) :
    (reportClamped s).cfg = s.cfg ∧ (reportClamped s).peer = s.peer ∧ (reportClamped s).shr = s.shr ∧
    (reportClamped s).sdu = s.sdu ∧ (reportClamped s).seq.state = s.seq.state ∧
    (reportClamped s).seq.copy = s.seq.copy ∧ (reportClamped s).seq.index = s.seq.index ∧
    (reportClamped s).seq.causes = s.seq.causes ∧ (reportClamped s).seq.deferred = s.seq.deferred ∧
    (reportClamped s).seq.resume = s.seq.resume ∧ (reportClamped s).seq.disposition = s.seq.disposition ∧
    (reportClamped s).seq.elapsed = s.seq.elapsed ∧ (reportClamped s).seq.hold = s.seq.hold ∧
    (reportClamped s).seq.endpoint = s.seq.endpoint ∧ (reportClamped s).seq.overEnd = s.seq.overEnd ∧
    (reportClamped s).seq.record = s.seq.record ∧ (reportClamped s).seq.result = s.seq.result ∧
    (reportClamped s).seq.first = s.seq.first ∧ (reportClamped s).seq.later = s.seq.later ∧
    (reportClamped s).rcp = s.rcp ∧ (reportClamped s).hpc = s.hpc ∧ (reportClamped s).pcc = s.pcc ∧
    (reportClamped s).epm = s.epm ∧ (reportClamped s).ilk = s.ilk ∧ (reportClamped s).drv = s.drv ∧
    (reportClamped s).lnk = s.lnk ∧ (reportClamped s).pins = s.pins ∧ (reportClamped s).now = s.now ∧
    (reportClamped s).freeCount = s.freeCount ∧ (reportClamped s).pending = s.pending := by
  simp [reportClamped]

@[simp] theorem takeStepTargets_keeps (s : State) :
    (takeStepTargets s).cfg = s.cfg ∧ (takeStepTargets s).peer = s.peer ∧ (takeStepTargets s).shr = s.shr ∧
    (takeStepTargets s).sdu = s.sdu ∧ (takeStepTargets s).seq.state = s.seq.state ∧
    (takeStepTargets s).seq.copy = s.seq.copy ∧ (takeStepTargets s).seq.index = s.seq.index ∧
    (takeStepTargets s).seq.causes = s.seq.causes ∧ (takeStepTargets s).seq.deferred = s.seq.deferred ∧
    (takeStepTargets s).seq.resume = s.seq.resume ∧ (takeStepTargets s).seq.disposition = s.seq.disposition ∧
    (takeStepTargets s).seq.elapsed = s.seq.elapsed ∧ (takeStepTargets s).seq.hold = s.seq.hold ∧
    (takeStepTargets s).seq.endpoint = s.seq.endpoint ∧ (takeStepTargets s).seq.overEnd = s.seq.overEnd ∧
    (takeStepTargets s).seq.record = s.seq.record ∧ (takeStepTargets s).seq.result = s.seq.result ∧
    (takeStepTargets s).seq.first = s.seq.first ∧ (takeStepTargets s).seq.later = s.seq.later ∧
    (takeStepTargets s).rcp = s.rcp ∧ (takeStepTargets s).hpc.stepTargets = s.hpc.stepTargets ∧
    (takeStepTargets s).hpc.warn = s.hpc.warn ∧ (takeStepTargets s).hpc.armed = s.hpc.armed ∧
    (takeStepTargets s).pcc = s.pcc ∧ (takeStepTargets s).epm = s.epm ∧ (takeStepTargets s).ilk = s.ilk ∧
    (takeStepTargets s).drv = s.drv ∧ (takeStepTargets s).lnk = s.lnk ∧ (takeStepTargets s).pins = s.pins ∧
    (takeStepTargets s).now = s.now ∧ (takeStepTargets s).freeCount = s.freeCount ∧
    (takeStepTargets s).pending = s.pending := by
  simp [takeStepTargets]

@[simp] theorem requestStep_keeps (st : StepRec) (s : State) :
    (requestStep st s).cfg = s.cfg ∧ (requestStep st s).peer = s.peer ∧ (requestStep st s).shr = s.shr ∧
    (requestStep st s).sdu = s.sdu ∧ (requestStep st s).seq = s.seq ∧ (requestStep st s).rcp = s.rcp ∧
    (requestStep st s).hpc.warn = s.hpc.warn ∧ (requestStep st s).hpc.armed = s.hpc.armed ∧
    (requestStep st s).pcc = s.pcc ∧ (requestStep st s).epm = s.epm ∧ (requestStep st s).ilk = s.ilk ∧
    (requestStep st s).drv = s.drv ∧ (requestStep st s).lnk = s.lnk ∧ (requestStep st s).pins = s.pins ∧
    (requestStep st s).now = s.now ∧ (requestStep st s).freeCount = s.freeCount ∧
    (requestStep st s).pending = s.pending := by
  simp [requestStep]

@[simp] theorem rampTick_keeps (s : State) :
    (rampTick s).cfg = s.cfg ∧ (rampTick s).peer = s.peer ∧ (rampTick s).shr = s.shr ∧ (rampTick s).sdu = s.sdu ∧
    (rampTick s).seq = s.seq ∧ (rampTick s).rcp = s.rcp ∧ (rampTick s).hpc.stepTargets = s.hpc.stepTargets ∧
    (rampTick s).hpc.warn = s.hpc.warn ∧ (rampTick s).hpc.armed = s.hpc.armed ∧ (rampTick s).pcc = s.pcc ∧
    (rampTick s).epm = s.epm ∧ (rampTick s).ilk = s.ilk ∧ (rampTick s).drv = s.drv ∧ (rampTick s).lnk = s.lnk ∧
    (rampTick s).pins = s.pins ∧ (rampTick s).now = s.now ∧ (rampTick s).freeCount = s.freeCount ∧
    (rampTick s).pending = s.pending := by
  unfold rampTick
  split <;> simp

@[simp] theorem rampEnd_keeps (s : State) :
    (rampEnd s).cfg = s.cfg ∧ (rampEnd s).peer = s.peer ∧ (rampEnd s).shr = s.shr ∧ (rampEnd s).sdu = s.sdu ∧
    (rampEnd s).seq = s.seq ∧ (rampEnd s).rcp = s.rcp ∧ (rampEnd s).hpc.stepTargets = s.hpc.stepTargets ∧
    (rampEnd s).hpc.warn = s.hpc.warn ∧ (rampEnd s).hpc.armed = s.hpc.armed ∧ (rampEnd s).pcc = s.pcc ∧
    (rampEnd s).epm = s.epm ∧ (rampEnd s).ilk = s.ilk ∧ (rampEnd s).drv = s.drv ∧ (rampEnd s).lnk = s.lnk ∧
    (rampEnd s).pins = s.pins ∧ (rampEnd s).now = s.now ∧ (rampEnd s).freeCount = s.freeCount ∧
    (rampEnd s).pending = s.pending := by
  simp [rampEnd]

@[simp] theorem clearRegTimer_keeps (c : HeadCh) (s : State) :
    (clearRegTimer c s).cfg = s.cfg ∧ (clearRegTimer c s).peer = s.peer ∧ (clearRegTimer c s).shr = s.shr ∧
    (clearRegTimer c s).sdu = s.sdu ∧ (clearRegTimer c s).seq = s.seq ∧ (clearRegTimer c s).rcp = s.rcp ∧
    (clearRegTimer c s).hpc.stepTargets = s.hpc.stepTargets ∧ (clearRegTimer c s).hpc.warn = s.hpc.warn ∧
    (clearRegTimer c s).hpc.armed = s.hpc.armed ∧ (clearRegTimer c s).pcc = s.pcc ∧ (clearRegTimer c s).epm = s.epm ∧
    (clearRegTimer c s).ilk = s.ilk ∧ (clearRegTimer c s).drv = s.drv ∧ (clearRegTimer c s).lnk = s.lnk ∧
    (clearRegTimer c s).pins = s.pins ∧ (clearRegTimer c s).now = s.now ∧
    (clearRegTimer c s).freeCount = s.freeCount ∧ (clearRegTimer c s).pending = s.pending := by
  simp [clearRegTimer]

@[simp] theorem reportHigh_keeps (c : HeadCh) (s : State) :
    (reportHigh c s).cfg = s.cfg ∧ (reportHigh c s).peer = s.peer ∧ (reportHigh c s).shr = s.shr ∧
    (reportHigh c s).sdu = s.sdu ∧ (reportHigh c s).seq = s.seq ∧ (reportHigh c s).rcp = s.rcp ∧
    (reportHigh c s).hpc.stepTargets = s.hpc.stepTargets ∧ (reportHigh c s).hpc.warn = s.hpc.warn ∧
    (reportHigh c s).hpc.armed = s.hpc.armed ∧ (reportHigh c s).pcc = s.pcc ∧ (reportHigh c s).epm = s.epm ∧
    (reportHigh c s).ilk = s.ilk ∧ (reportHigh c s).drv = s.drv ∧ (reportHigh c s).lnk.stopSlot = s.lnk.stopSlot ∧
    (reportHigh c s).lnk.answers = s.lnk.answers ∧ (reportHigh c s).lnk.demandSlot = s.lnk.demandSlot ∧
    (reportHigh c s).lnk.sending = s.lnk.sending ∧ (reportHigh c s).lnk.carrier = s.lnk.carrier ∧
    (reportHigh c s).lnk.received = s.lnk.received ∧ (reportHigh c s).lnk.quiet = s.lnk.quiet ∧
    (reportHigh c s).lnk.collisionSeen = s.lnk.collisionSeen ∧
    (reportHigh c s).lnk.checkErrorSeen = s.lnk.checkErrorSeen ∧
    (reportHigh c s).lnk.malformedSeen = s.lnk.malformedSeen ∧ (reportHigh c s).lnk.dupFound = s.lnk.dupFound ∧
    (reportHigh c s).pins = s.pins ∧ (reportHigh c s).now = s.now ∧ (reportHigh c s).freeCount = s.freeCount ∧
    (reportHigh c s).pending = s.pending := by
  simp [reportHigh]

@[simp] theorem overpressureVent_keeps (c : HeadCh) (s : State) :
    (overpressureVent c s).cfg = s.cfg ∧ (overpressureVent c s).peer = s.peer ∧ (overpressureVent c s).shr = s.shr ∧
    (overpressureVent c s).sdu = s.sdu ∧ (overpressureVent c s).seq = s.seq ∧ (overpressureVent c s).rcp = s.rcp ∧
    (overpressureVent c s).hpc.stepTargets = s.hpc.stepTargets ∧ (overpressureVent c s).hpc.warn = s.hpc.warn ∧
    (overpressureVent c s).hpc.armed = s.hpc.armed ∧ (overpressureVent c s).pcc = s.pcc ∧
    (overpressureVent c s).epm = s.epm ∧ (overpressureVent c s).ilk = s.ilk ∧ (overpressureVent c s).drv = s.drv ∧
    (overpressureVent c s).lnk = s.lnk ∧ (overpressureVent c s).pins = s.pins ∧ (overpressureVent c s).now = s.now ∧
    (overpressureVent c s).freeCount = s.freeCount ∧ (overpressureVent c s).pending = s.pending := by
  simp [overpressureVent]

@[simp] theorem measure_keeps (c : HeadCh) (value : Nat) (s : State) :
    (measure c value s).cfg = s.cfg ∧ (measure c value s).peer = s.peer ∧ (measure c value s).shr = s.shr ∧
    (measure c value s).sdu = s.sdu ∧ (measure c value s).seq = s.seq ∧ (measure c value s).rcp = s.rcp ∧
    (measure c value s).hpc.stepTargets = s.hpc.stepTargets ∧ (measure c value s).hpc.warn = s.hpc.warn ∧
    (measure c value s).hpc.armed = s.hpc.armed ∧ (measure c value s).pcc = s.pcc ∧ (measure c value s).epm = s.epm ∧
    (measure c value s).ilk = s.ilk ∧ (measure c value s).drv = s.drv ∧ (measure c value s).lnk = s.lnk ∧
    (measure c value s).pins = s.pins ∧ (measure c value s).now = s.now ∧
    (measure c value s).freeCount = s.freeCount ∧ (measure c value s).pending = s.pending := by
  simp [measure]

@[simp] theorem clearChannelFaults_keeps (s : State) :
    (clearChannelFaults s).cfg = s.cfg ∧ (clearChannelFaults s).peer = s.peer ∧ (clearChannelFaults s).shr = s.shr ∧
    (clearChannelFaults s).sdu = s.sdu ∧ (clearChannelFaults s).seq = s.seq ∧ (clearChannelFaults s).rcp = s.rcp ∧
    (clearChannelFaults s).hpc.stepTargets = s.hpc.stepTargets ∧ (clearChannelFaults s).hpc.warn = s.hpc.warn ∧
    (clearChannelFaults s).hpc.armed = s.hpc.armed ∧ (clearChannelFaults s).pcc = s.pcc ∧
    (clearChannelFaults s).epm = s.epm ∧ (clearChannelFaults s).ilk = s.ilk ∧ (clearChannelFaults s).drv = s.drv ∧
    (clearChannelFaults s).lnk = s.lnk ∧ (clearChannelFaults s).pins = s.pins ∧ (clearChannelFaults s).now = s.now ∧
    (clearChannelFaults s).freeCount = s.freeCount ∧ (clearChannelFaults s).pending = s.pending := by
  simp [clearChannelFaults]

@[simp] theorem airWarn_keeps (s : State) :
    (airWarn s).cfg = s.cfg ∧ (airWarn s).peer = s.peer ∧ (airWarn s).shr = s.shr ∧ (airWarn s).sdu = s.sdu ∧
    (airWarn s).seq = s.seq ∧ (airWarn s).rcp = s.rcp ∧ (airWarn s).hpc.stepTargets = s.hpc.stepTargets ∧
    (airWarn s).pcc = s.pcc ∧ (airWarn s).epm = s.epm ∧ (airWarn s).ilk = s.ilk ∧ (airWarn s).drv = s.drv ∧
    (airWarn s).lnk.stopSlot = s.lnk.stopSlot ∧ (airWarn s).lnk.answers = s.lnk.answers ∧
    (airWarn s).lnk.demandSlot = s.lnk.demandSlot ∧ (airWarn s).lnk.sending = s.lnk.sending ∧
    (airWarn s).lnk.carrier = s.lnk.carrier ∧ (airWarn s).lnk.received = s.lnk.received ∧
    (airWarn s).lnk.quiet = s.lnk.quiet ∧ (airWarn s).lnk.collisionSeen = s.lnk.collisionSeen ∧
    (airWarn s).lnk.checkErrorSeen = s.lnk.checkErrorSeen ∧ (airWarn s).lnk.malformedSeen = s.lnk.malformedSeen ∧
    (airWarn s).lnk.dupFound = s.lnk.dupFound ∧ (airWarn s).pins = s.pins ∧ (airWarn s).now = s.now ∧
    (airWarn s).freeCount = s.freeCount ∧ (airWarn s).pending = s.pending := by
  simp [airWarn]

@[simp] theorem beginSweep_keeps (segs : List Segment) (s : State) :
    (beginSweep segs s).cfg = s.cfg ∧ (beginSweep segs s).peer = s.peer ∧ (beginSweep segs s).shr = s.shr ∧
    (beginSweep segs s).sdu = s.sdu ∧ (beginSweep segs s).seq = s.seq ∧ (beginSweep segs s).rcp = s.rcp ∧
    (beginSweep segs s).hpc = s.hpc ∧ (beginSweep segs s).pcc.radius = s.pcc.radius ∧
    (beginSweep segs s).pcc.homeFound = s.pcc.homeFound ∧ (beginSweep segs s).pcc.search = s.pcc.search ∧
    (beginSweep segs s).pcc.diskLife = s.pcc.diskLife ∧ (beginSweep segs s).pcc.diskRemainder = s.pcc.diskRemainder ∧
    (beginSweep segs s).pcc.padLife = s.pcc.padLife ∧ (beginSweep segs s).pcc.padRemainder = s.pcc.padRemainder ∧
    (beginSweep segs s).pcc.diskWarned = s.pcc.diskWarned ∧ (beginSweep segs s).pcc.padWarned = s.pcc.padWarned ∧
    (beginSweep segs s).pcc.condLost = s.pcc.condLost ∧ (beginSweep segs s).pcc.resume = s.pcc.resume ∧
    (beginSweep segs s).pcc.withdrawn = s.pcc.withdrawn ∧ (beginSweep segs s).epm = s.epm ∧
    (beginSweep segs s).ilk = s.ilk ∧ (beginSweep segs s).drv = s.drv ∧ (beginSweep segs s).lnk = s.lnk ∧
    (beginSweep segs s).pins = s.pins ∧ (beginSweep segs s).now = s.now ∧
    (beginSweep segs s).freeCount = s.freeCount ∧ (beginSweep segs s).pending = s.pending := by
  simp [beginSweep]

@[simp] theorem resumeSweep_keeps (segs : List Segment) (rp : ResumePoint) (s : State) :
    (resumeSweep segs rp s).cfg = s.cfg ∧ (resumeSweep segs rp s).peer = s.peer ∧
    (resumeSweep segs rp s).shr = s.shr ∧ (resumeSweep segs rp s).sdu = s.sdu ∧ (resumeSweep segs rp s).seq = s.seq ∧
    (resumeSweep segs rp s).rcp = s.rcp ∧ (resumeSweep segs rp s).hpc = s.hpc ∧
    (resumeSweep segs rp s).pcc.radius = s.pcc.radius ∧ (resumeSweep segs rp s).pcc.homeFound = s.pcc.homeFound ∧
    (resumeSweep segs rp s).pcc.search = s.pcc.search ∧ (resumeSweep segs rp s).pcc.diskLife = s.pcc.diskLife ∧
    (resumeSweep segs rp s).pcc.diskRemainder = s.pcc.diskRemainder ∧
    (resumeSweep segs rp s).pcc.padLife = s.pcc.padLife ∧
    (resumeSweep segs rp s).pcc.padRemainder = s.pcc.padRemainder ∧
    (resumeSweep segs rp s).pcc.diskWarned = s.pcc.diskWarned ∧
    (resumeSweep segs rp s).pcc.padWarned = s.pcc.padWarned ∧ (resumeSweep segs rp s).pcc.condLost = s.pcc.condLost ∧
    (resumeSweep segs rp s).pcc.withdrawn = s.pcc.withdrawn ∧ (resumeSweep segs rp s).epm = s.epm ∧
    (resumeSweep segs rp s).ilk = s.ilk ∧ (resumeSweep segs rp s).drv = s.drv ∧ (resumeSweep segs rp s).lnk = s.lnk ∧
    (resumeSweep segs rp s).pins = s.pins ∧ (resumeSweep segs rp s).now = s.now ∧
    (resumeSweep segs rp s).freeCount = s.freeCount ∧ (resumeSweep segs rp s).pending = s.pending := by
  simp [resumeSweep]

@[simp] theorem liftForHold_keeps (s : State) :
    (liftForHold s).cfg = s.cfg ∧ (liftForHold s).peer = s.peer ∧ (liftForHold s).shr = s.shr ∧
    (liftForHold s).sdu = s.sdu ∧ (liftForHold s).seq = s.seq ∧ (liftForHold s).rcp = s.rcp ∧
    (liftForHold s).hpc = s.hpc ∧ (liftForHold s).pcc.radius = s.pcc.radius ∧
    (liftForHold s).pcc.homeFound = s.pcc.homeFound ∧ (liftForHold s).pcc.search = s.pcc.search ∧
    (liftForHold s).pcc.diskLife = s.pcc.diskLife ∧ (liftForHold s).pcc.diskRemainder = s.pcc.diskRemainder ∧
    (liftForHold s).pcc.padLife = s.pcc.padLife ∧ (liftForHold s).pcc.padRemainder = s.pcc.padRemainder ∧
    (liftForHold s).pcc.diskWarned = s.pcc.diskWarned ∧ (liftForHold s).pcc.padWarned = s.pcc.padWarned ∧
    (liftForHold s).pcc.condLost = s.pcc.condLost ∧ (liftForHold s).pcc.withdrawn = s.pcc.withdrawn ∧
    (liftForHold s).epm = s.epm ∧ (liftForHold s).ilk = s.ilk ∧ (liftForHold s).drv = s.drv ∧
    (liftForHold s).lnk = s.lnk ∧ (liftForHold s).pins = s.pins ∧ (liftForHold s).now = s.now ∧
    (liftForHold s).freeCount = s.freeCount ∧ (liftForHold s).pending = s.pending := by
  simp [liftForHold]

@[simp] theorem liftForEnd_keeps (s : State) :
    (liftForEnd s).cfg = s.cfg ∧ (liftForEnd s).peer = s.peer ∧ (liftForEnd s).shr = s.shr ∧
    (liftForEnd s).sdu = s.sdu ∧ (liftForEnd s).seq = s.seq ∧ (liftForEnd s).rcp = s.rcp ∧
    (liftForEnd s).hpc = s.hpc ∧ (liftForEnd s).pcc.radius = s.pcc.radius ∧
    (liftForEnd s).pcc.homeFound = s.pcc.homeFound ∧ (liftForEnd s).pcc.search = s.pcc.search ∧
    (liftForEnd s).pcc.diskLife = s.pcc.diskLife ∧ (liftForEnd s).pcc.diskRemainder = s.pcc.diskRemainder ∧
    (liftForEnd s).pcc.padLife = s.pcc.padLife ∧ (liftForEnd s).pcc.padRemainder = s.pcc.padRemainder ∧
    (liftForEnd s).pcc.diskWarned = s.pcc.diskWarned ∧ (liftForEnd s).pcc.padWarned = s.pcc.padWarned ∧
    (liftForEnd s).pcc.condLost = s.pcc.condLost ∧ (liftForEnd s).epm = s.epm ∧ (liftForEnd s).ilk = s.ilk ∧
    (liftForEnd s).drv = s.drv ∧ (liftForEnd s).lnk = s.lnk ∧ (liftForEnd s).pins = s.pins ∧
    (liftForEnd s).now = s.now ∧ (liftForEnd s).freeCount = s.freeCount ∧ (liftForEnd s).pending = s.pending := by
  simp [liftForEnd]

@[simp] theorem arrive_keeps (s : State) :
    (arrive s).cfg = s.cfg ∧ (arrive s).peer = s.peer ∧ (arrive s).shr = s.shr ∧ (arrive s).sdu = s.sdu ∧
    (arrive s).seq = s.seq ∧ (arrive s).rcp = s.rcp ∧ (arrive s).hpc = s.hpc ∧ (arrive s).pcc.radius = s.pcc.radius ∧
    (arrive s).pcc.homeFound = s.pcc.homeFound ∧ (arrive s).pcc.search = s.pcc.search ∧
    (arrive s).pcc.diskLife = s.pcc.diskLife ∧ (arrive s).pcc.diskRemainder = s.pcc.diskRemainder ∧
    (arrive s).pcc.padLife = s.pcc.padLife ∧ (arrive s).pcc.padRemainder = s.pcc.padRemainder ∧
    (arrive s).pcc.diskWarned = s.pcc.diskWarned ∧ (arrive s).pcc.padWarned = s.pcc.padWarned ∧
    (arrive s).pcc.condLost = s.pcc.condLost ∧ (arrive s).pcc.withdrawn = s.pcc.withdrawn ∧ (arrive s).epm = s.epm ∧
    (arrive s).ilk = s.ilk ∧ (arrive s).drv = s.drv ∧ (arrive s).lnk = s.lnk ∧ (arrive s).pins = s.pins ∧
    (arrive s).now = s.now ∧ (arrive s).freeCount = s.freeCount ∧ (arrive s).pending = s.pending := by
  simp [arrive]

@[simp] theorem crossBoundary_keeps (s : State) :
    (crossBoundary s).cfg = s.cfg ∧ (crossBoundary s).peer = s.peer ∧ (crossBoundary s).shr = s.shr ∧
    (crossBoundary s).sdu = s.sdu ∧ (crossBoundary s).seq = s.seq ∧ (crossBoundary s).rcp = s.rcp ∧
    (crossBoundary s).hpc = s.hpc ∧ (crossBoundary s).pcc.arm = s.pcc.arm ∧
    (crossBoundary s).pcc.radius = s.pcc.radius ∧ (crossBoundary s).pcc.homeFound = s.pcc.homeFound ∧
    (crossBoundary s).pcc.search = s.pcc.search ∧ (crossBoundary s).pcc.diskLife = s.pcc.diskLife ∧
    (crossBoundary s).pcc.diskRemainder = s.pcc.diskRemainder ∧ (crossBoundary s).pcc.padLife = s.pcc.padLife ∧
    (crossBoundary s).pcc.padRemainder = s.pcc.padRemainder ∧ (crossBoundary s).pcc.diskWarned = s.pcc.diskWarned ∧
    (crossBoundary s).pcc.padWarned = s.pcc.padWarned ∧ (crossBoundary s).pcc.condLost = s.pcc.condLost ∧
    (crossBoundary s).pcc.resume = s.pcc.resume ∧ (crossBoundary s).pcc.withdrawn = s.pcc.withdrawn ∧
    (crossBoundary s).epm = s.epm ∧ (crossBoundary s).ilk = s.ilk ∧ (crossBoundary s).drv = s.drv ∧
    (crossBoundary s).lnk = s.lnk ∧ (crossBoundary s).pins = s.pins ∧ (crossBoundary s).now = s.now ∧
    (crossBoundary s).freeCount = s.freeCount ∧ (crossBoundary s).pending = s.pending := by
  unfold crossBoundary
  split <;> simp

@[simp] theorem beginSearch_keeps (s : State) :
    (beginSearch s).cfg = s.cfg ∧ (beginSearch s).peer = s.peer ∧ (beginSearch s).shr = s.shr ∧
    (beginSearch s).sdu = s.sdu ∧ (beginSearch s).seq = s.seq ∧ (beginSearch s).rcp = s.rcp ∧
    (beginSearch s).hpc = s.hpc ∧ (beginSearch s).pcc.diskLife = s.pcc.diskLife ∧
    (beginSearch s).pcc.diskRemainder = s.pcc.diskRemainder ∧ (beginSearch s).pcc.padLife = s.pcc.padLife ∧
    (beginSearch s).pcc.padRemainder = s.pcc.padRemainder ∧ (beginSearch s).pcc.diskWarned = s.pcc.diskWarned ∧
    (beginSearch s).pcc.padWarned = s.pcc.padWarned ∧ (beginSearch s).pcc.condLost = s.pcc.condLost ∧
    (beginSearch s).pcc.resume = s.pcc.resume ∧ (beginSearch s).pcc.withdrawn = s.pcc.withdrawn ∧
    (beginSearch s).epm = s.epm ∧ (beginSearch s).ilk = s.ilk ∧ (beginSearch s).drv = s.drv ∧
    (beginSearch s).lnk = s.lnk ∧ (beginSearch s).pins = s.pins ∧ (beginSearch s).now = s.now ∧
    (beginSearch s).freeCount = s.freeCount ∧ (beginSearch s).pending = s.pending := by
  simp [beginSearch]

@[simp] theorem findHome_keeps (s : State) :
    (findHome s).cfg = s.cfg ∧ (findHome s).peer = s.peer ∧ (findHome s).shr = s.shr ∧ (findHome s).sdu = s.sdu ∧
    (findHome s).seq = s.seq ∧ (findHome s).rcp = s.rcp ∧ (findHome s).hpc = s.hpc ∧
    (findHome s).pcc.arm = s.pcc.arm ∧ (findHome s).pcc.diskLife = s.pcc.diskLife ∧
    (findHome s).pcc.diskRemainder = s.pcc.diskRemainder ∧ (findHome s).pcc.padLife = s.pcc.padLife ∧
    (findHome s).pcc.padRemainder = s.pcc.padRemainder ∧ (findHome s).pcc.diskWarned = s.pcc.diskWarned ∧
    (findHome s).pcc.padWarned = s.pcc.padWarned ∧ (findHome s).pcc.condLost = s.pcc.condLost ∧
    (findHome s).pcc.resume = s.pcc.resume ∧ (findHome s).pcc.withdrawn = s.pcc.withdrawn ∧
    (findHome s).epm = s.epm ∧ (findHome s).ilk = s.ilk ∧ (findHome s).drv = s.drv ∧ (findHome s).lnk = s.lnk ∧
    (findHome s).pins = s.pins ∧ (findHome s).now = s.now ∧ (findHome s).freeCount = s.freeCount ∧
    (findHome s).pending = s.pending := by
  simp [findHome]

@[simp] theorem loseArm_keeps (cause : ArmCause) (s : State) :
    (loseArm cause s).cfg = s.cfg ∧ (loseArm cause s).peer = s.peer ∧ (loseArm cause s).shr = s.shr ∧
    (loseArm cause s).sdu = s.sdu ∧ (loseArm cause s).seq = s.seq ∧ (loseArm cause s).rcp = s.rcp ∧
    (loseArm cause s).hpc = s.hpc ∧ (loseArm cause s).pcc.radius = s.pcc.radius ∧
    (loseArm cause s).pcc.homeFound = s.pcc.homeFound ∧ (loseArm cause s).pcc.diskLife = s.pcc.diskLife ∧
    (loseArm cause s).pcc.diskRemainder = s.pcc.diskRemainder ∧ (loseArm cause s).pcc.padLife = s.pcc.padLife ∧
    (loseArm cause s).pcc.padRemainder = s.pcc.padRemainder ∧ (loseArm cause s).pcc.diskWarned = s.pcc.diskWarned ∧
    (loseArm cause s).pcc.padWarned = s.pcc.padWarned ∧ (loseArm cause s).epm = s.epm ∧
    (loseArm cause s).ilk = s.ilk ∧ (loseArm cause s).drv = s.drv ∧ (loseArm cause s).lnk.stopSlot = s.lnk.stopSlot ∧
    (loseArm cause s).lnk.answers = s.lnk.answers ∧ (loseArm cause s).lnk.demandSlot = s.lnk.demandSlot ∧
    (loseArm cause s).lnk.sending = s.lnk.sending ∧ (loseArm cause s).lnk.carrier = s.lnk.carrier ∧
    (loseArm cause s).lnk.received = s.lnk.received ∧ (loseArm cause s).lnk.quiet = s.lnk.quiet ∧
    (loseArm cause s).lnk.collisionSeen = s.lnk.collisionSeen ∧
    (loseArm cause s).lnk.checkErrorSeen = s.lnk.checkErrorSeen ∧
    (loseArm cause s).lnk.malformedSeen = s.lnk.malformedSeen ∧ (loseArm cause s).lnk.dupFound = s.lnk.dupFound ∧
    (loseArm cause s).pins = s.pins ∧ (loseArm cause s).now = s.now ∧ (loseArm cause s).freeCount = s.freeCount ∧
    (loseArm cause s).pending = s.pending := by
  simp [loseArm]

@[simp] theorem clearCondLost_keeps (s : State) :
    (clearCondLost s).cfg = s.cfg ∧ (clearCondLost s).peer = s.peer ∧ (clearCondLost s).shr = s.shr ∧
    (clearCondLost s).sdu = s.sdu ∧ (clearCondLost s).seq = s.seq ∧ (clearCondLost s).rcp = s.rcp ∧
    (clearCondLost s).hpc = s.hpc ∧ (clearCondLost s).pcc.diskLife = s.pcc.diskLife ∧
    (clearCondLost s).pcc.diskRemainder = s.pcc.diskRemainder ∧ (clearCondLost s).pcc.padLife = s.pcc.padLife ∧
    (clearCondLost s).pcc.padRemainder = s.pcc.padRemainder ∧ (clearCondLost s).pcc.diskWarned = s.pcc.diskWarned ∧
    (clearCondLost s).pcc.padWarned = s.pcc.padWarned ∧ (clearCondLost s).pcc.resume = s.pcc.resume ∧
    (clearCondLost s).pcc.withdrawn = s.pcc.withdrawn ∧ (clearCondLost s).epm = s.epm ∧
    (clearCondLost s).ilk = s.ilk ∧ (clearCondLost s).drv = s.drv ∧ (clearCondLost s).lnk = s.lnk ∧
    (clearCondLost s).pins = s.pins ∧ (clearCondLost s).now = s.now ∧ (clearCondLost s).freeCount = s.freeCount ∧
    (clearCondLost s).pending = s.pending := by
  simp [clearCondLost]

@[simp] theorem diskIncrement_keeps (s : State) :
    (diskIncrement s).cfg = s.cfg ∧ (diskIncrement s).peer = s.peer ∧ (diskIncrement s).shr = s.shr ∧
    (diskIncrement s).sdu = s.sdu ∧ (diskIncrement s).seq = s.seq ∧ (diskIncrement s).rcp = s.rcp ∧
    (diskIncrement s).hpc = s.hpc ∧ (diskIncrement s).pcc.arm = s.pcc.arm ∧
    (diskIncrement s).pcc.radius = s.pcc.radius ∧ (diskIncrement s).pcc.homeFound = s.pcc.homeFound ∧
    (diskIncrement s).pcc.search = s.pcc.search ∧ (diskIncrement s).pcc.padLife = s.pcc.padLife ∧
    (diskIncrement s).pcc.padRemainder = s.pcc.padRemainder ∧ (diskIncrement s).pcc.padWarned = s.pcc.padWarned ∧
    (diskIncrement s).pcc.condLost = s.pcc.condLost ∧ (diskIncrement s).pcc.resume = s.pcc.resume ∧
    (diskIncrement s).pcc.withdrawn = s.pcc.withdrawn ∧ (diskIncrement s).epm = s.epm ∧
    (diskIncrement s).ilk = s.ilk ∧ (diskIncrement s).drv = s.drv ∧ (diskIncrement s).lnk.stopSlot = s.lnk.stopSlot ∧
    (diskIncrement s).lnk.answers = s.lnk.answers ∧ (diskIncrement s).lnk.demandSlot = s.lnk.demandSlot ∧
    (diskIncrement s).lnk.sending = s.lnk.sending ∧ (diskIncrement s).lnk.carrier = s.lnk.carrier ∧
    (diskIncrement s).lnk.received = s.lnk.received ∧ (diskIncrement s).lnk.quiet = s.lnk.quiet ∧
    (diskIncrement s).lnk.collisionSeen = s.lnk.collisionSeen ∧
    (diskIncrement s).lnk.checkErrorSeen = s.lnk.checkErrorSeen ∧
    (diskIncrement s).lnk.malformedSeen = s.lnk.malformedSeen ∧ (diskIncrement s).lnk.dupFound = s.lnk.dupFound ∧
    (diskIncrement s).pins = s.pins ∧ (diskIncrement s).now = s.now ∧ (diskIncrement s).freeCount = s.freeCount ∧
    (diskIncrement s).pending = s.pending := by
  simp [diskIncrement]

@[simp] theorem padIncrement_keeps (s : State) :
    (padIncrement s).cfg = s.cfg ∧ (padIncrement s).peer = s.peer ∧ (padIncrement s).shr = s.shr ∧
    (padIncrement s).sdu = s.sdu ∧ (padIncrement s).seq = s.seq ∧ (padIncrement s).rcp = s.rcp ∧
    (padIncrement s).hpc = s.hpc ∧ (padIncrement s).pcc.arm = s.pcc.arm ∧
    (padIncrement s).pcc.radius = s.pcc.radius ∧ (padIncrement s).pcc.homeFound = s.pcc.homeFound ∧
    (padIncrement s).pcc.search = s.pcc.search ∧ (padIncrement s).pcc.diskLife = s.pcc.diskLife ∧
    (padIncrement s).pcc.diskRemainder = s.pcc.diskRemainder ∧ (padIncrement s).pcc.diskWarned = s.pcc.diskWarned ∧
    (padIncrement s).pcc.condLost = s.pcc.condLost ∧ (padIncrement s).pcc.resume = s.pcc.resume ∧
    (padIncrement s).pcc.withdrawn = s.pcc.withdrawn ∧ (padIncrement s).epm = s.epm ∧ (padIncrement s).ilk = s.ilk ∧
    (padIncrement s).drv = s.drv ∧ (padIncrement s).lnk.stopSlot = s.lnk.stopSlot ∧
    (padIncrement s).lnk.answers = s.lnk.answers ∧ (padIncrement s).lnk.demandSlot = s.lnk.demandSlot ∧
    (padIncrement s).lnk.sending = s.lnk.sending ∧ (padIncrement s).lnk.carrier = s.lnk.carrier ∧
    (padIncrement s).lnk.received = s.lnk.received ∧ (padIncrement s).lnk.quiet = s.lnk.quiet ∧
    (padIncrement s).lnk.collisionSeen = s.lnk.collisionSeen ∧
    (padIncrement s).lnk.checkErrorSeen = s.lnk.checkErrorSeen ∧
    (padIncrement s).lnk.malformedSeen = s.lnk.malformedSeen ∧ (padIncrement s).lnk.dupFound = s.lnk.dupFound ∧
    (padIncrement s).pins = s.pins ∧ (padIncrement s).now = s.now ∧ (padIncrement s).freeCount = s.freeCount ∧
    (padIncrement s).pending = s.pending := by
  simp [padIncrement]

@[simp] theorem matchWarned_keeps (s : State) :
    (matchWarned s).cfg = s.cfg ∧ (matchWarned s).peer = s.peer ∧ (matchWarned s).shr = s.shr ∧
    (matchWarned s).sdu = s.sdu ∧ (matchWarned s).seq = s.seq ∧ (matchWarned s).rcp = s.rcp ∧
    (matchWarned s).hpc = s.hpc ∧ (matchWarned s).pcc.arm = s.pcc.arm ∧ (matchWarned s).pcc.radius = s.pcc.radius ∧
    (matchWarned s).pcc.homeFound = s.pcc.homeFound ∧ (matchWarned s).pcc.search = s.pcc.search ∧
    (matchWarned s).pcc.diskLife = s.pcc.diskLife ∧ (matchWarned s).pcc.diskRemainder = s.pcc.diskRemainder ∧
    (matchWarned s).pcc.padLife = s.pcc.padLife ∧ (matchWarned s).pcc.padRemainder = s.pcc.padRemainder ∧
    (matchWarned s).pcc.condLost = s.pcc.condLost ∧ (matchWarned s).pcc.resume = s.pcc.resume ∧
    (matchWarned s).pcc.withdrawn = s.pcc.withdrawn ∧ (matchWarned s).epm = s.epm ∧ (matchWarned s).ilk = s.ilk ∧
    (matchWarned s).drv = s.drv ∧ (matchWarned s).lnk = s.lnk ∧ (matchWarned s).pins = s.pins ∧
    (matchWarned s).now = s.now ∧ (matchWarned s).freeCount = s.freeCount ∧ (matchWarned s).pending = s.pending := by
  simp [matchWarned]

@[simp] theorem writeBack_keeps (s : State) :
    (writeBack s).cfg = s.cfg ∧ (writeBack s).peer = s.peer ∧ (writeBack s).shr = s.shr ∧ (writeBack s).sdu = s.sdu ∧
    (writeBack s).seq = s.seq ∧ (writeBack s).rcp.slots = s.rcp.slots ∧ (writeBack s).rcp.profiles = s.rcp.profiles ∧
    (writeBack s).rcp.lock = s.rcp.lock ∧ (writeBack s).rcp.inProgress = s.rcp.inProgress ∧
    (writeBack s).rcp.op = s.rcp.op ∧ (writeBack s).hpc = s.hpc ∧ (writeBack s).pcc = s.pcc ∧
    (writeBack s).epm = s.epm ∧ (writeBack s).ilk = s.ilk ∧ (writeBack s).drv = s.drv ∧ (writeBack s).lnk = s.lnk ∧
    (writeBack s).pins = s.pins ∧ (writeBack s).now = s.now ∧ (writeBack s).freeCount = s.freeCount ∧
    (writeBack s).pending = s.pending := by
  simp [writeBack]

@[simp] theorem startSymbolizer_keeps (r : Recipe) (st : StepRec) (s : State) :
    (startSymbolizer r st s).cfg = s.cfg ∧ (startSymbolizer r st s).peer = s.peer ∧
    (startSymbolizer r st s).shr = s.shr ∧ (startSymbolizer r st s).sdu = s.sdu ∧
    (startSymbolizer r st s).seq = s.seq ∧ (startSymbolizer r st s).rcp = s.rcp ∧
    (startSymbolizer r st s).hpc = s.hpc ∧ (startSymbolizer r st s).pcc = s.pcc ∧
    (startSymbolizer r st s).epm.window = s.epm.window ∧ (startSymbolizer r st s).ilk = s.ilk ∧
    (startSymbolizer r st s).drv = s.drv ∧ (startSymbolizer r st s).lnk = s.lnk ∧
    (startSymbolizer r st s).pins = s.pins ∧ (startSymbolizer r st s).now = s.now ∧
    (startSymbolizer r st s).freeCount = s.freeCount ∧ (startSymbolizer r st s).pending = s.pending := by
  simp [startSymbolizer]

@[simp] theorem suspendSymbolizer_keeps (s : State) :
    (suspendSymbolizer s).cfg = s.cfg ∧ (suspendSymbolizer s).peer = s.peer ∧ (suspendSymbolizer s).shr = s.shr ∧
    (suspendSymbolizer s).sdu = s.sdu ∧ (suspendSymbolizer s).seq = s.seq ∧ (suspendSymbolizer s).rcp = s.rcp ∧
    (suspendSymbolizer s).hpc = s.hpc ∧ (suspendSymbolizer s).pcc = s.pcc ∧
    (suspendSymbolizer s).epm.window = s.epm.window ∧ (suspendSymbolizer s).epm.settings = s.epm.settings ∧
    (suspendSymbolizer s).ilk = s.ilk ∧ (suspendSymbolizer s).drv = s.drv ∧ (suspendSymbolizer s).lnk = s.lnk ∧
    (suspendSymbolizer s).pins = s.pins ∧ (suspendSymbolizer s).now = s.now ∧
    (suspendSymbolizer s).freeCount = s.freeCount ∧ (suspendSymbolizer s).pending = s.pending := by
  simp [suspendSymbolizer]

@[simp] theorem resumeSymbolizer_keeps (s : State) :
    (resumeSymbolizer s).cfg = s.cfg ∧ (resumeSymbolizer s).peer = s.peer ∧ (resumeSymbolizer s).shr = s.shr ∧
    (resumeSymbolizer s).sdu = s.sdu ∧ (resumeSymbolizer s).seq = s.seq ∧ (resumeSymbolizer s).rcp = s.rcp ∧
    (resumeSymbolizer s).hpc = s.hpc ∧ (resumeSymbolizer s).pcc = s.pcc ∧
    (resumeSymbolizer s).epm.window = s.epm.window ∧ (resumeSymbolizer s).epm.settings = s.epm.settings ∧
    (resumeSymbolizer s).ilk = s.ilk ∧ (resumeSymbolizer s).drv = s.drv ∧ (resumeSymbolizer s).lnk = s.lnk ∧
    (resumeSymbolizer s).pins = s.pins ∧ (resumeSymbolizer s).now = s.now ∧
    (resumeSymbolizer s).freeCount = s.freeCount ∧ (resumeSymbolizer s).pending = s.pending := by
  simp [resumeSymbolizer]

@[simp] theorem stopSymbolizer_keeps (s : State) :
    (stopSymbolizer s).cfg = s.cfg ∧ (stopSymbolizer s).peer = s.peer ∧ (stopSymbolizer s).shr = s.shr ∧
    (stopSymbolizer s).sdu = s.sdu ∧ (stopSymbolizer s).seq = s.seq ∧ (stopSymbolizer s).rcp = s.rcp ∧
    (stopSymbolizer s).hpc = s.hpc ∧ (stopSymbolizer s).pcc = s.pcc ∧ (stopSymbolizer s).epm.window = s.epm.window ∧
    (stopSymbolizer s).epm.settings = s.epm.settings ∧ (stopSymbolizer s).ilk = s.ilk ∧
    (stopSymbolizer s).drv = s.drv ∧ (stopSymbolizer s).lnk = s.lnk ∧ (stopSymbolizer s).pins = s.pins ∧
    (stopSymbolizer s).now = s.now ∧ (stopSymbolizer s).freeCount = s.freeCount ∧
    (stopSymbolizer s).pending = s.pending := by
  simp [stopSymbolizer]

@[simp] theorem symbolStep_keeps (e : EpmSettings) (s : State) :
    (symbolStep e s).cfg = s.cfg ∧ (symbolStep e s).peer = s.peer ∧ (symbolStep e s).shr = s.shr ∧
    (symbolStep e s).sdu = s.sdu ∧ (symbolStep e s).seq = s.seq ∧ (symbolStep e s).rcp = s.rcp ∧
    (symbolStep e s).hpc = s.hpc ∧ (symbolStep e s).pcc = s.pcc ∧ (symbolStep e s).epm.window = s.epm.window ∧
    (symbolStep e s).epm.settings = s.epm.settings ∧ (symbolStep e s).ilk = s.ilk ∧ (symbolStep e s).drv = s.drv ∧
    (symbolStep e s).lnk = s.lnk ∧ (symbolStep e s).pins = s.pins ∧ (symbolStep e s).now = s.now ∧
    (symbolStep e s).freeCount = s.freeCount ∧ (symbolStep e s).pending = s.pending := by
  simp [symbolStep]

@[simp] theorem matchNotice_keeps (i : Nat) (e : EpmSettings) (s : State) :
    (matchNotice i e s).cfg = s.cfg ∧ (matchNotice i e s).peer = s.peer ∧ (matchNotice i e s).shr = s.shr ∧
    (matchNotice i e s).sdu = s.sdu ∧ (matchNotice i e s).seq = s.seq ∧ (matchNotice i e s).rcp = s.rcp ∧
    (matchNotice i e s).hpc = s.hpc ∧ (matchNotice i e s).pcc = s.pcc ∧ (matchNotice i e s).epm = s.epm ∧
    (matchNotice i e s).ilk = s.ilk ∧ (matchNotice i e s).drv = s.drv ∧
    (matchNotice i e s).lnk.stopSlot = s.lnk.stopSlot ∧ (matchNotice i e s).lnk.answers = s.lnk.answers ∧
    (matchNotice i e s).lnk.demandSlot = s.lnk.demandSlot ∧ (matchNotice i e s).lnk.sending = s.lnk.sending ∧
    (matchNotice i e s).lnk.carrier = s.lnk.carrier ∧ (matchNotice i e s).lnk.received = s.lnk.received ∧
    (matchNotice i e s).lnk.quiet = s.lnk.quiet ∧ (matchNotice i e s).lnk.collisionSeen = s.lnk.collisionSeen ∧
    (matchNotice i e s).lnk.checkErrorSeen = s.lnk.checkErrorSeen ∧
    (matchNotice i e s).lnk.malformedSeen = s.lnk.malformedSeen ∧ (matchNotice i e s).lnk.dupFound = s.lnk.dupFound ∧
    (matchNotice i e s).pins = s.pins ∧ (matchNotice i e s).now = s.now ∧
    (matchNotice i e s).freeCount = s.freeCount ∧ (matchNotice i e s).pending = s.pending := by
  simp [matchNotice]

@[simp] theorem matchNotices_keeps (v : PerSig Moved) (e : EpmSettings) (s : State) :
    (matchNotices v e s).cfg = s.cfg ∧ (matchNotices v e s).peer = s.peer ∧ (matchNotices v e s).shr = s.shr ∧
    (matchNotices v e s).sdu = s.sdu ∧ (matchNotices v e s).seq = s.seq ∧ (matchNotices v e s).rcp = s.rcp ∧
    (matchNotices v e s).hpc = s.hpc ∧ (matchNotices v e s).pcc = s.pcc ∧ (matchNotices v e s).epm = s.epm ∧
    (matchNotices v e s).ilk = s.ilk ∧ (matchNotices v e s).drv = s.drv ∧
    (matchNotices v e s).lnk.stopSlot = s.lnk.stopSlot ∧ (matchNotices v e s).lnk.answers = s.lnk.answers ∧
    (matchNotices v e s).lnk.demandSlot = s.lnk.demandSlot ∧ (matchNotices v e s).lnk.sending = s.lnk.sending ∧
    (matchNotices v e s).lnk.carrier = s.lnk.carrier ∧ (matchNotices v e s).lnk.received = s.lnk.received ∧
    (matchNotices v e s).lnk.quiet = s.lnk.quiet ∧ (matchNotices v e s).lnk.collisionSeen = s.lnk.collisionSeen ∧
    (matchNotices v e s).lnk.checkErrorSeen = s.lnk.checkErrorSeen ∧
    (matchNotices v e s).lnk.malformedSeen = s.lnk.malformedSeen ∧
    (matchNotices v e s).lnk.dupFound = s.lnk.dupFound ∧ (matchNotices v e s).pins = s.pins ∧
    (matchNotices v e s).now = s.now ∧ (matchNotices v e s).freeCount = s.freeCount ∧
    (matchNotices v e s).pending = s.pending := by
  simp [matchNotices]

@[simp] theorem State.setDrive_keeps (s : State) (d : Drive) (x : DriveState) :
    (State.setDrive s d x).cfg = s.cfg ∧ (State.setDrive s d x).peer = s.peer ∧ (State.setDrive s d x).shr = s.shr ∧
    (State.setDrive s d x).sdu = s.sdu ∧ (State.setDrive s d x).seq = s.seq ∧ (State.setDrive s d x).rcp = s.rcp ∧
    (State.setDrive s d x).hpc = s.hpc ∧ (State.setDrive s d x).pcc = s.pcc ∧ (State.setDrive s d x).epm = s.epm ∧
    (State.setDrive s d x).ilk = s.ilk ∧ (State.setDrive s d x).drv.tachLost = s.drv.tachLost ∧
    (State.setDrive s d x).lnk = s.lnk ∧ (State.setDrive s d x).pins = s.pins ∧ (State.setDrive s d x).now = s.now ∧
    (State.setDrive s d x).freeCount = s.freeCount ∧ (State.setDrive s d x).pending = s.pending := by
  simp [State.setDrive]

@[simp] theorem takeStepSpeeds_keeps (s : State) :
    (takeStepSpeeds s).cfg = s.cfg ∧ (takeStepSpeeds s).peer = s.peer ∧ (takeStepSpeeds s).shr = s.shr ∧
    (takeStepSpeeds s).sdu = s.sdu ∧ (takeStepSpeeds s).seq = s.seq ∧ (takeStepSpeeds s).rcp = s.rcp ∧
    (takeStepSpeeds s).hpc = s.hpc ∧ (takeStepSpeeds s).pcc = s.pcc ∧ (takeStepSpeeds s).epm = s.epm ∧
    (takeStepSpeeds s).ilk = s.ilk ∧ (takeStepSpeeds s).drv.tachLost = s.drv.tachLost ∧
    (takeStepSpeeds s).lnk = s.lnk ∧ (takeStepSpeeds s).pins = s.pins ∧ (takeStepSpeeds s).now = s.now ∧
    (takeStepSpeeds s).freeCount = s.freeCount ∧ (takeStepSpeeds s).pending = s.pending := by
  unfold takeStepSpeeds
  split <;> simp

@[simp] theorem stopDrives_keeps (s : State) :
    (stopDrives s).cfg = s.cfg ∧ (stopDrives s).peer = s.peer ∧ (stopDrives s).shr = s.shr ∧
    (stopDrives s).sdu = s.sdu ∧ (stopDrives s).seq = s.seq ∧ (stopDrives s).rcp = s.rcp ∧
    (stopDrives s).hpc = s.hpc ∧ (stopDrives s).pcc = s.pcc ∧ (stopDrives s).epm = s.epm ∧
    (stopDrives s).ilk = s.ilk ∧ (stopDrives s).drv.tachLost = s.drv.tachLost ∧ (stopDrives s).lnk = s.lnk ∧
    (stopDrives s).pins = s.pins ∧ (stopDrives s).now = s.now ∧ (stopDrives s).freeCount = s.freeCount ∧
    (stopDrives s).pending = s.pending := by
  simp [stopDrives]

@[simp] theorem judgeSpeed_keeps (d : Drive) (s : State) :
    (judgeSpeed d s).cfg = s.cfg ∧ (judgeSpeed d s).peer = s.peer ∧ (judgeSpeed d s).shr = s.shr ∧
    (judgeSpeed d s).sdu = s.sdu ∧ (judgeSpeed d s).seq = s.seq ∧ (judgeSpeed d s).rcp = s.rcp ∧
    (judgeSpeed d s).hpc = s.hpc ∧ (judgeSpeed d s).pcc = s.pcc ∧ (judgeSpeed d s).epm = s.epm ∧
    (judgeSpeed d s).ilk = s.ilk ∧ (judgeSpeed d s).drv.tachLost = s.drv.tachLost ∧ (judgeSpeed d s).lnk = s.lnk ∧
    (judgeSpeed d s).pins = s.pins ∧ (judgeSpeed d s).now = s.now ∧ (judgeSpeed d s).freeCount = s.freeCount ∧
    (judgeSpeed d s).pending = s.pending := by
  simp [judgeSpeed]

@[simp] theorem loseTach_keeps (d : Drive) (s : State) :
    (loseTach d s).cfg = s.cfg ∧ (loseTach d s).peer = s.peer ∧ (loseTach d s).shr = s.shr ∧
    (loseTach d s).sdu = s.sdu ∧ (loseTach d s).seq = s.seq ∧ (loseTach d s).rcp = s.rcp ∧
    (loseTach d s).hpc = s.hpc ∧ (loseTach d s).pcc = s.pcc ∧ (loseTach d s).epm = s.epm ∧
    (loseTach d s).ilk = s.ilk ∧ (loseTach d s).lnk.stopSlot = s.lnk.stopSlot ∧
    (loseTach d s).lnk.answers = s.lnk.answers ∧ (loseTach d s).lnk.demandSlot = s.lnk.demandSlot ∧
    (loseTach d s).lnk.sending = s.lnk.sending ∧ (loseTach d s).lnk.carrier = s.lnk.carrier ∧
    (loseTach d s).lnk.received = s.lnk.received ∧ (loseTach d s).lnk.quiet = s.lnk.quiet ∧
    (loseTach d s).lnk.collisionSeen = s.lnk.collisionSeen ∧
    (loseTach d s).lnk.checkErrorSeen = s.lnk.checkErrorSeen ∧
    (loseTach d s).lnk.malformedSeen = s.lnk.malformedSeen ∧ (loseTach d s).lnk.dupFound = s.lnk.dupFound ∧
    (loseTach d s).pins = s.pins ∧ (loseTach d s).now = s.now ∧ (loseTach d s).freeCount = s.freeCount ∧
    (loseTach d s).pending = s.pending := by
  simp [loseTach]

@[simp] theorem restoreTach_keeps (d : Drive) (s : State) :
    (restoreTach d s).cfg = s.cfg ∧ (restoreTach d s).peer = s.peer ∧ (restoreTach d s).shr = s.shr ∧
    (restoreTach d s).sdu = s.sdu ∧ (restoreTach d s).seq = s.seq ∧ (restoreTach d s).rcp = s.rcp ∧
    (restoreTach d s).hpc = s.hpc ∧ (restoreTach d s).pcc = s.pcc ∧ (restoreTach d s).epm = s.epm ∧
    (restoreTach d s).ilk = s.ilk ∧ (restoreTach d s).drv.tachLost = s.drv.tachLost ∧
    (restoreTach d s).lnk.stopSlot = s.lnk.stopSlot ∧ (restoreTach d s).lnk.answers = s.lnk.answers ∧
    (restoreTach d s).lnk.demandSlot = s.lnk.demandSlot ∧ (restoreTach d s).lnk.sending = s.lnk.sending ∧
    (restoreTach d s).lnk.carrier = s.lnk.carrier ∧ (restoreTach d s).lnk.received = s.lnk.received ∧
    (restoreTach d s).lnk.quiet = s.lnk.quiet ∧ (restoreTach d s).lnk.collisionSeen = s.lnk.collisionSeen ∧
    (restoreTach d s).lnk.checkErrorSeen = s.lnk.checkErrorSeen ∧
    (restoreTach d s).lnk.malformedSeen = s.lnk.malformedSeen ∧ (restoreTach d s).lnk.dupFound = s.lnk.dupFound ∧
    (restoreTach d s).pins = s.pins ∧ (restoreTach d s).now = s.now ∧ (restoreTach d s).freeCount = s.freeCount ∧
    (restoreTach d s).pending = s.pending := by
  simp [restoreTach]

@[simp] theorem takeFeedback_keeps (d : Drive) (tach estimate : Nat) (s : State) :
    (takeFeedback d tach estimate s).cfg = s.cfg ∧ (takeFeedback d tach estimate s).peer = s.peer ∧
    (takeFeedback d tach estimate s).shr = s.shr ∧ (takeFeedback d tach estimate s).sdu = s.sdu ∧
    (takeFeedback d tach estimate s).seq = s.seq ∧ (takeFeedback d tach estimate s).rcp = s.rcp ∧
    (takeFeedback d tach estimate s).hpc = s.hpc ∧ (takeFeedback d tach estimate s).pcc = s.pcc ∧
    (takeFeedback d tach estimate s).epm = s.epm ∧ (takeFeedback d tach estimate s).ilk = s.ilk ∧
    (takeFeedback d tach estimate s).drv.tachLost = s.drv.tachLost ∧ (takeFeedback d tach estimate s).lnk = s.lnk ∧
    (takeFeedback d tach estimate s).now = s.now ∧ (takeFeedback d tach estimate s).freeCount = s.freeCount ∧
    (takeFeedback d tach estimate s).pending = s.pending := by
  simp [takeFeedback]

@[simp] theorem takeTachPulse_keeps (d : Drive) (s : State) :
    (takeTachPulse d s).cfg = s.cfg ∧ (takeTachPulse d s).peer = s.peer ∧ (takeTachPulse d s).shr = s.shr ∧
    (takeTachPulse d s).sdu = s.sdu ∧ (takeTachPulse d s).seq = s.seq ∧ (takeTachPulse d s).rcp = s.rcp ∧
    (takeTachPulse d s).hpc = s.hpc ∧ (takeTachPulse d s).pcc = s.pcc ∧ (takeTachPulse d s).epm = s.epm ∧
    (takeTachPulse d s).ilk = s.ilk ∧ (takeTachPulse d s).drv.tachLost = s.drv.tachLost ∧
    (takeTachPulse d s).lnk = s.lnk ∧ (takeTachPulse d s).pins = s.pins ∧ (takeTachPulse d s).now = s.now ∧
    (takeTachPulse d s).freeCount = s.freeCount ∧ (takeTachPulse d s).pending = s.pending := by
  simp [takeTachPulse]

@[simp] theorem holdTripped_keeps (d : Drive) (s : State) :
    (holdTripped d s).cfg = s.cfg ∧ (holdTripped d s).peer = s.peer ∧ (holdTripped d s).shr = s.shr ∧
    (holdTripped d s).sdu = s.sdu ∧ (holdTripped d s).seq = s.seq ∧ (holdTripped d s).rcp = s.rcp ∧
    (holdTripped d s).hpc = s.hpc ∧ (holdTripped d s).pcc = s.pcc ∧ (holdTripped d s).epm = s.epm ∧
    (holdTripped d s).ilk = s.ilk ∧ (holdTripped d s).drv.tachLost = s.drv.tachLost ∧ (holdTripped d s).lnk = s.lnk ∧
    (holdTripped d s).pins = s.pins ∧ (holdTripped d s).now = s.now ∧ (holdTripped d s).freeCount = s.freeCount ∧
    (holdTripped d s).pending = s.pending := by
  simp [holdTripped]

@[simp] theorem releaseTrip_keeps (d : Drive) (s : State) :
    (releaseTrip d s).cfg = s.cfg ∧ (releaseTrip d s).peer = s.peer ∧ (releaseTrip d s).shr = s.shr ∧
    (releaseTrip d s).sdu = s.sdu ∧ (releaseTrip d s).seq = s.seq ∧ (releaseTrip d s).rcp = s.rcp ∧
    (releaseTrip d s).hpc = s.hpc ∧ (releaseTrip d s).pcc = s.pcc ∧ (releaseTrip d s).epm = s.epm ∧
    (releaseTrip d s).ilk = s.ilk ∧ (releaseTrip d s).drv.tachLost = s.drv.tachLost ∧ (releaseTrip d s).lnk = s.lnk ∧
    (releaseTrip d s).pins = s.pins ∧ (releaseTrip d s).now = s.now ∧ (releaseTrip d s).freeCount = s.freeCount ∧
    (releaseTrip d s).pending = s.pending := by
  simp [releaseTrip]

@[simp] theorem endDriveRamp_keeps (d : Drive) (s : State) :
    (endDriveRamp d s).cfg = s.cfg ∧ (endDriveRamp d s).peer = s.peer ∧ (endDriveRamp d s).shr = s.shr ∧
    (endDriveRamp d s).sdu = s.sdu ∧ (endDriveRamp d s).seq = s.seq ∧ (endDriveRamp d s).rcp = s.rcp ∧
    (endDriveRamp d s).hpc = s.hpc ∧ (endDriveRamp d s).pcc = s.pcc ∧ (endDriveRamp d s).epm = s.epm ∧
    (endDriveRamp d s).ilk = s.ilk ∧ (endDriveRamp d s).drv.tachLost = s.drv.tachLost ∧
    (endDriveRamp d s).lnk = s.lnk ∧ (endDriveRamp d s).pins = s.pins ∧ (endDriveRamp d s).now = s.now ∧
    (endDriveRamp d s).freeCount = s.freeCount ∧ (endDriveRamp d s).pending = s.pending := by
  simp [endDriveRamp]

@[simp] theorem noticeBegun_keeps (s : State) :
    (noticeBegun s).cfg = s.cfg ∧ (noticeBegun s).peer = s.peer ∧ (noticeBegun s).shr = s.shr ∧
    (noticeBegun s).sdu = s.sdu ∧ (noticeBegun s).seq = s.seq ∧ (noticeBegun s).rcp = s.rcp ∧
    (noticeBegun s).hpc = s.hpc ∧ (noticeBegun s).pcc = s.pcc ∧ (noticeBegun s).epm = s.epm ∧
    (noticeBegun s).ilk = s.ilk ∧ (noticeBegun s).drv = s.drv ∧ (noticeBegun s).lnk.stopSlot = s.lnk.stopSlot ∧
    (noticeBegun s).lnk.answers = s.lnk.answers ∧ (noticeBegun s).lnk.demandSlot = s.lnk.demandSlot ∧
    (noticeBegun s).lnk.sending = s.lnk.sending ∧ (noticeBegun s).lnk.carrier = s.lnk.carrier ∧
    (noticeBegun s).lnk.received = s.lnk.received ∧ (noticeBegun s).lnk.quiet = s.lnk.quiet ∧
    (noticeBegun s).lnk.collisionSeen = s.lnk.collisionSeen ∧
    (noticeBegun s).lnk.checkErrorSeen = s.lnk.checkErrorSeen ∧
    (noticeBegun s).lnk.malformedSeen = s.lnk.malformedSeen ∧ (noticeBegun s).lnk.dupFound = s.lnk.dupFound ∧
    (noticeBegun s).pins = s.pins ∧ (noticeBegun s).now = s.now ∧ (noticeBegun s).freeCount = s.freeCount ∧
    (noticeBegun s).pending = s.pending := by
  simp [noticeBegun]

@[simp] theorem noticeEnded_keeps (e : RunEntry) (s : State) :
    (noticeEnded e s).cfg = s.cfg ∧ (noticeEnded e s).peer = s.peer ∧ (noticeEnded e s).shr = s.shr ∧
    (noticeEnded e s).sdu = s.sdu ∧ (noticeEnded e s).seq = s.seq ∧ (noticeEnded e s).rcp = s.rcp ∧
    (noticeEnded e s).hpc = s.hpc ∧ (noticeEnded e s).pcc = s.pcc ∧ (noticeEnded e s).epm = s.epm ∧
    (noticeEnded e s).ilk = s.ilk ∧ (noticeEnded e s).drv = s.drv ∧ (noticeEnded e s).lnk.stopSlot = s.lnk.stopSlot ∧
    (noticeEnded e s).lnk.answers = s.lnk.answers ∧ (noticeEnded e s).lnk.demandSlot = s.lnk.demandSlot ∧
    (noticeEnded e s).lnk.sending = s.lnk.sending ∧ (noticeEnded e s).lnk.carrier = s.lnk.carrier ∧
    (noticeEnded e s).lnk.received = s.lnk.received ∧ (noticeEnded e s).lnk.quiet = s.lnk.quiet ∧
    (noticeEnded e s).lnk.collisionSeen = s.lnk.collisionSeen ∧
    (noticeEnded e s).lnk.checkErrorSeen = s.lnk.checkErrorSeen ∧
    (noticeEnded e s).lnk.malformedSeen = s.lnk.malformedSeen ∧ (noticeEnded e s).lnk.dupFound = s.lnk.dupFound ∧
    (noticeEnded e s).pins = s.pins ∧ (noticeEnded e s).now = s.now ∧ (noticeEnded e s).freeCount = s.freeCount ∧
    (noticeEnded e s).pending = s.pending := by
  simp [noticeEnded]

@[simp] theorem noticeHeld_keeps (t : ResumeTarget) (s : State) :
    (noticeHeld t s).cfg = s.cfg ∧ (noticeHeld t s).peer = s.peer ∧ (noticeHeld t s).shr = s.shr ∧
    (noticeHeld t s).sdu = s.sdu ∧ (noticeHeld t s).seq = s.seq ∧ (noticeHeld t s).rcp = s.rcp ∧
    (noticeHeld t s).hpc = s.hpc ∧ (noticeHeld t s).pcc = s.pcc ∧ (noticeHeld t s).epm = s.epm ∧
    (noticeHeld t s).ilk = s.ilk ∧ (noticeHeld t s).drv = s.drv ∧ (noticeHeld t s).lnk.stopSlot = s.lnk.stopSlot ∧
    (noticeHeld t s).lnk.answers = s.lnk.answers ∧ (noticeHeld t s).lnk.demandSlot = s.lnk.demandSlot ∧
    (noticeHeld t s).lnk.sending = s.lnk.sending ∧ (noticeHeld t s).lnk.carrier = s.lnk.carrier ∧
    (noticeHeld t s).lnk.received = s.lnk.received ∧ (noticeHeld t s).lnk.quiet = s.lnk.quiet ∧
    (noticeHeld t s).lnk.collisionSeen = s.lnk.collisionSeen ∧
    (noticeHeld t s).lnk.checkErrorSeen = s.lnk.checkErrorSeen ∧
    (noticeHeld t s).lnk.malformedSeen = s.lnk.malformedSeen ∧ (noticeHeld t s).lnk.dupFound = s.lnk.dupFound ∧
    (noticeHeld t s).pins = s.pins ∧ (noticeHeld t s).now = s.now ∧ (noticeHeld t s).freeCount = s.freeCount ∧
    (noticeHeld t s).pending = s.pending := by
  simp [noticeHeld]

@[simp] theorem noticeLeft_keeps (entered : SeqState) (s : State) :
    (noticeLeft entered s).cfg = s.cfg ∧ (noticeLeft entered s).peer = s.peer ∧ (noticeLeft entered s).shr = s.shr ∧
    (noticeLeft entered s).sdu = s.sdu ∧ (noticeLeft entered s).seq = s.seq ∧ (noticeLeft entered s).rcp = s.rcp ∧
    (noticeLeft entered s).hpc = s.hpc ∧ (noticeLeft entered s).pcc = s.pcc ∧ (noticeLeft entered s).epm = s.epm ∧
    (noticeLeft entered s).ilk = s.ilk ∧ (noticeLeft entered s).drv = s.drv ∧
    (noticeLeft entered s).lnk.stopSlot = s.lnk.stopSlot ∧ (noticeLeft entered s).lnk.answers = s.lnk.answers ∧
    (noticeLeft entered s).lnk.demandSlot = s.lnk.demandSlot ∧ (noticeLeft entered s).lnk.sending = s.lnk.sending ∧
    (noticeLeft entered s).lnk.carrier = s.lnk.carrier ∧ (noticeLeft entered s).lnk.received = s.lnk.received ∧
    (noticeLeft entered s).lnk.quiet = s.lnk.quiet ∧ (noticeLeft entered s).lnk.collisionSeen = s.lnk.collisionSeen ∧
    (noticeLeft entered s).lnk.checkErrorSeen = s.lnk.checkErrorSeen ∧
    (noticeLeft entered s).lnk.malformedSeen = s.lnk.malformedSeen ∧
    (noticeLeft entered s).lnk.dupFound = s.lnk.dupFound ∧ (noticeLeft entered s).pins = s.pins ∧
    (noticeLeft entered s).now = s.now ∧ (noticeLeft entered s).freeCount = s.freeCount ∧
    (noticeLeft entered s).pending = s.pending := by
  simp [noticeLeft]

@[simp] theorem noticeFault_keeps (k : FaultKind) (later : Bool) (s : State) :
    (noticeFault k later s).cfg = s.cfg ∧ (noticeFault k later s).peer = s.peer ∧
    (noticeFault k later s).shr = s.shr ∧ (noticeFault k later s).sdu = s.sdu ∧ (noticeFault k later s).seq = s.seq ∧
    (noticeFault k later s).rcp = s.rcp ∧ (noticeFault k later s).hpc = s.hpc ∧ (noticeFault k later s).pcc = s.pcc ∧
    (noticeFault k later s).epm = s.epm ∧ (noticeFault k later s).ilk = s.ilk ∧ (noticeFault k later s).drv = s.drv ∧
    (noticeFault k later s).lnk.stopSlot = s.lnk.stopSlot ∧ (noticeFault k later s).lnk.answers = s.lnk.answers ∧
    (noticeFault k later s).lnk.demandSlot = s.lnk.demandSlot ∧ (noticeFault k later s).lnk.sending = s.lnk.sending ∧
    (noticeFault k later s).lnk.carrier = s.lnk.carrier ∧ (noticeFault k later s).lnk.received = s.lnk.received ∧
    (noticeFault k later s).lnk.quiet = s.lnk.quiet ∧
    (noticeFault k later s).lnk.collisionSeen = s.lnk.collisionSeen ∧
    (noticeFault k later s).lnk.checkErrorSeen = s.lnk.checkErrorSeen ∧
    (noticeFault k later s).lnk.malformedSeen = s.lnk.malformedSeen ∧
    (noticeFault k later s).lnk.dupFound = s.lnk.dupFound ∧ (noticeFault k later s).pins = s.pins ∧
    (noticeFault k later s).now = s.now ∧ (noticeFault k later s).freeCount = s.freeCount ∧
    (noticeFault k later s).pending = s.pending := by
  simp [noticeFault]

@[simp] theorem noticeRunEnded_keeps (timeout : Bool) (s : State) :
    (noticeRunEnded timeout s).cfg = s.cfg ∧ (noticeRunEnded timeout s).peer = s.peer ∧
    (noticeRunEnded timeout s).shr = s.shr ∧ (noticeRunEnded timeout s).sdu = s.sdu ∧
    (noticeRunEnded timeout s).seq = s.seq ∧ (noticeRunEnded timeout s).rcp.slots = s.rcp.slots ∧
    (noticeRunEnded timeout s).rcp.profiles = s.rcp.profiles ∧ (noticeRunEnded timeout s).rcp.lock = s.rcp.lock ∧
    (noticeRunEnded timeout s).rcp.inProgress = s.rcp.inProgress ∧ (noticeRunEnded timeout s).rcp.op = s.rcp.op ∧
    (noticeRunEnded timeout s).hpc = s.hpc ∧ (noticeRunEnded timeout s).pcc = s.pcc ∧
    (noticeRunEnded timeout s).epm = s.epm ∧ (noticeRunEnded timeout s).ilk = s.ilk ∧
    (noticeRunEnded timeout s).drv = s.drv ∧ (noticeRunEnded timeout s).lnk.stopSlot = s.lnk.stopSlot ∧
    (noticeRunEnded timeout s).lnk.answers = s.lnk.answers ∧
    (noticeRunEnded timeout s).lnk.demandSlot = s.lnk.demandSlot ∧
    (noticeRunEnded timeout s).lnk.sending = s.lnk.sending ∧ (noticeRunEnded timeout s).lnk.carrier = s.lnk.carrier ∧
    (noticeRunEnded timeout s).lnk.received = s.lnk.received ∧ (noticeRunEnded timeout s).lnk.quiet = s.lnk.quiet ∧
    (noticeRunEnded timeout s).lnk.collisionSeen = s.lnk.collisionSeen ∧
    (noticeRunEnded timeout s).lnk.checkErrorSeen = s.lnk.checkErrorSeen ∧
    (noticeRunEnded timeout s).lnk.malformedSeen = s.lnk.malformedSeen ∧
    (noticeRunEnded timeout s).lnk.dupFound = s.lnk.dupFound ∧ (noticeRunEnded timeout s).pins = s.pins ∧
    (noticeRunEnded timeout s).now = s.now ∧ (noticeRunEnded timeout s).freeCount = s.freeCount ∧
    (noticeRunEnded timeout s).pending = s.pending := by
  simp [noticeRunEnded]

@[simp] theorem appendEntry_keeps (e : RunEntry) (s : State) :
    (appendEntry e s).cfg = s.cfg ∧ (appendEntry e s).peer = s.peer ∧ (appendEntry e s).shr = s.shr ∧
    (appendEntry e s).sdu = s.sdu ∧ (appendEntry e s).seq.state = s.seq.state ∧
    (appendEntry e s).seq.copy = s.seq.copy ∧ (appendEntry e s).seq.index = s.seq.index ∧
    (appendEntry e s).seq.causes = s.seq.causes ∧ (appendEntry e s).seq.deferred = s.seq.deferred ∧
    (appendEntry e s).seq.resume = s.seq.resume ∧ (appendEntry e s).seq.disposition = s.seq.disposition ∧
    (appendEntry e s).seq.elapsed = s.seq.elapsed ∧ (appendEntry e s).seq.hold = s.seq.hold ∧
    (appendEntry e s).seq.endpoint = s.seq.endpoint ∧ (appendEntry e s).seq.overEnd = s.seq.overEnd ∧
    (appendEntry e s).seq.flags = s.seq.flags ∧ (appendEntry e s).seq.result = s.seq.result ∧
    (appendEntry e s).seq.first = s.seq.first ∧ (appendEntry e s).seq.later = s.seq.later ∧
    (appendEntry e s).rcp = s.rcp ∧ (appendEntry e s).hpc = s.hpc ∧ (appendEntry e s).pcc = s.pcc ∧
    (appendEntry e s).epm = s.epm ∧ (appendEntry e s).ilk = s.ilk ∧ (appendEntry e s).drv = s.drv ∧
    (appendEntry e s).lnk.stopSlot = s.lnk.stopSlot ∧ (appendEntry e s).lnk.answers = s.lnk.answers ∧
    (appendEntry e s).lnk.demandSlot = s.lnk.demandSlot ∧ (appendEntry e s).lnk.sending = s.lnk.sending ∧
    (appendEntry e s).lnk.carrier = s.lnk.carrier ∧ (appendEntry e s).lnk.received = s.lnk.received ∧
    (appendEntry e s).lnk.quiet = s.lnk.quiet ∧ (appendEntry e s).lnk.collisionSeen = s.lnk.collisionSeen ∧
    (appendEntry e s).lnk.checkErrorSeen = s.lnk.checkErrorSeen ∧
    (appendEntry e s).lnk.malformedSeen = s.lnk.malformedSeen ∧ (appendEntry e s).lnk.dupFound = s.lnk.dupFound ∧
    (appendEntry e s).pins = s.pins ∧ (appendEntry e s).now = s.now ∧ (appendEntry e s).freeCount = s.freeCount ∧
    (appendEntry e s).pending = s.pending := by
  simp [appendEntry]

@[simp] theorem clearPersist_keeps (s : State) :
    (clearPersist s).cfg = s.cfg ∧ (clearPersist s).peer = s.peer ∧ (clearPersist s).shr = s.shr ∧
    (clearPersist s).sdu.ch = s.sdu.ch ∧ (clearPersist s).sdu.di = s.sdu.di ∧
    (clearPersist s).sdu.diVolume = s.sdu.diVolume ∧ (clearPersist s).sdu.dose = s.sdu.dose ∧
    (clearPersist s).sdu.mismatch = s.sdu.mismatch ∧ (clearPersist s).sdu.rinseDone = s.sdu.rinseDone ∧
    (clearPersist s).sdu.u = s.sdu.u ∧ (clearPersist s).sdu.blend = s.sdu.blend ∧
    (clearPersist s).sdu.share = s.sdu.share ∧ (clearPersist s).seq = s.seq ∧ (clearPersist s).rcp = s.rcp ∧
    (clearPersist s).hpc = s.hpc ∧ (clearPersist s).pcc = s.pcc ∧ (clearPersist s).epm = s.epm ∧
    (clearPersist s).ilk = s.ilk ∧ (clearPersist s).drv = s.drv ∧ (clearPersist s).lnk = s.lnk ∧
    (clearPersist s).pins = s.pins ∧ (clearPersist s).now = s.now ∧ (clearPersist s).freeCount = s.freeCount ∧
    (clearPersist s).pending = s.pending := by
  simp [clearPersist]

@[simp] theorem enterRest_keeps (x : SeqState) (s : State) :
    (enterRest x s).cfg = s.cfg ∧ (enterRest x s).peer.table = s.peer.table ∧ (enterRest x s).peer.own = s.peer.own ∧
    (enterRest x s).peer.refresh = s.peer.refresh ∧ (enterRest x s).peer.quiet = s.peer.quiet ∧
    (enterRest x s).peer.isolated = s.peer.isolated ∧ (enterRest x s).shr = s.shr ∧
    (enterRest x s).sdu.diVolume = s.sdu.diVolume ∧ (enterRest x s).sdu.dose = s.sdu.dose ∧
    (enterRest x s).sdu.persist = s.sdu.persist ∧ (enterRest x s).sdu.mismatch = s.sdu.mismatch ∧
    (enterRest x s).sdu.rinseDone = s.sdu.rinseDone ∧ (enterRest x s).sdu.u = s.sdu.u ∧
    (enterRest x s).sdu.blend = s.sdu.blend ∧ (enterRest x s).sdu.share = s.sdu.share ∧
    (enterRest x s).seq.copy = s.seq.copy ∧ (enterRest x s).seq.index = s.seq.index ∧
    (enterRest x s).seq.causes = s.seq.causes ∧ (enterRest x s).seq.deferred = s.seq.deferred ∧
    (enterRest x s).seq.resume = s.seq.resume ∧ (enterRest x s).seq.disposition = s.seq.disposition ∧
    (enterRest x s).seq.elapsed = s.seq.elapsed ∧ (enterRest x s).seq.hold = s.seq.hold ∧
    (enterRest x s).seq.endpoint = s.seq.endpoint ∧ (enterRest x s).seq.overEnd = s.seq.overEnd ∧
    (enterRest x s).seq.flags = s.seq.flags ∧ (enterRest x s).seq.record = s.seq.record ∧
    (enterRest x s).seq.result = s.seq.result ∧ (enterRest x s).seq.first = s.seq.first ∧
    (enterRest x s).seq.later = s.seq.later ∧ (enterRest x s).rcp = s.rcp ∧
    (enterRest x s).hpc.stepTargets = s.hpc.stepTargets ∧ (enterRest x s).hpc.warn = s.hpc.warn ∧
    (enterRest x s).hpc.armed = s.hpc.armed ∧ (enterRest x s).pcc = s.pcc ∧
    (enterRest x s).epm.window = s.epm.window ∧ (enterRest x s).epm.settings = s.epm.settings ∧
    (enterRest x s).ilk = s.ilk ∧ (enterRest x s).drv.tachLost = s.drv.tachLost ∧ (enterRest x s).lnk = s.lnk ∧
    (enterRest x s).pins = s.pins ∧ (enterRest x s).now = s.now ∧ (enterRest x s).freeCount = s.freeCount ∧
    (enterRest x s).pending = s.pending := by
  simp [enterRest]

@[simp] theorem enterAborting_keeps (r : RunResult) (s : State) :
    (enterAborting r s).cfg = s.cfg ∧ (enterAborting r s).peer.table = s.peer.table ∧
    (enterAborting r s).peer.own = s.peer.own ∧ (enterAborting r s).peer.refresh = s.peer.refresh ∧
    (enterAborting r s).peer.quiet = s.peer.quiet ∧ (enterAborting r s).peer.isolated = s.peer.isolated ∧
    (enterAborting r s).shr = s.shr ∧ (enterAborting r s).sdu.diVolume = s.sdu.diVolume ∧
    (enterAborting r s).sdu.dose = s.sdu.dose ∧ (enterAborting r s).sdu.mismatch = s.sdu.mismatch ∧
    (enterAborting r s).sdu.rinseDone = s.sdu.rinseDone ∧ (enterAborting r s).sdu.u = s.sdu.u ∧
    (enterAborting r s).sdu.blend = s.sdu.blend ∧ (enterAborting r s).sdu.share = s.sdu.share ∧
    (enterAborting r s).seq.copy = s.seq.copy ∧ (enterAborting r s).seq.index = s.seq.index ∧
    (enterAborting r s).seq.disposition = s.seq.disposition ∧ (enterAborting r s).seq.elapsed = s.seq.elapsed ∧
    (enterAborting r s).seq.hold = s.seq.hold ∧ (enterAborting r s).seq.endpoint = s.seq.endpoint ∧
    (enterAborting r s).seq.overEnd = s.seq.overEnd ∧ (enterAborting r s).seq.flags = s.seq.flags ∧
    (enterAborting r s).seq.first = s.seq.first ∧ (enterAborting r s).seq.later = s.seq.later ∧
    (enterAborting r s).rcp = s.rcp ∧ (enterAborting r s).hpc.stepTargets = s.hpc.stepTargets ∧
    (enterAborting r s).hpc.warn = s.hpc.warn ∧ (enterAborting r s).hpc.armed = s.hpc.armed ∧
    (enterAborting r s).pcc.radius = s.pcc.radius ∧ (enterAborting r s).pcc.homeFound = s.pcc.homeFound ∧
    (enterAborting r s).pcc.search = s.pcc.search ∧ (enterAborting r s).pcc.diskLife = s.pcc.diskLife ∧
    (enterAborting r s).pcc.diskRemainder = s.pcc.diskRemainder ∧ (enterAborting r s).pcc.padLife = s.pcc.padLife ∧
    (enterAborting r s).pcc.padRemainder = s.pcc.padRemainder ∧
    (enterAborting r s).pcc.diskWarned = s.pcc.diskWarned ∧ (enterAborting r s).pcc.padWarned = s.pcc.padWarned ∧
    (enterAborting r s).pcc.condLost = s.pcc.condLost ∧ (enterAborting r s).epm.window = s.epm.window ∧
    (enterAborting r s).epm.settings = s.epm.settings ∧ (enterAborting r s).ilk = s.ilk ∧
    (enterAborting r s).drv.tachLost = s.drv.tachLost ∧ (enterAborting r s).lnk.stopSlot = s.lnk.stopSlot ∧
    (enterAborting r s).lnk.answers = s.lnk.answers ∧ (enterAborting r s).lnk.demandSlot = s.lnk.demandSlot ∧
    (enterAborting r s).lnk.sending = s.lnk.sending ∧ (enterAborting r s).lnk.carrier = s.lnk.carrier ∧
    (enterAborting r s).lnk.received = s.lnk.received ∧ (enterAborting r s).lnk.quiet = s.lnk.quiet ∧
    (enterAborting r s).lnk.collisionSeen = s.lnk.collisionSeen ∧
    (enterAborting r s).lnk.checkErrorSeen = s.lnk.checkErrorSeen ∧
    (enterAborting r s).lnk.malformedSeen = s.lnk.malformedSeen ∧ (enterAborting r s).lnk.dupFound = s.lnk.dupFound ∧
    (enterAborting r s).pins = s.pins ∧ (enterAborting r s).now = s.now ∧
    (enterAborting r s).freeCount = s.freeCount ∧ (enterAborting r s).pending = s.pending := by
  simp [enterAborting]

@[simp] theorem takeFault_keeps (k : FaultKind) (s : State) :
    (takeFault k s).cfg = s.cfg ∧ (takeFault k s).peer.table = s.peer.table ∧ (takeFault k s).peer.own = s.peer.own ∧
    (takeFault k s).peer.refresh = s.peer.refresh ∧ (takeFault k s).peer.quiet = s.peer.quiet ∧
    (takeFault k s).peer.isolated = s.peer.isolated ∧ (takeFault k s).shr = s.shr ∧
    (takeFault k s).sdu.diVolume = s.sdu.diVolume ∧ (takeFault k s).sdu.dose = s.sdu.dose ∧
    (takeFault k s).sdu.mismatch = s.sdu.mismatch ∧ (takeFault k s).sdu.rinseDone = s.sdu.rinseDone ∧
    (takeFault k s).sdu.u = s.sdu.u ∧ (takeFault k s).sdu.blend = s.sdu.blend ∧
    (takeFault k s).sdu.share = s.sdu.share ∧ (takeFault k s).seq.copy = s.seq.copy ∧
    (takeFault k s).seq.index = s.seq.index ∧ (takeFault k s).seq.disposition = s.seq.disposition ∧
    (takeFault k s).seq.elapsed = s.seq.elapsed ∧ (takeFault k s).seq.hold = s.seq.hold ∧
    (takeFault k s).seq.endpoint = s.seq.endpoint ∧ (takeFault k s).seq.overEnd = s.seq.overEnd ∧
    (takeFault k s).seq.flags = s.seq.flags ∧ (takeFault k s).rcp = s.rcp ∧
    (takeFault k s).hpc.stepTargets = s.hpc.stepTargets ∧ (takeFault k s).hpc.warn = s.hpc.warn ∧
    (takeFault k s).hpc.armed = s.hpc.armed ∧ (takeFault k s).pcc.radius = s.pcc.radius ∧
    (takeFault k s).pcc.homeFound = s.pcc.homeFound ∧ (takeFault k s).pcc.search = s.pcc.search ∧
    (takeFault k s).pcc.diskLife = s.pcc.diskLife ∧ (takeFault k s).pcc.diskRemainder = s.pcc.diskRemainder ∧
    (takeFault k s).pcc.padLife = s.pcc.padLife ∧ (takeFault k s).pcc.padRemainder = s.pcc.padRemainder ∧
    (takeFault k s).pcc.diskWarned = s.pcc.diskWarned ∧ (takeFault k s).pcc.padWarned = s.pcc.padWarned ∧
    (takeFault k s).pcc.condLost = s.pcc.condLost ∧ (takeFault k s).epm.window = s.epm.window ∧
    (takeFault k s).epm.settings = s.epm.settings ∧ (takeFault k s).ilk = s.ilk ∧
    (takeFault k s).drv.tachLost = s.drv.tachLost ∧ (takeFault k s).lnk.stopSlot = s.lnk.stopSlot ∧
    (takeFault k s).lnk.answers = s.lnk.answers ∧ (takeFault k s).lnk.demandSlot = s.lnk.demandSlot ∧
    (takeFault k s).lnk.sending = s.lnk.sending ∧ (takeFault k s).lnk.carrier = s.lnk.carrier ∧
    (takeFault k s).lnk.received = s.lnk.received ∧ (takeFault k s).lnk.quiet = s.lnk.quiet ∧
    (takeFault k s).lnk.collisionSeen = s.lnk.collisionSeen ∧
    (takeFault k s).lnk.checkErrorSeen = s.lnk.checkErrorSeen ∧
    (takeFault k s).lnk.malformedSeen = s.lnk.malformedSeen ∧ (takeFault k s).lnk.dupFound = s.lnk.dupFound ∧
    (takeFault k s).pins = s.pins ∧ (takeFault k s).now = s.now ∧ (takeFault k s).freeCount = s.freeCount ∧
    (takeFault k s).pending = s.pending := by
  unfold takeFault
  (repeat' split) <;> simp

@[simp] theorem enterHolding_keeps (t : ResumeTarget) (causes : CauseSet) (s : State) :
    (enterHolding t causes s).cfg = s.cfg ∧ (enterHolding t causes s).peer = s.peer ∧
    (enterHolding t causes s).shr = s.shr ∧ (enterHolding t causes s).sdu.ch = s.sdu.ch ∧
    (enterHolding t causes s).sdu.di = s.sdu.di ∧ (enterHolding t causes s).sdu.diVolume = s.sdu.diVolume ∧
    (enterHolding t causes s).sdu.dose = s.sdu.dose ∧ (enterHolding t causes s).sdu.mismatch = s.sdu.mismatch ∧
    (enterHolding t causes s).sdu.rinseDone = s.sdu.rinseDone ∧ (enterHolding t causes s).sdu.u = s.sdu.u ∧
    (enterHolding t causes s).sdu.blend = s.sdu.blend ∧ (enterHolding t causes s).sdu.share = s.sdu.share ∧
    (enterHolding t causes s).seq.copy = s.seq.copy ∧ (enterHolding t causes s).seq.index = s.seq.index ∧
    (enterHolding t causes s).seq.deferred = s.seq.deferred ∧
    (enterHolding t causes s).seq.disposition = s.seq.disposition ∧
    (enterHolding t causes s).seq.elapsed = s.seq.elapsed ∧ (enterHolding t causes s).seq.hold = s.seq.hold ∧
    (enterHolding t causes s).seq.endpoint = s.seq.endpoint ∧ (enterHolding t causes s).seq.overEnd = s.seq.overEnd ∧
    (enterHolding t causes s).seq.flags = s.seq.flags ∧ (enterHolding t causes s).seq.record = s.seq.record ∧
    (enterHolding t causes s).seq.result = s.seq.result ∧ (enterHolding t causes s).seq.first = s.seq.first ∧
    (enterHolding t causes s).seq.later = s.seq.later ∧ (enterHolding t causes s).rcp = s.rcp ∧
    (enterHolding t causes s).hpc.stepTargets = s.hpc.stepTargets ∧ (enterHolding t causes s).hpc.warn = s.hpc.warn ∧
    (enterHolding t causes s).hpc.armed = s.hpc.armed ∧ (enterHolding t causes s).pcc.radius = s.pcc.radius ∧
    (enterHolding t causes s).pcc.homeFound = s.pcc.homeFound ∧ (enterHolding t causes s).pcc.search = s.pcc.search ∧
    (enterHolding t causes s).pcc.diskLife = s.pcc.diskLife ∧
    (enterHolding t causes s).pcc.diskRemainder = s.pcc.diskRemainder ∧
    (enterHolding t causes s).pcc.padLife = s.pcc.padLife ∧
    (enterHolding t causes s).pcc.padRemainder = s.pcc.padRemainder ∧
    (enterHolding t causes s).pcc.diskWarned = s.pcc.diskWarned ∧
    (enterHolding t causes s).pcc.padWarned = s.pcc.padWarned ∧
    (enterHolding t causes s).pcc.condLost = s.pcc.condLost ∧
    (enterHolding t causes s).pcc.withdrawn = s.pcc.withdrawn ∧ (enterHolding t causes s).epm.window = s.epm.window ∧
    (enterHolding t causes s).epm.settings = s.epm.settings ∧ (enterHolding t causes s).ilk = s.ilk ∧
    (enterHolding t causes s).drv = s.drv ∧ (enterHolding t causes s).lnk.stopSlot = s.lnk.stopSlot ∧
    (enterHolding t causes s).lnk.answers = s.lnk.answers ∧
    (enterHolding t causes s).lnk.demandSlot = s.lnk.demandSlot ∧
    (enterHolding t causes s).lnk.sending = s.lnk.sending ∧ (enterHolding t causes s).lnk.carrier = s.lnk.carrier ∧
    (enterHolding t causes s).lnk.received = s.lnk.received ∧ (enterHolding t causes s).lnk.quiet = s.lnk.quiet ∧
    (enterHolding t causes s).lnk.collisionSeen = s.lnk.collisionSeen ∧
    (enterHolding t causes s).lnk.checkErrorSeen = s.lnk.checkErrorSeen ∧
    (enterHolding t causes s).lnk.malformedSeen = s.lnk.malformedSeen ∧
    (enterHolding t causes s).lnk.dupFound = s.lnk.dupFound ∧ (enterHolding t causes s).pins = s.pins ∧
    (enterHolding t causes s).now = s.now ∧ (enterHolding t causes s).freeCount = s.freeCount ∧
    (enterHolding t causes s).pending = s.pending := by
  simp [enterHolding]

@[simp] theorem holdFor_keeps (c : Cause) (s : State) :
    (holdFor c s).cfg = s.cfg ∧ (holdFor c s).peer = s.peer ∧ (holdFor c s).shr = s.shr ∧
    (holdFor c s).sdu.ch = s.sdu.ch ∧ (holdFor c s).sdu.di = s.sdu.di ∧ (holdFor c s).sdu.diVolume = s.sdu.diVolume ∧
    (holdFor c s).sdu.dose = s.sdu.dose ∧ (holdFor c s).sdu.mismatch = s.sdu.mismatch ∧
    (holdFor c s).sdu.rinseDone = s.sdu.rinseDone ∧ (holdFor c s).sdu.u = s.sdu.u ∧
    (holdFor c s).sdu.blend = s.sdu.blend ∧ (holdFor c s).sdu.share = s.sdu.share ∧
    (holdFor c s).seq.copy = s.seq.copy ∧ (holdFor c s).seq.index = s.seq.index ∧
    (holdFor c s).seq.disposition = s.seq.disposition ∧ (holdFor c s).seq.elapsed = s.seq.elapsed ∧
    (holdFor c s).seq.hold = s.seq.hold ∧ (holdFor c s).seq.endpoint = s.seq.endpoint ∧
    (holdFor c s).seq.overEnd = s.seq.overEnd ∧ (holdFor c s).seq.flags = s.seq.flags ∧
    (holdFor c s).seq.record = s.seq.record ∧ (holdFor c s).seq.result = s.seq.result ∧
    (holdFor c s).seq.first = s.seq.first ∧ (holdFor c s).seq.later = s.seq.later ∧ (holdFor c s).rcp = s.rcp ∧
    (holdFor c s).hpc.stepTargets = s.hpc.stepTargets ∧ (holdFor c s).hpc.warn = s.hpc.warn ∧
    (holdFor c s).hpc.armed = s.hpc.armed ∧ (holdFor c s).pcc.radius = s.pcc.radius ∧
    (holdFor c s).pcc.homeFound = s.pcc.homeFound ∧ (holdFor c s).pcc.search = s.pcc.search ∧
    (holdFor c s).pcc.diskLife = s.pcc.diskLife ∧ (holdFor c s).pcc.diskRemainder = s.pcc.diskRemainder ∧
    (holdFor c s).pcc.padLife = s.pcc.padLife ∧ (holdFor c s).pcc.padRemainder = s.pcc.padRemainder ∧
    (holdFor c s).pcc.diskWarned = s.pcc.diskWarned ∧ (holdFor c s).pcc.padWarned = s.pcc.padWarned ∧
    (holdFor c s).pcc.condLost = s.pcc.condLost ∧ (holdFor c s).pcc.withdrawn = s.pcc.withdrawn ∧
    (holdFor c s).epm.window = s.epm.window ∧ (holdFor c s).epm.settings = s.epm.settings ∧
    (holdFor c s).ilk = s.ilk ∧ (holdFor c s).drv = s.drv ∧ (holdFor c s).lnk.stopSlot = s.lnk.stopSlot ∧
    (holdFor c s).lnk.answers = s.lnk.answers ∧ (holdFor c s).lnk.demandSlot = s.lnk.demandSlot ∧
    (holdFor c s).lnk.sending = s.lnk.sending ∧ (holdFor c s).lnk.carrier = s.lnk.carrier ∧
    (holdFor c s).lnk.received = s.lnk.received ∧ (holdFor c s).lnk.quiet = s.lnk.quiet ∧
    (holdFor c s).lnk.collisionSeen = s.lnk.collisionSeen ∧ (holdFor c s).lnk.checkErrorSeen = s.lnk.checkErrorSeen ∧
    (holdFor c s).lnk.malformedSeen = s.lnk.malformedSeen ∧ (holdFor c s).lnk.dupFound = s.lnk.dupFound ∧
    (holdFor c s).pins = s.pins ∧ (holdFor c s).now = s.now ∧ (holdFor c s).freeCount = s.freeCount ∧
    (holdFor c s).pending = s.pending := by
  unfold holdFor
  split <;> simp

@[simp] theorem abortRun_keeps (r : RunResult) (s : State) :
    (abortRun r s).cfg = s.cfg ∧ (abortRun r s).peer.table = s.peer.table ∧ (abortRun r s).peer.own = s.peer.own ∧
    (abortRun r s).peer.refresh = s.peer.refresh ∧ (abortRun r s).peer.quiet = s.peer.quiet ∧
    (abortRun r s).peer.isolated = s.peer.isolated ∧ (abortRun r s).shr = s.shr ∧
    (abortRun r s).sdu.diVolume = s.sdu.diVolume ∧ (abortRun r s).sdu.dose = s.sdu.dose ∧
    (abortRun r s).sdu.mismatch = s.sdu.mismatch ∧ (abortRun r s).sdu.rinseDone = s.sdu.rinseDone ∧
    (abortRun r s).sdu.u = s.sdu.u ∧ (abortRun r s).sdu.blend = s.sdu.blend ∧
    (abortRun r s).sdu.share = s.sdu.share ∧ (abortRun r s).seq.copy = s.seq.copy ∧
    (abortRun r s).seq.index = s.seq.index ∧ (abortRun r s).seq.disposition = s.seq.disposition ∧
    (abortRun r s).seq.elapsed = s.seq.elapsed ∧ (abortRun r s).seq.hold = s.seq.hold ∧
    (abortRun r s).seq.endpoint = s.seq.endpoint ∧ (abortRun r s).seq.overEnd = s.seq.overEnd ∧
    (abortRun r s).seq.flags = s.seq.flags ∧ (abortRun r s).seq.first = s.seq.first ∧
    (abortRun r s).seq.later = s.seq.later ∧ (abortRun r s).rcp = s.rcp ∧
    (abortRun r s).hpc.stepTargets = s.hpc.stepTargets ∧ (abortRun r s).hpc.warn = s.hpc.warn ∧
    (abortRun r s).hpc.armed = s.hpc.armed ∧ (abortRun r s).pcc.radius = s.pcc.radius ∧
    (abortRun r s).pcc.homeFound = s.pcc.homeFound ∧ (abortRun r s).pcc.search = s.pcc.search ∧
    (abortRun r s).pcc.diskLife = s.pcc.diskLife ∧ (abortRun r s).pcc.diskRemainder = s.pcc.diskRemainder ∧
    (abortRun r s).pcc.padLife = s.pcc.padLife ∧ (abortRun r s).pcc.padRemainder = s.pcc.padRemainder ∧
    (abortRun r s).pcc.diskWarned = s.pcc.diskWarned ∧ (abortRun r s).pcc.padWarned = s.pcc.padWarned ∧
    (abortRun r s).pcc.condLost = s.pcc.condLost ∧ (abortRun r s).epm.window = s.epm.window ∧
    (abortRun r s).epm.settings = s.epm.settings ∧ (abortRun r s).ilk = s.ilk ∧
    (abortRun r s).drv.tachLost = s.drv.tachLost ∧ (abortRun r s).lnk.stopSlot = s.lnk.stopSlot ∧
    (abortRun r s).lnk.answers = s.lnk.answers ∧ (abortRun r s).lnk.demandSlot = s.lnk.demandSlot ∧
    (abortRun r s).lnk.sending = s.lnk.sending ∧ (abortRun r s).lnk.carrier = s.lnk.carrier ∧
    (abortRun r s).lnk.received = s.lnk.received ∧ (abortRun r s).lnk.quiet = s.lnk.quiet ∧
    (abortRun r s).lnk.collisionSeen = s.lnk.collisionSeen ∧
    (abortRun r s).lnk.checkErrorSeen = s.lnk.checkErrorSeen ∧
    (abortRun r s).lnk.malformedSeen = s.lnk.malformedSeen ∧ (abortRun r s).lnk.dupFound = s.lnk.dupFound ∧
    (abortRun r s).pins = s.pins ∧ (abortRun r s).now = s.now ∧ (abortRun r s).freeCount = s.freeCount ∧
    (abortRun r s).pending = s.pending := by
  simp [abortRun]

@[simp] theorem flagCondLost_keeps (s : State) :
    (flagCondLost s).cfg = s.cfg ∧ (flagCondLost s).peer = s.peer ∧ (flagCondLost s).shr = s.shr ∧
    (flagCondLost s).sdu = s.sdu ∧ (flagCondLost s).seq.state = s.seq.state ∧
    (flagCondLost s).seq.copy = s.seq.copy ∧ (flagCondLost s).seq.index = s.seq.index ∧
    (flagCondLost s).seq.causes = s.seq.causes ∧ (flagCondLost s).seq.deferred = s.seq.deferred ∧
    (flagCondLost s).seq.resume = s.seq.resume ∧ (flagCondLost s).seq.disposition = s.seq.disposition ∧
    (flagCondLost s).seq.elapsed = s.seq.elapsed ∧ (flagCondLost s).seq.hold = s.seq.hold ∧
    (flagCondLost s).seq.endpoint = s.seq.endpoint ∧ (flagCondLost s).seq.overEnd = s.seq.overEnd ∧
    (flagCondLost s).seq.record = s.seq.record ∧ (flagCondLost s).seq.result = s.seq.result ∧
    (flagCondLost s).seq.first = s.seq.first ∧ (flagCondLost s).seq.later = s.seq.later ∧
    (flagCondLost s).rcp = s.rcp ∧ (flagCondLost s).hpc = s.hpc ∧ (flagCondLost s).pcc = s.pcc ∧
    (flagCondLost s).epm = s.epm ∧ (flagCondLost s).ilk = s.ilk ∧ (flagCondLost s).drv = s.drv ∧
    (flagCondLost s).lnk = s.lnk ∧ (flagCondLost s).pins = s.pins ∧ (flagCondLost s).now = s.now ∧
    (flagCondLost s).freeCount = s.freeCount ∧ (flagCondLost s).pending = s.pending := by
  simp [flagCondLost]

@[simp] theorem armFault_keeps (cause : ArmCause) (s : State) :
    (armFault cause s).cfg = s.cfg ∧ (armFault cause s).peer = s.peer ∧ (armFault cause s).shr = s.shr ∧
    (armFault cause s).sdu.ch = s.sdu.ch ∧ (armFault cause s).sdu.di = s.sdu.di ∧
    (armFault cause s).sdu.diVolume = s.sdu.diVolume ∧ (armFault cause s).sdu.dose = s.sdu.dose ∧
    (armFault cause s).sdu.mismatch = s.sdu.mismatch ∧ (armFault cause s).sdu.rinseDone = s.sdu.rinseDone ∧
    (armFault cause s).sdu.u = s.sdu.u ∧ (armFault cause s).sdu.blend = s.sdu.blend ∧
    (armFault cause s).sdu.share = s.sdu.share ∧ (armFault cause s).seq.copy = s.seq.copy ∧
    (armFault cause s).seq.index = s.seq.index ∧ (armFault cause s).seq.deferred = s.seq.deferred ∧
    (armFault cause s).seq.disposition = s.seq.disposition ∧ (armFault cause s).seq.elapsed = s.seq.elapsed ∧
    (armFault cause s).seq.hold = s.seq.hold ∧ (armFault cause s).seq.endpoint = s.seq.endpoint ∧
    (armFault cause s).seq.overEnd = s.seq.overEnd ∧ (armFault cause s).seq.record = s.seq.record ∧
    (armFault cause s).seq.result = s.seq.result ∧ (armFault cause s).seq.first = s.seq.first ∧
    (armFault cause s).seq.later = s.seq.later ∧ (armFault cause s).rcp = s.rcp ∧
    (armFault cause s).hpc.stepTargets = s.hpc.stepTargets ∧ (armFault cause s).hpc.warn = s.hpc.warn ∧
    (armFault cause s).hpc.armed = s.hpc.armed ∧ (armFault cause s).pcc.radius = s.pcc.radius ∧
    (armFault cause s).pcc.homeFound = s.pcc.homeFound ∧ (armFault cause s).pcc.diskLife = s.pcc.diskLife ∧
    (armFault cause s).pcc.diskRemainder = s.pcc.diskRemainder ∧ (armFault cause s).pcc.padLife = s.pcc.padLife ∧
    (armFault cause s).pcc.padRemainder = s.pcc.padRemainder ∧ (armFault cause s).pcc.diskWarned = s.pcc.diskWarned ∧
    (armFault cause s).pcc.padWarned = s.pcc.padWarned ∧ (armFault cause s).epm.window = s.epm.window ∧
    (armFault cause s).epm.settings = s.epm.settings ∧ (armFault cause s).ilk = s.ilk ∧
    (armFault cause s).drv = s.drv ∧ (armFault cause s).lnk.stopSlot = s.lnk.stopSlot ∧
    (armFault cause s).lnk.answers = s.lnk.answers ∧ (armFault cause s).lnk.demandSlot = s.lnk.demandSlot ∧
    (armFault cause s).lnk.sending = s.lnk.sending ∧ (armFault cause s).lnk.carrier = s.lnk.carrier ∧
    (armFault cause s).lnk.received = s.lnk.received ∧ (armFault cause s).lnk.quiet = s.lnk.quiet ∧
    (armFault cause s).lnk.collisionSeen = s.lnk.collisionSeen ∧
    (armFault cause s).lnk.checkErrorSeen = s.lnk.checkErrorSeen ∧
    (armFault cause s).lnk.malformedSeen = s.lnk.malformedSeen ∧ (armFault cause s).lnk.dupFound = s.lnk.dupFound ∧
    (armFault cause s).pins = s.pins ∧ (armFault cause s).now = s.now ∧ (armFault cause s).freeCount = s.freeCount ∧
    (armFault cause s).pending = s.pending := by
  unfold armFault
  dsimp only
  (repeat' split) <;> simp

@[simp] theorem enterEnding_keeps (s : State) :
    (enterEnding s).cfg = s.cfg ∧ (enterEnding s).peer.table = s.peer.table ∧ (enterEnding s).peer.own = s.peer.own ∧
    (enterEnding s).peer.refresh = s.peer.refresh ∧ (enterEnding s).peer.quiet = s.peer.quiet ∧
    (enterEnding s).peer.isolated = s.peer.isolated ∧ (enterEnding s).shr = s.shr ∧
    (enterEnding s).sdu.dose = s.sdu.dose ∧ (enterEnding s).sdu.mismatch = s.sdu.mismatch ∧
    (enterEnding s).sdu.u = s.sdu.u ∧ (enterEnding s).sdu.blend = s.sdu.blend ∧
    (enterEnding s).sdu.share = s.sdu.share ∧ (enterEnding s).seq.copy = s.seq.copy ∧
    (enterEnding s).seq.index = s.seq.index ∧ (enterEnding s).seq.disposition = s.seq.disposition ∧
    (enterEnding s).seq.elapsed = s.seq.elapsed ∧ (enterEnding s).seq.hold = s.seq.hold ∧
    (enterEnding s).seq.endpoint = s.seq.endpoint ∧ (enterEnding s).seq.overEnd = s.seq.overEnd ∧
    (enterEnding s).seq.flags = s.seq.flags ∧ (enterEnding s).rcp = s.rcp ∧
    (enterEnding s).hpc.stepTargets = s.hpc.stepTargets ∧ (enterEnding s).hpc.warn = s.hpc.warn ∧
    (enterEnding s).hpc.armed = s.hpc.armed ∧ (enterEnding s).pcc.radius = s.pcc.radius ∧
    (enterEnding s).pcc.homeFound = s.pcc.homeFound ∧ (enterEnding s).pcc.search = s.pcc.search ∧
    (enterEnding s).pcc.diskLife = s.pcc.diskLife ∧ (enterEnding s).pcc.diskRemainder = s.pcc.diskRemainder ∧
    (enterEnding s).pcc.padLife = s.pcc.padLife ∧ (enterEnding s).pcc.padRemainder = s.pcc.padRemainder ∧
    (enterEnding s).pcc.diskWarned = s.pcc.diskWarned ∧ (enterEnding s).pcc.padWarned = s.pcc.padWarned ∧
    (enterEnding s).pcc.condLost = s.pcc.condLost ∧ (enterEnding s).epm.window = s.epm.window ∧
    (enterEnding s).epm.settings = s.epm.settings ∧ (enterEnding s).ilk = s.ilk ∧
    (enterEnding s).drv.tachLost = s.drv.tachLost ∧ (enterEnding s).lnk.stopSlot = s.lnk.stopSlot ∧
    (enterEnding s).lnk.answers = s.lnk.answers ∧ (enterEnding s).lnk.demandSlot = s.lnk.demandSlot ∧
    (enterEnding s).lnk.sending = s.lnk.sending ∧ (enterEnding s).lnk.carrier = s.lnk.carrier ∧
    (enterEnding s).lnk.received = s.lnk.received ∧ (enterEnding s).lnk.quiet = s.lnk.quiet ∧
    (enterEnding s).lnk.collisionSeen = s.lnk.collisionSeen ∧
    (enterEnding s).lnk.checkErrorSeen = s.lnk.checkErrorSeen ∧
    (enterEnding s).lnk.malformedSeen = s.lnk.malformedSeen ∧ (enterEnding s).lnk.dupFound = s.lnk.dupFound ∧
    (enterEnding s).pins = s.pins ∧ (enterEnding s).now = s.now ∧ (enterEnding s).freeCount = s.freeCount ∧
    (enterEnding s).pending = s.pending := by
  simp [enterEnding]

@[simp] theorem endStep_keeps (r : StepResult) (s : State) :
    (endStep r s).cfg = s.cfg ∧ (endStep r s).peer.table = s.peer.table ∧ (endStep r s).peer.own = s.peer.own ∧
    (endStep r s).peer.refresh = s.peer.refresh ∧ (endStep r s).peer.quiet = s.peer.quiet ∧
    (endStep r s).peer.isolated = s.peer.isolated ∧ (endStep r s).shr = s.shr ∧ (endStep r s).sdu.dose = s.sdu.dose ∧
    (endStep r s).sdu.mismatch = s.sdu.mismatch ∧ (endStep r s).sdu.u = s.sdu.u ∧
    (endStep r s).sdu.blend = s.sdu.blend ∧ (endStep r s).sdu.share = s.sdu.share ∧
    (endStep r s).seq.copy = s.seq.copy ∧ (endStep r s).seq.index = s.seq.index ∧
    (endStep r s).seq.disposition = s.seq.disposition ∧ (endStep r s).seq.elapsed = s.seq.elapsed ∧
    (endStep r s).seq.hold = s.seq.hold ∧ (endStep r s).seq.endpoint = s.seq.endpoint ∧
    (endStep r s).seq.overEnd = s.seq.overEnd ∧ (endStep r s).seq.flags = s.seq.flags ∧ (endStep r s).rcp = s.rcp ∧
    (endStep r s).hpc.stepTargets = s.hpc.stepTargets ∧ (endStep r s).hpc.warn = s.hpc.warn ∧
    (endStep r s).hpc.armed = s.hpc.armed ∧ (endStep r s).pcc.radius = s.pcc.radius ∧
    (endStep r s).pcc.homeFound = s.pcc.homeFound ∧ (endStep r s).pcc.search = s.pcc.search ∧
    (endStep r s).pcc.diskLife = s.pcc.diskLife ∧ (endStep r s).pcc.diskRemainder = s.pcc.diskRemainder ∧
    (endStep r s).pcc.padLife = s.pcc.padLife ∧ (endStep r s).pcc.padRemainder = s.pcc.padRemainder ∧
    (endStep r s).pcc.diskWarned = s.pcc.diskWarned ∧ (endStep r s).pcc.padWarned = s.pcc.padWarned ∧
    (endStep r s).pcc.condLost = s.pcc.condLost ∧ (endStep r s).epm.window = s.epm.window ∧
    (endStep r s).epm.settings = s.epm.settings ∧ (endStep r s).ilk = s.ilk ∧
    (endStep r s).drv.tachLost = s.drv.tachLost ∧ (endStep r s).lnk.stopSlot = s.lnk.stopSlot ∧
    (endStep r s).lnk.answers = s.lnk.answers ∧ (endStep r s).lnk.demandSlot = s.lnk.demandSlot ∧
    (endStep r s).lnk.sending = s.lnk.sending ∧ (endStep r s).lnk.carrier = s.lnk.carrier ∧
    (endStep r s).lnk.received = s.lnk.received ∧ (endStep r s).lnk.quiet = s.lnk.quiet ∧
    (endStep r s).lnk.collisionSeen = s.lnk.collisionSeen ∧ (endStep r s).lnk.checkErrorSeen = s.lnk.checkErrorSeen ∧
    (endStep r s).lnk.malformedSeen = s.lnk.malformedSeen ∧ (endStep r s).lnk.dupFound = s.lnk.dupFound ∧
    (endStep r s).pins = s.pins ∧ (endStep r s).now = s.now ∧ (endStep r s).freeCount = s.freeCount ∧
    (endStep r s).pending = s.pending := by
  simp [endStep]

@[simp] theorem checkDose_keeps (s : State) :
    (checkDose s).cfg = s.cfg ∧ (checkDose s).peer.table = s.peer.table ∧ (checkDose s).peer.own = s.peer.own ∧
    (checkDose s).peer.refresh = s.peer.refresh ∧ (checkDose s).peer.quiet = s.peer.quiet ∧
    (checkDose s).peer.isolated = s.peer.isolated ∧ (checkDose s).shr = s.shr ∧ (checkDose s).sdu.dose = s.sdu.dose ∧
    (checkDose s).sdu.mismatch = s.sdu.mismatch ∧ (checkDose s).sdu.u = s.sdu.u ∧
    (checkDose s).sdu.blend = s.sdu.blend ∧ (checkDose s).sdu.share = s.sdu.share ∧
    (checkDose s).seq.copy = s.seq.copy ∧ (checkDose s).seq.index = s.seq.index ∧
    (checkDose s).seq.disposition = s.seq.disposition ∧ (checkDose s).seq.elapsed = s.seq.elapsed ∧
    (checkDose s).seq.hold = s.seq.hold ∧ (checkDose s).seq.endpoint = s.seq.endpoint ∧
    (checkDose s).seq.overEnd = s.seq.overEnd ∧ (checkDose s).seq.flags = s.seq.flags ∧ (checkDose s).rcp = s.rcp ∧
    (checkDose s).hpc.stepTargets = s.hpc.stepTargets ∧ (checkDose s).hpc.warn = s.hpc.warn ∧
    (checkDose s).hpc.armed = s.hpc.armed ∧ (checkDose s).pcc.radius = s.pcc.radius ∧
    (checkDose s).pcc.homeFound = s.pcc.homeFound ∧ (checkDose s).pcc.search = s.pcc.search ∧
    (checkDose s).pcc.diskLife = s.pcc.diskLife ∧ (checkDose s).pcc.diskRemainder = s.pcc.diskRemainder ∧
    (checkDose s).pcc.padLife = s.pcc.padLife ∧ (checkDose s).pcc.padRemainder = s.pcc.padRemainder ∧
    (checkDose s).pcc.diskWarned = s.pcc.diskWarned ∧ (checkDose s).pcc.padWarned = s.pcc.padWarned ∧
    (checkDose s).pcc.condLost = s.pcc.condLost ∧ (checkDose s).epm.window = s.epm.window ∧
    (checkDose s).epm.settings = s.epm.settings ∧ (checkDose s).ilk = s.ilk ∧
    (checkDose s).drv.tachLost = s.drv.tachLost ∧ (checkDose s).lnk.stopSlot = s.lnk.stopSlot ∧
    (checkDose s).lnk.answers = s.lnk.answers ∧ (checkDose s).lnk.demandSlot = s.lnk.demandSlot ∧
    (checkDose s).lnk.sending = s.lnk.sending ∧ (checkDose s).lnk.carrier = s.lnk.carrier ∧
    (checkDose s).lnk.received = s.lnk.received ∧ (checkDose s).lnk.quiet = s.lnk.quiet ∧
    (checkDose s).lnk.collisionSeen = s.lnk.collisionSeen ∧ (checkDose s).lnk.checkErrorSeen = s.lnk.checkErrorSeen ∧
    (checkDose s).lnk.malformedSeen = s.lnk.malformedSeen ∧ (checkDose s).lnk.dupFound = s.lnk.dupFound ∧
    (checkDose s).pins = s.pins ∧ (checkDose s).now = s.now ∧ (checkDose s).freeCount = s.freeCount ∧
    (checkDose s).pending = s.pending := by
  simp [checkDose]

@[simp] theorem missEndpoint_keeps (s : State) :
    (missEndpoint s).cfg = s.cfg ∧ (missEndpoint s).peer.table = s.peer.table ∧
    (missEndpoint s).peer.own = s.peer.own ∧ (missEndpoint s).peer.refresh = s.peer.refresh ∧
    (missEndpoint s).peer.quiet = s.peer.quiet ∧ (missEndpoint s).peer.isolated = s.peer.isolated ∧
    (missEndpoint s).shr = s.shr ∧ (missEndpoint s).sdu.dose = s.sdu.dose ∧
    (missEndpoint s).sdu.mismatch = s.sdu.mismatch ∧ (missEndpoint s).sdu.u = s.sdu.u ∧
    (missEndpoint s).sdu.blend = s.sdu.blend ∧ (missEndpoint s).sdu.share = s.sdu.share ∧
    (missEndpoint s).seq.copy = s.seq.copy ∧ (missEndpoint s).seq.index = s.seq.index ∧
    (missEndpoint s).seq.elapsed = s.seq.elapsed ∧ (missEndpoint s).seq.hold = s.seq.hold ∧
    (missEndpoint s).seq.endpoint = s.seq.endpoint ∧ (missEndpoint s).seq.overEnd = s.seq.overEnd ∧
    (missEndpoint s).seq.flags = s.seq.flags ∧ (missEndpoint s).rcp = s.rcp ∧
    (missEndpoint s).hpc.stepTargets = s.hpc.stepTargets ∧ (missEndpoint s).hpc.warn = s.hpc.warn ∧
    (missEndpoint s).hpc.armed = s.hpc.armed ∧ (missEndpoint s).pcc.radius = s.pcc.radius ∧
    (missEndpoint s).pcc.homeFound = s.pcc.homeFound ∧ (missEndpoint s).pcc.search = s.pcc.search ∧
    (missEndpoint s).pcc.diskLife = s.pcc.diskLife ∧ (missEndpoint s).pcc.diskRemainder = s.pcc.diskRemainder ∧
    (missEndpoint s).pcc.padLife = s.pcc.padLife ∧ (missEndpoint s).pcc.padRemainder = s.pcc.padRemainder ∧
    (missEndpoint s).pcc.diskWarned = s.pcc.diskWarned ∧ (missEndpoint s).pcc.padWarned = s.pcc.padWarned ∧
    (missEndpoint s).pcc.condLost = s.pcc.condLost ∧ (missEndpoint s).epm.window = s.epm.window ∧
    (missEndpoint s).epm.settings = s.epm.settings ∧ (missEndpoint s).ilk = s.ilk ∧
    (missEndpoint s).drv.tachLost = s.drv.tachLost ∧ (missEndpoint s).lnk.stopSlot = s.lnk.stopSlot ∧
    (missEndpoint s).lnk.answers = s.lnk.answers ∧ (missEndpoint s).lnk.demandSlot = s.lnk.demandSlot ∧
    (missEndpoint s).lnk.sending = s.lnk.sending ∧ (missEndpoint s).lnk.carrier = s.lnk.carrier ∧
    (missEndpoint s).lnk.received = s.lnk.received ∧ (missEndpoint s).lnk.quiet = s.lnk.quiet ∧
    (missEndpoint s).lnk.collisionSeen = s.lnk.collisionSeen ∧
    (missEndpoint s).lnk.checkErrorSeen = s.lnk.checkErrorSeen ∧
    (missEndpoint s).lnk.malformedSeen = s.lnk.malformedSeen ∧ (missEndpoint s).lnk.dupFound = s.lnk.dupFound ∧
    (missEndpoint s).pins = s.pins ∧ (missEndpoint s).now = s.now ∧ (missEndpoint s).freeCount = s.freeCount ∧
    (missEndpoint s).pending = s.pending := by
  unfold missEndpoint
  dsimp only
  (repeat' split) <;> simp

@[simp] theorem reachLimit_keeps (s : State) :
    (reachLimit s).cfg = s.cfg ∧ (reachLimit s).peer.table = s.peer.table ∧ (reachLimit s).peer.own = s.peer.own ∧
    (reachLimit s).peer.refresh = s.peer.refresh ∧ (reachLimit s).peer.quiet = s.peer.quiet ∧
    (reachLimit s).peer.isolated = s.peer.isolated ∧ (reachLimit s).shr = s.shr ∧
    (reachLimit s).sdu.dose = s.sdu.dose ∧ (reachLimit s).sdu.mismatch = s.sdu.mismatch ∧
    (reachLimit s).sdu.u = s.sdu.u ∧ (reachLimit s).sdu.blend = s.sdu.blend ∧
    (reachLimit s).sdu.share = s.sdu.share ∧ (reachLimit s).seq.copy = s.seq.copy ∧
    (reachLimit s).seq.index = s.seq.index ∧ (reachLimit s).seq.elapsed = s.seq.elapsed ∧
    (reachLimit s).seq.hold = s.seq.hold ∧ (reachLimit s).seq.endpoint = s.seq.endpoint ∧
    (reachLimit s).seq.overEnd = s.seq.overEnd ∧ (reachLimit s).seq.flags = s.seq.flags ∧
    (reachLimit s).rcp = s.rcp ∧ (reachLimit s).hpc.stepTargets = s.hpc.stepTargets ∧
    (reachLimit s).hpc.warn = s.hpc.warn ∧ (reachLimit s).hpc.armed = s.hpc.armed ∧
    (reachLimit s).pcc.radius = s.pcc.radius ∧ (reachLimit s).pcc.homeFound = s.pcc.homeFound ∧
    (reachLimit s).pcc.search = s.pcc.search ∧ (reachLimit s).pcc.diskLife = s.pcc.diskLife ∧
    (reachLimit s).pcc.diskRemainder = s.pcc.diskRemainder ∧ (reachLimit s).pcc.padLife = s.pcc.padLife ∧
    (reachLimit s).pcc.padRemainder = s.pcc.padRemainder ∧ (reachLimit s).pcc.diskWarned = s.pcc.diskWarned ∧
    (reachLimit s).pcc.padWarned = s.pcc.padWarned ∧ (reachLimit s).pcc.condLost = s.pcc.condLost ∧
    (reachLimit s).epm.window = s.epm.window ∧ (reachLimit s).epm.settings = s.epm.settings ∧
    (reachLimit s).ilk = s.ilk ∧ (reachLimit s).drv.tachLost = s.drv.tachLost ∧
    (reachLimit s).lnk.stopSlot = s.lnk.stopSlot ∧ (reachLimit s).lnk.answers = s.lnk.answers ∧
    (reachLimit s).lnk.demandSlot = s.lnk.demandSlot ∧ (reachLimit s).lnk.sending = s.lnk.sending ∧
    (reachLimit s).lnk.carrier = s.lnk.carrier ∧ (reachLimit s).lnk.received = s.lnk.received ∧
    (reachLimit s).lnk.quiet = s.lnk.quiet ∧ (reachLimit s).lnk.collisionSeen = s.lnk.collisionSeen ∧
    (reachLimit s).lnk.checkErrorSeen = s.lnk.checkErrorSeen ∧
    (reachLimit s).lnk.malformedSeen = s.lnk.malformedSeen ∧ (reachLimit s).lnk.dupFound = s.lnk.dupFound ∧
    (reachLimit s).pins = s.pins ∧ (reachLimit s).now = s.now ∧ (reachLimit s).freeCount = s.freeCount ∧
    (reachLimit s).pending = s.pending := by
  unfold reachLimit
  split <;> simp

@[simp] theorem takeMatch_keeps (s : State) :
    (takeMatch s).cfg = s.cfg ∧ (takeMatch s).peer = s.peer ∧ (takeMatch s).shr = s.shr ∧ (takeMatch s).sdu = s.sdu ∧
    (takeMatch s).seq.state = s.seq.state ∧ (takeMatch s).seq.copy = s.seq.copy ∧
    (takeMatch s).seq.index = s.seq.index ∧ (takeMatch s).seq.causes = s.seq.causes ∧
    (takeMatch s).seq.deferred = s.seq.deferred ∧ (takeMatch s).seq.resume = s.seq.resume ∧
    (takeMatch s).seq.disposition = s.seq.disposition ∧ (takeMatch s).seq.elapsed = s.seq.elapsed ∧
    (takeMatch s).seq.hold = s.seq.hold ∧ (takeMatch s).seq.flags = s.seq.flags ∧
    (takeMatch s).seq.record = s.seq.record ∧ (takeMatch s).seq.result = s.seq.result ∧
    (takeMatch s).seq.first = s.seq.first ∧ (takeMatch s).seq.later = s.seq.later ∧ (takeMatch s).rcp = s.rcp ∧
    (takeMatch s).hpc = s.hpc ∧ (takeMatch s).pcc = s.pcc ∧ (takeMatch s).epm = s.epm ∧ (takeMatch s).ilk = s.ilk ∧
    (takeMatch s).drv = s.drv ∧ (takeMatch s).lnk = s.lnk ∧ (takeMatch s).pins = s.pins ∧ (takeMatch s).now = s.now ∧
    (takeMatch s).freeCount = s.freeCount ∧ (takeMatch s).pending = s.pending := by
  unfold takeMatch
  split <;> simp

@[simp] theorem startSwitches_keeps (st : StepRec) (s : State) :
    (startSwitches st s).cfg = s.cfg ∧ (startSwitches st s).peer.table = s.peer.table ∧
    (startSwitches st s).peer.own = s.peer.own ∧ (startSwitches st s).peer.refresh = s.peer.refresh ∧
    (startSwitches st s).peer.quiet = s.peer.quiet ∧ (startSwitches st s).peer.isolated = s.peer.isolated ∧
    (startSwitches st s).shr = s.shr ∧ (startSwitches st s).sdu.dose = s.sdu.dose ∧
    (startSwitches st s).sdu.mismatch = s.sdu.mismatch ∧ (startSwitches st s).sdu.rinseDone = s.sdu.rinseDone ∧
    (startSwitches st s).sdu.u = s.sdu.u ∧ (startSwitches st s).sdu.blend = s.sdu.blend ∧
    (startSwitches st s).sdu.share = s.sdu.share ∧ (startSwitches st s).seq.copy = s.seq.copy ∧
    (startSwitches st s).seq.index = s.seq.index ∧ (startSwitches st s).seq.disposition = s.seq.disposition ∧
    (startSwitches st s).seq.elapsed = s.seq.elapsed ∧ (startSwitches st s).seq.hold = s.seq.hold ∧
    (startSwitches st s).seq.endpoint = s.seq.endpoint ∧ (startSwitches st s).seq.overEnd = s.seq.overEnd ∧
    (startSwitches st s).seq.flags = s.seq.flags ∧ (startSwitches st s).rcp = s.rcp ∧
    (startSwitches st s).hpc.stepTargets = s.hpc.stepTargets ∧ (startSwitches st s).hpc.warn = s.hpc.warn ∧
    (startSwitches st s).hpc.armed = s.hpc.armed ∧ (startSwitches st s).pcc.radius = s.pcc.radius ∧
    (startSwitches st s).pcc.homeFound = s.pcc.homeFound ∧ (startSwitches st s).pcc.search = s.pcc.search ∧
    (startSwitches st s).pcc.diskLife = s.pcc.diskLife ∧
    (startSwitches st s).pcc.diskRemainder = s.pcc.diskRemainder ∧ (startSwitches st s).pcc.padLife = s.pcc.padLife ∧
    (startSwitches st s).pcc.padRemainder = s.pcc.padRemainder ∧
    (startSwitches st s).pcc.diskWarned = s.pcc.diskWarned ∧ (startSwitches st s).pcc.padWarned = s.pcc.padWarned ∧
    (startSwitches st s).pcc.condLost = s.pcc.condLost ∧ (startSwitches st s).epm.window = s.epm.window ∧
    (startSwitches st s).epm.settings = s.epm.settings ∧ (startSwitches st s).ilk = s.ilk ∧
    (startSwitches st s).drv.tachLost = s.drv.tachLost ∧ (startSwitches st s).lnk.stopSlot = s.lnk.stopSlot ∧
    (startSwitches st s).lnk.answers = s.lnk.answers ∧ (startSwitches st s).lnk.demandSlot = s.lnk.demandSlot ∧
    (startSwitches st s).lnk.sending = s.lnk.sending ∧ (startSwitches st s).lnk.carrier = s.lnk.carrier ∧
    (startSwitches st s).lnk.received = s.lnk.received ∧ (startSwitches st s).lnk.quiet = s.lnk.quiet ∧
    (startSwitches st s).lnk.collisionSeen = s.lnk.collisionSeen ∧
    (startSwitches st s).lnk.checkErrorSeen = s.lnk.checkErrorSeen ∧
    (startSwitches st s).lnk.malformedSeen = s.lnk.malformedSeen ∧
    (startSwitches st s).lnk.dupFound = s.lnk.dupFound ∧ (startSwitches st s).pins = s.pins ∧
    (startSwitches st s).now = s.now ∧ (startSwitches st s).freeCount = s.freeCount ∧
    (startSwitches st s).pending = s.pending := by
  simp [startSwitches]

@[simp] theorem reportTrips_keeps (s : State) :
    (reportTrips s).cfg = s.cfg ∧ (reportTrips s).peer.table = s.peer.table ∧ (reportTrips s).peer.own = s.peer.own ∧
    (reportTrips s).peer.refresh = s.peer.refresh ∧ (reportTrips s).peer.quiet = s.peer.quiet ∧
    (reportTrips s).peer.isolated = s.peer.isolated ∧ (reportTrips s).shr = s.shr ∧
    (reportTrips s).sdu.diVolume = s.sdu.diVolume ∧ (reportTrips s).sdu.dose = s.sdu.dose ∧
    (reportTrips s).sdu.mismatch = s.sdu.mismatch ∧ (reportTrips s).sdu.rinseDone = s.sdu.rinseDone ∧
    (reportTrips s).sdu.u = s.sdu.u ∧ (reportTrips s).sdu.blend = s.sdu.blend ∧
    (reportTrips s).sdu.share = s.sdu.share ∧ (reportTrips s).seq.copy = s.seq.copy ∧
    (reportTrips s).seq.index = s.seq.index ∧ (reportTrips s).seq.disposition = s.seq.disposition ∧
    (reportTrips s).seq.elapsed = s.seq.elapsed ∧ (reportTrips s).seq.hold = s.seq.hold ∧
    (reportTrips s).seq.endpoint = s.seq.endpoint ∧ (reportTrips s).seq.overEnd = s.seq.overEnd ∧
    (reportTrips s).seq.flags = s.seq.flags ∧ (reportTrips s).rcp = s.rcp ∧
    (reportTrips s).hpc.stepTargets = s.hpc.stepTargets ∧ (reportTrips s).hpc.warn = s.hpc.warn ∧
    (reportTrips s).hpc.armed = s.hpc.armed ∧ (reportTrips s).pcc.radius = s.pcc.radius ∧
    (reportTrips s).pcc.homeFound = s.pcc.homeFound ∧ (reportTrips s).pcc.search = s.pcc.search ∧
    (reportTrips s).pcc.diskLife = s.pcc.diskLife ∧ (reportTrips s).pcc.diskRemainder = s.pcc.diskRemainder ∧
    (reportTrips s).pcc.padLife = s.pcc.padLife ∧ (reportTrips s).pcc.padRemainder = s.pcc.padRemainder ∧
    (reportTrips s).pcc.diskWarned = s.pcc.diskWarned ∧ (reportTrips s).pcc.padWarned = s.pcc.padWarned ∧
    (reportTrips s).pcc.condLost = s.pcc.condLost ∧ (reportTrips s).epm.window = s.epm.window ∧
    (reportTrips s).epm.settings = s.epm.settings ∧ (reportTrips s).ilk = s.ilk ∧
    (reportTrips s).drv.tachLost = s.drv.tachLost ∧ (reportTrips s).lnk.stopSlot = s.lnk.stopSlot ∧
    (reportTrips s).lnk.answers = s.lnk.answers ∧ (reportTrips s).lnk.demandSlot = s.lnk.demandSlot ∧
    (reportTrips s).lnk.sending = s.lnk.sending ∧ (reportTrips s).lnk.carrier = s.lnk.carrier ∧
    (reportTrips s).lnk.received = s.lnk.received ∧ (reportTrips s).lnk.quiet = s.lnk.quiet ∧
    (reportTrips s).lnk.collisionSeen = s.lnk.collisionSeen ∧
    (reportTrips s).lnk.checkErrorSeen = s.lnk.checkErrorSeen ∧
    (reportTrips s).lnk.malformedSeen = s.lnk.malformedSeen ∧ (reportTrips s).lnk.dupFound = s.lnk.dupFound ∧
    (reportTrips s).pins = s.pins ∧ (reportTrips s).now = s.now ∧ (reportTrips s).freeCount = s.freeCount ∧
    (reportTrips s).pending = s.pending := by
  simp [reportTrips]

@[simp] theorem enterWaiting_keeps (k : Nat) (fromStart : Bool) (s : State) :
    (enterWaiting k fromStart s).cfg = s.cfg ∧ (enterWaiting k fromStart s).peer.table = s.peer.table ∧
    (enterWaiting k fromStart s).peer.refresh = s.peer.refresh ∧
    (enterWaiting k fromStart s).peer.quiet = s.peer.quiet ∧
    (enterWaiting k fromStart s).peer.isolated = s.peer.isolated ∧
    (enterWaiting k fromStart s).sdu.dose = s.sdu.dose ∧ (enterWaiting k fromStart s).sdu.mismatch = s.sdu.mismatch ∧
    (enterWaiting k fromStart s).sdu.rinseDone = s.sdu.rinseDone ∧ (enterWaiting k fromStart s).sdu.u = s.sdu.u ∧
    (enterWaiting k fromStart s).sdu.blend = s.sdu.blend ∧ (enterWaiting k fromStart s).sdu.share = s.sdu.share ∧
    (enterWaiting k fromStart s).rcp = s.rcp ∧ (enterWaiting k fromStart s).hpc.stepTargets = s.hpc.stepTargets ∧
    (enterWaiting k fromStart s).hpc.warn = s.hpc.warn ∧ (enterWaiting k fromStart s).hpc.armed = s.hpc.armed ∧
    (enterWaiting k fromStart s).pcc.radius = s.pcc.radius ∧
    (enterWaiting k fromStart s).pcc.homeFound = s.pcc.homeFound ∧
    (enterWaiting k fromStart s).pcc.search = s.pcc.search ∧
    (enterWaiting k fromStart s).pcc.diskLife = s.pcc.diskLife ∧
    (enterWaiting k fromStart s).pcc.diskRemainder = s.pcc.diskRemainder ∧
    (enterWaiting k fromStart s).pcc.padLife = s.pcc.padLife ∧
    (enterWaiting k fromStart s).pcc.padRemainder = s.pcc.padRemainder ∧
    (enterWaiting k fromStart s).pcc.diskWarned = s.pcc.diskWarned ∧
    (enterWaiting k fromStart s).pcc.padWarned = s.pcc.padWarned ∧
    (enterWaiting k fromStart s).pcc.condLost = s.pcc.condLost ∧
    (enterWaiting k fromStart s).epm.window = s.epm.window ∧
    (enterWaiting k fromStart s).epm.settings = s.epm.settings ∧ (enterWaiting k fromStart s).ilk = s.ilk ∧
    (enterWaiting k fromStart s).drv.tachLost = s.drv.tachLost ∧
    (enterWaiting k fromStart s).lnk.stopSlot = s.lnk.stopSlot ∧
    (enterWaiting k fromStart s).lnk.answers = s.lnk.answers ∧
    (enterWaiting k fromStart s).lnk.carrier = s.lnk.carrier ∧
    (enterWaiting k fromStart s).lnk.received = s.lnk.received ∧
    (enterWaiting k fromStart s).lnk.quiet = s.lnk.quiet ∧
    (enterWaiting k fromStart s).lnk.collisionSeen = s.lnk.collisionSeen ∧
    (enterWaiting k fromStart s).lnk.checkErrorSeen = s.lnk.checkErrorSeen ∧
    (enterWaiting k fromStart s).lnk.malformedSeen = s.lnk.malformedSeen ∧
    (enterWaiting k fromStart s).lnk.dupFound = s.lnk.dupFound ∧ (enterWaiting k fromStart s).pins = s.pins ∧
    (enterWaiting k fromStart s).now = s.now ∧ (enterWaiting k fromStart s).freeCount = s.freeCount ∧
    (enterWaiting k fromStart s).pending = s.pending := by
  unfold enterWaiting
  dsimp only
  (repeat' split) <;> simp

@[simp] theorem startSweep_keeps (s : State) :
    (startSweep s).cfg = s.cfg ∧ (startSweep s).peer = s.peer ∧ (startSweep s).shr = s.shr ∧
    (startSweep s).sdu.ch = s.sdu.ch ∧ (startSweep s).sdu.di = s.sdu.di ∧
    (startSweep s).sdu.diVolume = s.sdu.diVolume ∧ (startSweep s).sdu.dose = s.sdu.dose ∧
    (startSweep s).sdu.mismatch = s.sdu.mismatch ∧ (startSweep s).sdu.rinseDone = s.sdu.rinseDone ∧
    (startSweep s).sdu.u = s.sdu.u ∧ (startSweep s).sdu.blend = s.sdu.blend ∧
    (startSweep s).sdu.share = s.sdu.share ∧ (startSweep s).seq.copy = s.seq.copy ∧
    (startSweep s).seq.index = s.seq.index ∧ (startSweep s).seq.deferred = s.seq.deferred ∧
    (startSweep s).seq.disposition = s.seq.disposition ∧ (startSweep s).seq.elapsed = s.seq.elapsed ∧
    (startSweep s).seq.hold = s.seq.hold ∧ (startSweep s).seq.endpoint = s.seq.endpoint ∧
    (startSweep s).seq.overEnd = s.seq.overEnd ∧ (startSweep s).seq.record = s.seq.record ∧
    (startSweep s).seq.result = s.seq.result ∧ (startSweep s).seq.first = s.seq.first ∧
    (startSweep s).seq.later = s.seq.later ∧ (startSweep s).rcp = s.rcp ∧
    (startSweep s).hpc.stepTargets = s.hpc.stepTargets ∧ (startSweep s).hpc.warn = s.hpc.warn ∧
    (startSweep s).hpc.armed = s.hpc.armed ∧ (startSweep s).pcc.radius = s.pcc.radius ∧
    (startSweep s).pcc.homeFound = s.pcc.homeFound ∧ (startSweep s).pcc.diskLife = s.pcc.diskLife ∧
    (startSweep s).pcc.diskRemainder = s.pcc.diskRemainder ∧ (startSweep s).pcc.padLife = s.pcc.padLife ∧
    (startSweep s).pcc.padRemainder = s.pcc.padRemainder ∧ (startSweep s).pcc.diskWarned = s.pcc.diskWarned ∧
    (startSweep s).pcc.padWarned = s.pcc.padWarned ∧ (startSweep s).epm.window = s.epm.window ∧
    (startSweep s).epm.settings = s.epm.settings ∧ (startSweep s).ilk = s.ilk ∧ (startSweep s).drv = s.drv ∧
    (startSweep s).lnk.stopSlot = s.lnk.stopSlot ∧ (startSweep s).lnk.answers = s.lnk.answers ∧
    (startSweep s).lnk.demandSlot = s.lnk.demandSlot ∧ (startSweep s).lnk.sending = s.lnk.sending ∧
    (startSweep s).lnk.carrier = s.lnk.carrier ∧ (startSweep s).lnk.received = s.lnk.received ∧
    (startSweep s).lnk.quiet = s.lnk.quiet ∧ (startSweep s).lnk.collisionSeen = s.lnk.collisionSeen ∧
    (startSweep s).lnk.checkErrorSeen = s.lnk.checkErrorSeen ∧
    (startSweep s).lnk.malformedSeen = s.lnk.malformedSeen ∧ (startSweep s).lnk.dupFound = s.lnk.dupFound ∧
    (startSweep s).pins = s.pins ∧ (startSweep s).now = s.now ∧ (startSweep s).freeCount = s.freeCount ∧
    (startSweep s).pending = s.pending := by
  simp [startSweep]

@[simp] theorem beginStep_keeps (s : State) :
    (beginStep s).cfg = s.cfg ∧ (beginStep s).peer = s.peer ∧ (beginStep s).shr = s.shr ∧
    (beginStep s).sdu.ch = s.sdu.ch ∧ (beginStep s).sdu.di = s.sdu.di ∧ (beginStep s).sdu.diVolume = s.sdu.diVolume ∧
    (beginStep s).sdu.mismatch = s.sdu.mismatch ∧ (beginStep s).sdu.rinseDone = s.sdu.rinseDone ∧
    (beginStep s).sdu.u = s.sdu.u ∧ (beginStep s).sdu.blend = s.sdu.blend ∧ (beginStep s).sdu.share = s.sdu.share ∧
    (beginStep s).seq.copy = s.seq.copy ∧ (beginStep s).seq.index = s.seq.index ∧
    (beginStep s).seq.deferred = s.seq.deferred ∧ (beginStep s).seq.disposition = s.seq.disposition ∧
    (beginStep s).seq.hold = s.seq.hold ∧ (beginStep s).seq.endpoint = s.seq.endpoint ∧
    (beginStep s).seq.overEnd = s.seq.overEnd ∧ (beginStep s).seq.record = s.seq.record ∧
    (beginStep s).seq.result = s.seq.result ∧ (beginStep s).seq.first = s.seq.first ∧
    (beginStep s).seq.later = s.seq.later ∧ (beginStep s).rcp = s.rcp ∧ (beginStep s).hpc.warn = s.hpc.warn ∧
    (beginStep s).hpc.armed = s.hpc.armed ∧ (beginStep s).pcc.radius = s.pcc.radius ∧
    (beginStep s).pcc.homeFound = s.pcc.homeFound ∧ (beginStep s).pcc.diskLife = s.pcc.diskLife ∧
    (beginStep s).pcc.diskRemainder = s.pcc.diskRemainder ∧ (beginStep s).pcc.padLife = s.pcc.padLife ∧
    (beginStep s).pcc.padRemainder = s.pcc.padRemainder ∧ (beginStep s).pcc.diskWarned = s.pcc.diskWarned ∧
    (beginStep s).pcc.padWarned = s.pcc.padWarned ∧ (beginStep s).epm.window = s.epm.window ∧
    (beginStep s).ilk = s.ilk ∧ (beginStep s).drv = s.drv ∧ (beginStep s).lnk.stopSlot = s.lnk.stopSlot ∧
    (beginStep s).lnk.answers = s.lnk.answers ∧ (beginStep s).lnk.demandSlot = s.lnk.demandSlot ∧
    (beginStep s).lnk.sending = s.lnk.sending ∧ (beginStep s).lnk.carrier = s.lnk.carrier ∧
    (beginStep s).lnk.received = s.lnk.received ∧ (beginStep s).lnk.quiet = s.lnk.quiet ∧
    (beginStep s).lnk.collisionSeen = s.lnk.collisionSeen ∧ (beginStep s).lnk.checkErrorSeen = s.lnk.checkErrorSeen ∧
    (beginStep s).lnk.malformedSeen = s.lnk.malformedSeen ∧ (beginStep s).lnk.dupFound = s.lnk.dupFound ∧
    (beginStep s).pins = s.pins ∧ (beginStep s).now = s.now ∧ (beginStep s).freeCount = s.freeCount ∧
    (beginStep s).pending = s.pending := by
  unfold beginStep
  split <;> simp

@[simp] theorem returnSweep_keeps (s : State) :
    (returnSweep s).cfg = s.cfg ∧ (returnSweep s).peer = s.peer ∧ (returnSweep s).shr = s.shr ∧
    (returnSweep s).sdu.ch = s.sdu.ch ∧ (returnSweep s).sdu.di = s.sdu.di ∧
    (returnSweep s).sdu.diVolume = s.sdu.diVolume ∧ (returnSweep s).sdu.dose = s.sdu.dose ∧
    (returnSweep s).sdu.mismatch = s.sdu.mismatch ∧ (returnSweep s).sdu.rinseDone = s.sdu.rinseDone ∧
    (returnSweep s).sdu.u = s.sdu.u ∧ (returnSweep s).sdu.blend = s.sdu.blend ∧
    (returnSweep s).sdu.share = s.sdu.share ∧ (returnSweep s).seq.copy = s.seq.copy ∧
    (returnSweep s).seq.index = s.seq.index ∧ (returnSweep s).seq.deferred = s.seq.deferred ∧
    (returnSweep s).seq.disposition = s.seq.disposition ∧ (returnSweep s).seq.elapsed = s.seq.elapsed ∧
    (returnSweep s).seq.hold = s.seq.hold ∧ (returnSweep s).seq.endpoint = s.seq.endpoint ∧
    (returnSweep s).seq.overEnd = s.seq.overEnd ∧ (returnSweep s).seq.record = s.seq.record ∧
    (returnSweep s).seq.result = s.seq.result ∧ (returnSweep s).seq.first = s.seq.first ∧
    (returnSweep s).seq.later = s.seq.later ∧ (returnSweep s).rcp = s.rcp ∧
    (returnSweep s).hpc.stepTargets = s.hpc.stepTargets ∧ (returnSweep s).hpc.warn = s.hpc.warn ∧
    (returnSweep s).hpc.armed = s.hpc.armed ∧ (returnSweep s).pcc.radius = s.pcc.radius ∧
    (returnSweep s).pcc.homeFound = s.pcc.homeFound ∧ (returnSweep s).pcc.diskLife = s.pcc.diskLife ∧
    (returnSweep s).pcc.diskRemainder = s.pcc.diskRemainder ∧ (returnSweep s).pcc.padLife = s.pcc.padLife ∧
    (returnSweep s).pcc.padRemainder = s.pcc.padRemainder ∧ (returnSweep s).pcc.diskWarned = s.pcc.diskWarned ∧
    (returnSweep s).pcc.padWarned = s.pcc.padWarned ∧ (returnSweep s).epm.window = s.epm.window ∧
    (returnSweep s).epm.settings = s.epm.settings ∧ (returnSweep s).ilk = s.ilk ∧ (returnSweep s).drv = s.drv ∧
    (returnSweep s).lnk.stopSlot = s.lnk.stopSlot ∧ (returnSweep s).lnk.answers = s.lnk.answers ∧
    (returnSweep s).lnk.demandSlot = s.lnk.demandSlot ∧ (returnSweep s).lnk.sending = s.lnk.sending ∧
    (returnSweep s).lnk.carrier = s.lnk.carrier ∧ (returnSweep s).lnk.received = s.lnk.received ∧
    (returnSweep s).lnk.quiet = s.lnk.quiet ∧ (returnSweep s).lnk.collisionSeen = s.lnk.collisionSeen ∧
    (returnSweep s).lnk.checkErrorSeen = s.lnk.checkErrorSeen ∧
    (returnSweep s).lnk.malformedSeen = s.lnk.malformedSeen ∧ (returnSweep s).lnk.dupFound = s.lnk.dupFound ∧
    (returnSweep s).pins = s.pins ∧ (returnSweep s).now = s.now ∧ (returnSweep s).freeCount = s.freeCount ∧
    (returnSweep s).pending = s.pending := by
  unfold returnSweep
  split <;> simp

@[simp] theorem returnToRunning_keeps (s : State) :
    (returnToRunning s).cfg = s.cfg ∧ (returnToRunning s).peer = s.peer ∧ (returnToRunning s).shr = s.shr ∧
    (returnToRunning s).sdu.ch = s.sdu.ch ∧ (returnToRunning s).sdu.di = s.sdu.di ∧
    (returnToRunning s).sdu.diVolume = s.sdu.diVolume ∧ (returnToRunning s).sdu.dose = s.sdu.dose ∧
    (returnToRunning s).sdu.mismatch = s.sdu.mismatch ∧ (returnToRunning s).sdu.rinseDone = s.sdu.rinseDone ∧
    (returnToRunning s).sdu.u = s.sdu.u ∧ (returnToRunning s).sdu.blend = s.sdu.blend ∧
    (returnToRunning s).sdu.share = s.sdu.share ∧ (returnToRunning s).seq.copy = s.seq.copy ∧
    (returnToRunning s).seq.index = s.seq.index ∧ (returnToRunning s).seq.deferred = s.seq.deferred ∧
    (returnToRunning s).seq.disposition = s.seq.disposition ∧ (returnToRunning s).seq.elapsed = s.seq.elapsed ∧
    (returnToRunning s).seq.hold = s.seq.hold ∧ (returnToRunning s).seq.endpoint = s.seq.endpoint ∧
    (returnToRunning s).seq.overEnd = s.seq.overEnd ∧ (returnToRunning s).seq.record = s.seq.record ∧
    (returnToRunning s).seq.result = s.seq.result ∧ (returnToRunning s).seq.first = s.seq.first ∧
    (returnToRunning s).seq.later = s.seq.later ∧ (returnToRunning s).rcp = s.rcp ∧
    (returnToRunning s).hpc.stepTargets = s.hpc.stepTargets ∧ (returnToRunning s).hpc.warn = s.hpc.warn ∧
    (returnToRunning s).hpc.armed = s.hpc.armed ∧ (returnToRunning s).pcc.radius = s.pcc.radius ∧
    (returnToRunning s).pcc.homeFound = s.pcc.homeFound ∧ (returnToRunning s).pcc.diskLife = s.pcc.diskLife ∧
    (returnToRunning s).pcc.diskRemainder = s.pcc.diskRemainder ∧ (returnToRunning s).pcc.padLife = s.pcc.padLife ∧
    (returnToRunning s).pcc.padRemainder = s.pcc.padRemainder ∧
    (returnToRunning s).pcc.diskWarned = s.pcc.diskWarned ∧ (returnToRunning s).pcc.padWarned = s.pcc.padWarned ∧
    (returnToRunning s).epm.window = s.epm.window ∧ (returnToRunning s).epm.settings = s.epm.settings ∧
    (returnToRunning s).ilk = s.ilk ∧ (returnToRunning s).drv = s.drv ∧
    (returnToRunning s).lnk.stopSlot = s.lnk.stopSlot ∧ (returnToRunning s).lnk.answers = s.lnk.answers ∧
    (returnToRunning s).lnk.demandSlot = s.lnk.demandSlot ∧ (returnToRunning s).lnk.sending = s.lnk.sending ∧
    (returnToRunning s).lnk.carrier = s.lnk.carrier ∧ (returnToRunning s).lnk.received = s.lnk.received ∧
    (returnToRunning s).lnk.quiet = s.lnk.quiet ∧ (returnToRunning s).lnk.collisionSeen = s.lnk.collisionSeen ∧
    (returnToRunning s).lnk.checkErrorSeen = s.lnk.checkErrorSeen ∧
    (returnToRunning s).lnk.malformedSeen = s.lnk.malformedSeen ∧ (returnToRunning s).lnk.dupFound = s.lnk.dupFound ∧
    (returnToRunning s).pins = s.pins ∧ (returnToRunning s).now = s.now ∧
    (returnToRunning s).freeCount = s.freeCount ∧ (returnToRunning s).pending = s.pending := by
  simp [returnToRunning]

@[simp] theorem leaveHolding_keeps (s : State) :
    (leaveHolding s).cfg = s.cfg ∧ (leaveHolding s).peer.table = s.peer.table ∧
    (leaveHolding s).peer.own = s.peer.own ∧ (leaveHolding s).peer.refresh = s.peer.refresh ∧
    (leaveHolding s).peer.quiet = s.peer.quiet ∧ (leaveHolding s).peer.isolated = s.peer.isolated ∧
    (leaveHolding s).shr = s.shr ∧ (leaveHolding s).sdu.dose = s.sdu.dose ∧
    (leaveHolding s).sdu.mismatch = s.sdu.mismatch ∧ (leaveHolding s).sdu.u = s.sdu.u ∧
    (leaveHolding s).sdu.blend = s.sdu.blend ∧ (leaveHolding s).sdu.share = s.sdu.share ∧
    (leaveHolding s).seq.copy = s.seq.copy ∧ (leaveHolding s).seq.index = s.seq.index ∧
    (leaveHolding s).seq.disposition = s.seq.disposition ∧ (leaveHolding s).seq.elapsed = s.seq.elapsed ∧
    (leaveHolding s).seq.hold = s.seq.hold ∧ (leaveHolding s).seq.endpoint = s.seq.endpoint ∧
    (leaveHolding s).seq.overEnd = s.seq.overEnd ∧ (leaveHolding s).rcp = s.rcp ∧
    (leaveHolding s).hpc.stepTargets = s.hpc.stepTargets ∧ (leaveHolding s).hpc.warn = s.hpc.warn ∧
    (leaveHolding s).hpc.armed = s.hpc.armed ∧ (leaveHolding s).pcc.radius = s.pcc.radius ∧
    (leaveHolding s).pcc.homeFound = s.pcc.homeFound ∧ (leaveHolding s).pcc.diskLife = s.pcc.diskLife ∧
    (leaveHolding s).pcc.diskRemainder = s.pcc.diskRemainder ∧ (leaveHolding s).pcc.padLife = s.pcc.padLife ∧
    (leaveHolding s).pcc.padRemainder = s.pcc.padRemainder ∧ (leaveHolding s).pcc.diskWarned = s.pcc.diskWarned ∧
    (leaveHolding s).pcc.padWarned = s.pcc.padWarned ∧ (leaveHolding s).epm.window = s.epm.window ∧
    (leaveHolding s).epm.settings = s.epm.settings ∧ (leaveHolding s).ilk = s.ilk ∧
    (leaveHolding s).drv.tachLost = s.drv.tachLost ∧ (leaveHolding s).lnk.stopSlot = s.lnk.stopSlot ∧
    (leaveHolding s).lnk.answers = s.lnk.answers ∧ (leaveHolding s).lnk.demandSlot = s.lnk.demandSlot ∧
    (leaveHolding s).lnk.sending = s.lnk.sending ∧ (leaveHolding s).lnk.carrier = s.lnk.carrier ∧
    (leaveHolding s).lnk.received = s.lnk.received ∧ (leaveHolding s).lnk.quiet = s.lnk.quiet ∧
    (leaveHolding s).lnk.collisionSeen = s.lnk.collisionSeen ∧
    (leaveHolding s).lnk.checkErrorSeen = s.lnk.checkErrorSeen ∧
    (leaveHolding s).lnk.malformedSeen = s.lnk.malformedSeen ∧ (leaveHolding s).lnk.dupFound = s.lnk.dupFound ∧
    (leaveHolding s).pins = s.pins ∧ (leaveHolding s).now = s.now ∧ (leaveHolding s).freeCount = s.freeCount ∧
    (leaveHolding s).pending = s.pending := by
  unfold leaveHolding
  split <;> simp

@[simp] theorem resumeDisposition_keeps (s : State) :
    (resumeDisposition s).cfg = s.cfg ∧ (resumeDisposition s).peer = s.peer ∧ (resumeDisposition s).shr = s.shr ∧
    (resumeDisposition s).sdu = s.sdu ∧ (resumeDisposition s).seq.state = s.seq.state ∧
    (resumeDisposition s).seq.copy = s.seq.copy ∧ (resumeDisposition s).seq.index = s.seq.index ∧
    (resumeDisposition s).seq.causes = s.seq.causes ∧ (resumeDisposition s).seq.deferred = s.seq.deferred ∧
    (resumeDisposition s).seq.resume = s.seq.resume ∧ (resumeDisposition s).seq.elapsed = s.seq.elapsed ∧
    (resumeDisposition s).seq.hold = s.seq.hold ∧ (resumeDisposition s).seq.endpoint = s.seq.endpoint ∧
    (resumeDisposition s).seq.overEnd = s.seq.overEnd ∧ (resumeDisposition s).seq.record = s.seq.record ∧
    (resumeDisposition s).seq.result = s.seq.result ∧ (resumeDisposition s).seq.first = s.seq.first ∧
    (resumeDisposition s).seq.later = s.seq.later ∧ (resumeDisposition s).rcp = s.rcp ∧
    (resumeDisposition s).hpc = s.hpc ∧ (resumeDisposition s).pcc = s.pcc ∧ (resumeDisposition s).epm = s.epm ∧
    (resumeDisposition s).ilk = s.ilk ∧ (resumeDisposition s).drv = s.drv ∧ (resumeDisposition s).lnk = s.lnk ∧
    (resumeDisposition s).pins = s.pins ∧ (resumeDisposition s).now = s.now ∧
    (resumeDisposition s).freeCount = s.freeCount ∧ (resumeDisposition s).pending = s.pending := by
  simp [resumeDisposition]

@[simp] theorem resumeHold_keeps (s : State) :
    (resumeHold s).cfg = s.cfg ∧ (resumeHold s).peer.table = s.peer.table ∧ (resumeHold s).peer.own = s.peer.own ∧
    (resumeHold s).peer.refresh = s.peer.refresh ∧ (resumeHold s).peer.quiet = s.peer.quiet ∧
    (resumeHold s).peer.isolated = s.peer.isolated ∧ (resumeHold s).shr = s.shr ∧
    (resumeHold s).sdu.dose = s.sdu.dose ∧ (resumeHold s).sdu.mismatch = s.sdu.mismatch ∧
    (resumeHold s).sdu.u = s.sdu.u ∧ (resumeHold s).sdu.blend = s.sdu.blend ∧
    (resumeHold s).sdu.share = s.sdu.share ∧ (resumeHold s).seq.copy = s.seq.copy ∧
    (resumeHold s).seq.index = s.seq.index ∧ (resumeHold s).seq.elapsed = s.seq.elapsed ∧
    (resumeHold s).seq.hold = s.seq.hold ∧ (resumeHold s).seq.endpoint = s.seq.endpoint ∧
    (resumeHold s).seq.overEnd = s.seq.overEnd ∧ (resumeHold s).rcp = s.rcp ∧
    (resumeHold s).hpc.stepTargets = s.hpc.stepTargets ∧ (resumeHold s).hpc.warn = s.hpc.warn ∧
    (resumeHold s).hpc.armed = s.hpc.armed ∧ (resumeHold s).pcc.radius = s.pcc.radius ∧
    (resumeHold s).pcc.homeFound = s.pcc.homeFound ∧ (resumeHold s).pcc.diskLife = s.pcc.diskLife ∧
    (resumeHold s).pcc.diskRemainder = s.pcc.diskRemainder ∧ (resumeHold s).pcc.padLife = s.pcc.padLife ∧
    (resumeHold s).pcc.padRemainder = s.pcc.padRemainder ∧ (resumeHold s).pcc.diskWarned = s.pcc.diskWarned ∧
    (resumeHold s).pcc.padWarned = s.pcc.padWarned ∧ (resumeHold s).epm.window = s.epm.window ∧
    (resumeHold s).epm.settings = s.epm.settings ∧ (resumeHold s).ilk = s.ilk ∧
    (resumeHold s).drv.tachLost = s.drv.tachLost ∧ (resumeHold s).lnk.stopSlot = s.lnk.stopSlot ∧
    (resumeHold s).lnk.answers = s.lnk.answers ∧ (resumeHold s).lnk.demandSlot = s.lnk.demandSlot ∧
    (resumeHold s).lnk.sending = s.lnk.sending ∧ (resumeHold s).lnk.carrier = s.lnk.carrier ∧
    (resumeHold s).lnk.received = s.lnk.received ∧ (resumeHold s).lnk.quiet = s.lnk.quiet ∧
    (resumeHold s).lnk.collisionSeen = s.lnk.collisionSeen ∧
    (resumeHold s).lnk.checkErrorSeen = s.lnk.checkErrorSeen ∧
    (resumeHold s).lnk.malformedSeen = s.lnk.malformedSeen ∧ (resumeHold s).lnk.dupFound = s.lnk.dupFound ∧
    (resumeHold s).pins = s.pins ∧ (resumeHold s).now = s.now ∧ (resumeHold s).freeCount = s.freeCount ∧
    (resumeHold s).pending = s.pending := by
  simp [resumeHold]

@[simp] theorem completeEnding_keeps (s : State) :
    (completeEnding s).cfg = s.cfg ∧ (completeEnding s).peer.table = s.peer.table ∧
    (completeEnding s).peer.refresh = s.peer.refresh ∧ (completeEnding s).peer.quiet = s.peer.quiet ∧
    (completeEnding s).peer.isolated = s.peer.isolated ∧ (completeEnding s).sdu.dose = s.sdu.dose ∧
    (completeEnding s).sdu.mismatch = s.sdu.mismatch ∧ (completeEnding s).sdu.rinseDone = s.sdu.rinseDone ∧
    (completeEnding s).sdu.u = s.sdu.u ∧ (completeEnding s).sdu.blend = s.sdu.blend ∧
    (completeEnding s).sdu.share = s.sdu.share ∧ (completeEnding s).rcp.slots = s.rcp.slots ∧
    (completeEnding s).rcp.profiles = s.rcp.profiles ∧ (completeEnding s).rcp.lock = s.rcp.lock ∧
    (completeEnding s).rcp.inProgress = s.rcp.inProgress ∧ (completeEnding s).rcp.op = s.rcp.op ∧
    (completeEnding s).hpc.stepTargets = s.hpc.stepTargets ∧ (completeEnding s).hpc.warn = s.hpc.warn ∧
    (completeEnding s).hpc.armed = s.hpc.armed ∧ (completeEnding s).pcc.radius = s.pcc.radius ∧
    (completeEnding s).pcc.homeFound = s.pcc.homeFound ∧ (completeEnding s).pcc.search = s.pcc.search ∧
    (completeEnding s).pcc.diskLife = s.pcc.diskLife ∧ (completeEnding s).pcc.diskRemainder = s.pcc.diskRemainder ∧
    (completeEnding s).pcc.padLife = s.pcc.padLife ∧ (completeEnding s).pcc.padRemainder = s.pcc.padRemainder ∧
    (completeEnding s).pcc.diskWarned = s.pcc.diskWarned ∧ (completeEnding s).pcc.padWarned = s.pcc.padWarned ∧
    (completeEnding s).pcc.condLost = s.pcc.condLost ∧ (completeEnding s).epm.window = s.epm.window ∧
    (completeEnding s).epm.settings = s.epm.settings ∧ (completeEnding s).ilk = s.ilk ∧
    (completeEnding s).drv.tachLost = s.drv.tachLost ∧ (completeEnding s).lnk.stopSlot = s.lnk.stopSlot ∧
    (completeEnding s).lnk.answers = s.lnk.answers ∧ (completeEnding s).lnk.carrier = s.lnk.carrier ∧
    (completeEnding s).lnk.received = s.lnk.received ∧ (completeEnding s).lnk.quiet = s.lnk.quiet ∧
    (completeEnding s).lnk.collisionSeen = s.lnk.collisionSeen ∧
    (completeEnding s).lnk.checkErrorSeen = s.lnk.checkErrorSeen ∧
    (completeEnding s).lnk.malformedSeen = s.lnk.malformedSeen ∧ (completeEnding s).lnk.dupFound = s.lnk.dupFound ∧
    (completeEnding s).pins = s.pins ∧ (completeEnding s).now = s.now ∧ (completeEnding s).freeCount = s.freeCount ∧
    (completeEnding s).pending = s.pending := by
  simp [completeEnding]

@[simp] theorem completeAbort_keeps (timeout : Bool) (s : State) :
    (completeAbort timeout s).cfg = s.cfg ∧ (completeAbort timeout s).peer.table = s.peer.table ∧
    (completeAbort timeout s).peer.own = s.peer.own ∧ (completeAbort timeout s).peer.refresh = s.peer.refresh ∧
    (completeAbort timeout s).peer.quiet = s.peer.quiet ∧ (completeAbort timeout s).peer.isolated = s.peer.isolated ∧
    (completeAbort timeout s).shr = s.shr ∧ (completeAbort timeout s).sdu.diVolume = s.sdu.diVolume ∧
    (completeAbort timeout s).sdu.dose = s.sdu.dose ∧ (completeAbort timeout s).sdu.persist = s.sdu.persist ∧
    (completeAbort timeout s).sdu.mismatch = s.sdu.mismatch ∧
    (completeAbort timeout s).sdu.rinseDone = s.sdu.rinseDone ∧ (completeAbort timeout s).sdu.u = s.sdu.u ∧
    (completeAbort timeout s).sdu.blend = s.sdu.blend ∧ (completeAbort timeout s).sdu.share = s.sdu.share ∧
    (completeAbort timeout s).seq.copy = s.seq.copy ∧ (completeAbort timeout s).seq.index = s.seq.index ∧
    (completeAbort timeout s).seq.causes = s.seq.causes ∧ (completeAbort timeout s).seq.deferred = s.seq.deferred ∧
    (completeAbort timeout s).seq.resume = s.seq.resume ∧
    (completeAbort timeout s).seq.disposition = s.seq.disposition ∧
    (completeAbort timeout s).seq.elapsed = s.seq.elapsed ∧ (completeAbort timeout s).seq.hold = s.seq.hold ∧
    (completeAbort timeout s).seq.endpoint = s.seq.endpoint ∧ (completeAbort timeout s).seq.overEnd = s.seq.overEnd ∧
    (completeAbort timeout s).seq.flags = s.seq.flags ∧ (completeAbort timeout s).seq.record = s.seq.record ∧
    (completeAbort timeout s).seq.result = s.seq.result ∧ (completeAbort timeout s).seq.first = s.seq.first ∧
    (completeAbort timeout s).seq.later = s.seq.later ∧ (completeAbort timeout s).rcp.slots = s.rcp.slots ∧
    (completeAbort timeout s).rcp.profiles = s.rcp.profiles ∧ (completeAbort timeout s).rcp.lock = s.rcp.lock ∧
    (completeAbort timeout s).rcp.inProgress = s.rcp.inProgress ∧ (completeAbort timeout s).rcp.op = s.rcp.op ∧
    (completeAbort timeout s).hpc.stepTargets = s.hpc.stepTargets ∧ (completeAbort timeout s).hpc.warn = s.hpc.warn ∧
    (completeAbort timeout s).hpc.armed = s.hpc.armed ∧ (completeAbort timeout s).pcc = s.pcc ∧
    (completeAbort timeout s).epm.window = s.epm.window ∧ (completeAbort timeout s).epm.settings = s.epm.settings ∧
    (completeAbort timeout s).ilk = s.ilk ∧ (completeAbort timeout s).drv.tachLost = s.drv.tachLost ∧
    (completeAbort timeout s).lnk.stopSlot = s.lnk.stopSlot ∧ (completeAbort timeout s).lnk.answers = s.lnk.answers ∧
    (completeAbort timeout s).lnk.demandSlot = s.lnk.demandSlot ∧
    (completeAbort timeout s).lnk.sending = s.lnk.sending ∧ (completeAbort timeout s).lnk.carrier = s.lnk.carrier ∧
    (completeAbort timeout s).lnk.received = s.lnk.received ∧ (completeAbort timeout s).lnk.quiet = s.lnk.quiet ∧
    (completeAbort timeout s).lnk.collisionSeen = s.lnk.collisionSeen ∧
    (completeAbort timeout s).lnk.checkErrorSeen = s.lnk.checkErrorSeen ∧
    (completeAbort timeout s).lnk.malformedSeen = s.lnk.malformedSeen ∧
    (completeAbort timeout s).lnk.dupFound = s.lnk.dupFound ∧ (completeAbort timeout s).pins = s.pins ∧
    (completeAbort timeout s).now = s.now ∧ (completeAbort timeout s).freeCount = s.freeCount ∧
    (completeAbort timeout s).pending = s.pending := by
  simp [completeAbort]

@[simp] theorem sendWaitLong_keeps (s : State) :
    (sendWaitLong s).cfg = s.cfg ∧ (sendWaitLong s).peer = s.peer ∧ (sendWaitLong s).shr = s.shr ∧
    (sendWaitLong s).sdu = s.sdu ∧ (sendWaitLong s).seq.state = s.seq.state ∧
    (sendWaitLong s).seq.copy = s.seq.copy ∧ (sendWaitLong s).seq.index = s.seq.index ∧
    (sendWaitLong s).seq.causes = s.seq.causes ∧ (sendWaitLong s).seq.deferred = s.seq.deferred ∧
    (sendWaitLong s).seq.resume = s.seq.resume ∧ (sendWaitLong s).seq.disposition = s.seq.disposition ∧
    (sendWaitLong s).seq.elapsed = s.seq.elapsed ∧ (sendWaitLong s).seq.hold = s.seq.hold ∧
    (sendWaitLong s).seq.endpoint = s.seq.endpoint ∧ (sendWaitLong s).seq.overEnd = s.seq.overEnd ∧
    (sendWaitLong s).seq.flags = s.seq.flags ∧ (sendWaitLong s).seq.record = s.seq.record ∧
    (sendWaitLong s).seq.result = s.seq.result ∧ (sendWaitLong s).seq.first = s.seq.first ∧
    (sendWaitLong s).seq.later = s.seq.later ∧ (sendWaitLong s).rcp = s.rcp ∧ (sendWaitLong s).hpc = s.hpc ∧
    (sendWaitLong s).pcc = s.pcc ∧ (sendWaitLong s).epm = s.epm ∧ (sendWaitLong s).ilk = s.ilk ∧
    (sendWaitLong s).drv = s.drv ∧ (sendWaitLong s).lnk.stopSlot = s.lnk.stopSlot ∧
    (sendWaitLong s).lnk.answers = s.lnk.answers ∧ (sendWaitLong s).lnk.demandSlot = s.lnk.demandSlot ∧
    (sendWaitLong s).lnk.sending = s.lnk.sending ∧ (sendWaitLong s).lnk.carrier = s.lnk.carrier ∧
    (sendWaitLong s).lnk.received = s.lnk.received ∧ (sendWaitLong s).lnk.quiet = s.lnk.quiet ∧
    (sendWaitLong s).lnk.collisionSeen = s.lnk.collisionSeen ∧
    (sendWaitLong s).lnk.checkErrorSeen = s.lnk.checkErrorSeen ∧
    (sendWaitLong s).lnk.malformedSeen = s.lnk.malformedSeen ∧ (sendWaitLong s).lnk.dupFound = s.lnk.dupFound ∧
    (sendWaitLong s).pins = s.pins ∧ (sendWaitLong s).now = s.now ∧ (sendWaitLong s).freeCount = s.freeCount ∧
    (sendWaitLong s).pending = s.pending := by
  simp [sendWaitLong]

@[simp] theorem markFlags_keeps (s : State) :
    (markFlags s).cfg = s.cfg ∧ (markFlags s).peer = s.peer ∧ (markFlags s).shr = s.shr ∧ (markFlags s).sdu = s.sdu ∧
    (markFlags s).seq.state = s.seq.state ∧ (markFlags s).seq.copy = s.seq.copy ∧
    (markFlags s).seq.index = s.seq.index ∧ (markFlags s).seq.causes = s.seq.causes ∧
    (markFlags s).seq.deferred = s.seq.deferred ∧ (markFlags s).seq.resume = s.seq.resume ∧
    (markFlags s).seq.disposition = s.seq.disposition ∧ (markFlags s).seq.elapsed = s.seq.elapsed ∧
    (markFlags s).seq.hold = s.seq.hold ∧ (markFlags s).seq.endpoint = s.seq.endpoint ∧
    (markFlags s).seq.overEnd = s.seq.overEnd ∧ (markFlags s).seq.record = s.seq.record ∧
    (markFlags s).seq.result = s.seq.result ∧ (markFlags s).seq.first = s.seq.first ∧
    (markFlags s).seq.later = s.seq.later ∧ (markFlags s).rcp = s.rcp ∧ (markFlags s).hpc = s.hpc ∧
    (markFlags s).pcc = s.pcc ∧ (markFlags s).epm = s.epm ∧ (markFlags s).ilk = s.ilk ∧ (markFlags s).drv = s.drv ∧
    (markFlags s).lnk = s.lnk ∧ (markFlags s).pins = s.pins ∧ (markFlags s).now = s.now ∧
    (markFlags s).freeCount = s.freeCount ∧ (markFlags s).pending = s.pending := by
  simp [markFlags]

@[simp] theorem takeReports_keeps (s : State) :
    (takeReports s).cfg = s.cfg ∧ (takeReports s).peer.table = s.peer.table ∧ (takeReports s).peer.own = s.peer.own ∧
    (takeReports s).peer.refresh = s.peer.refresh ∧ (takeReports s).peer.quiet = s.peer.quiet ∧
    (takeReports s).peer.isolated = s.peer.isolated ∧ (takeReports s).shr = s.shr ∧
    (takeReports s).sdu.dose = s.sdu.dose ∧ (takeReports s).sdu.mismatch = s.sdu.mismatch ∧
    (takeReports s).sdu.u = s.sdu.u ∧ (takeReports s).sdu.blend = s.sdu.blend ∧
    (takeReports s).sdu.share = s.sdu.share ∧ (takeReports s).seq.copy = s.seq.copy ∧
    (takeReports s).seq.index = s.seq.index ∧ (takeReports s).seq.disposition = s.seq.disposition ∧
    (takeReports s).seq.elapsed = s.seq.elapsed ∧ (takeReports s).seq.hold = s.seq.hold ∧
    (takeReports s).seq.endpoint = s.seq.endpoint ∧ (takeReports s).seq.overEnd = s.seq.overEnd ∧
    (takeReports s).rcp = s.rcp ∧ (takeReports s).hpc.stepTargets = s.hpc.stepTargets ∧
    (takeReports s).hpc.warn = s.hpc.warn ∧ (takeReports s).hpc.armed = s.hpc.armed ∧
    (takeReports s).pcc.radius = s.pcc.radius ∧ (takeReports s).pcc.homeFound = s.pcc.homeFound ∧
    (takeReports s).pcc.diskLife = s.pcc.diskLife ∧ (takeReports s).pcc.diskRemainder = s.pcc.diskRemainder ∧
    (takeReports s).pcc.padLife = s.pcc.padLife ∧ (takeReports s).pcc.padRemainder = s.pcc.padRemainder ∧
    (takeReports s).pcc.diskWarned = s.pcc.diskWarned ∧ (takeReports s).pcc.padWarned = s.pcc.padWarned ∧
    (takeReports s).epm.window = s.epm.window ∧ (takeReports s).epm.settings = s.epm.settings ∧
    (takeReports s).ilk = s.ilk ∧ (takeReports s).drv.tachLost = s.drv.tachLost ∧
    (takeReports s).lnk.stopSlot = s.lnk.stopSlot ∧ (takeReports s).lnk.answers = s.lnk.answers ∧
    (takeReports s).lnk.demandSlot = s.lnk.demandSlot ∧ (takeReports s).lnk.sending = s.lnk.sending ∧
    (takeReports s).lnk.carrier = s.lnk.carrier ∧ (takeReports s).lnk.received = s.lnk.received ∧
    (takeReports s).lnk.quiet = s.lnk.quiet ∧ (takeReports s).lnk.collisionSeen = s.lnk.collisionSeen ∧
    (takeReports s).lnk.checkErrorSeen = s.lnk.checkErrorSeen ∧
    (takeReports s).lnk.malformedSeen = s.lnk.malformedSeen ∧ (takeReports s).lnk.dupFound = s.lnk.dupFound ∧
    (takeReports s).pins = s.pins ∧ (takeReports s).now = s.now ∧ (takeReports s).freeCount = s.freeCount ∧
    (takeReports s).pending = s.pending := by
  unfold takeReports
  dsimp only
  (repeat' split) <;> simp

@[simp] theorem judgePersist_keeps (s : State) :
    (judgePersist s).cfg = s.cfg ∧ (judgePersist s).peer = s.peer ∧ (judgePersist s).shr = s.shr ∧
    (judgePersist s).sdu.ch = s.sdu.ch ∧ (judgePersist s).sdu.di = s.sdu.di ∧
    (judgePersist s).sdu.diVolume = s.sdu.diVolume ∧ (judgePersist s).sdu.dose = s.sdu.dose ∧
    (judgePersist s).sdu.mismatch = s.sdu.mismatch ∧ (judgePersist s).sdu.rinseDone = s.sdu.rinseDone ∧
    (judgePersist s).sdu.u = s.sdu.u ∧ (judgePersist s).sdu.blend = s.sdu.blend ∧
    (judgePersist s).sdu.share = s.sdu.share ∧ (judgePersist s).seq = s.seq ∧ (judgePersist s).rcp = s.rcp ∧
    (judgePersist s).hpc = s.hpc ∧ (judgePersist s).pcc = s.pcc ∧ (judgePersist s).epm = s.epm ∧
    (judgePersist s).ilk = s.ilk ∧ (judgePersist s).drv = s.drv ∧ (judgePersist s).lnk = s.lnk ∧
    (judgePersist s).pins = s.pins ∧ (judgePersist s).now = s.now ∧ (judgePersist s).freeCount = s.freeCount ∧
    (judgePersist s).pending = s.pending := by
  simp [judgePersist]

@[simp] theorem carry_keeps (s : State) :
    (carry s).cfg = s.cfg ∧ (carry s).peer.table = s.peer.table ∧ (carry s).peer.lowFeeds = s.peer.lowFeeds ∧
    (carry s).peer.refresh = s.peer.refresh ∧ (carry s).peer.quiet = s.peer.quiet ∧
    (carry s).peer.isolated = s.peer.isolated ∧ (carry s).sdu.ch = s.sdu.ch ∧ (carry s).sdu.di = s.sdu.di ∧
    (carry s).sdu.diVolume = s.sdu.diVolume ∧ (carry s).sdu.dose = s.sdu.dose ∧
    (carry s).sdu.persist = s.sdu.persist ∧ (carry s).sdu.mismatch = s.sdu.mismatch ∧
    (carry s).sdu.rinseDone = s.sdu.rinseDone ∧ (carry s).seq.state = s.seq.state ∧ (carry s).seq.copy = s.seq.copy ∧
    (carry s).seq.index = s.seq.index ∧ (carry s).seq.causes = s.seq.causes ∧
    (carry s).seq.deferred = s.seq.deferred ∧ (carry s).seq.resume = s.seq.resume ∧
    (carry s).seq.disposition = s.seq.disposition ∧ (carry s).seq.elapsed = s.seq.elapsed ∧
    (carry s).seq.hold = s.seq.hold ∧ (carry s).seq.endpoint = s.seq.endpoint ∧
    (carry s).seq.overEnd = s.seq.overEnd ∧ (carry s).seq.record = s.seq.record ∧
    (carry s).seq.result = s.seq.result ∧ (carry s).seq.first = s.seq.first ∧ (carry s).seq.later = s.seq.later ∧
    (carry s).rcp = s.rcp ∧ (carry s).hpc = s.hpc ∧ (carry s).pcc = s.pcc ∧ (carry s).epm = s.epm ∧
    (carry s).ilk = s.ilk ∧ (carry s).drv = s.drv ∧ (carry s).lnk.stopSlot = s.lnk.stopSlot ∧
    (carry s).lnk.answers = s.lnk.answers ∧ (carry s).lnk.notices = s.lnk.notices ∧
    (carry s).lnk.carrier = s.lnk.carrier ∧ (carry s).lnk.received = s.lnk.received ∧
    (carry s).lnk.quiet = s.lnk.quiet ∧ (carry s).lnk.lost = s.lnk.lost ∧
    (carry s).lnk.collisionSeen = s.lnk.collisionSeen ∧ (carry s).lnk.checkErrorSeen = s.lnk.checkErrorSeen ∧
    (carry s).lnk.malformedSeen = s.lnk.malformedSeen ∧ (carry s).lnk.dupFound = s.lnk.dupFound ∧
    (carry s).pins = s.pins ∧ (carry s).now = s.now ∧ (carry s).freeCount = s.freeCount ∧
    (carry s).pending = s.pending := by
  simp [carry]

@[simp] theorem settle_keeps (s : State) :
    (settle s).cfg = s.cfg ∧ (settle s).peer.table = s.peer.table ∧ (settle s).peer.refresh = s.peer.refresh ∧
    (settle s).peer.quiet = s.peer.quiet ∧ (settle s).peer.isolated = s.peer.isolated ∧
    (settle s).sdu.dose = s.sdu.dose ∧ (settle s).sdu.mismatch = s.sdu.mismatch ∧ (settle s).seq.copy = s.seq.copy ∧
    (settle s).seq.index = s.seq.index ∧ (settle s).seq.disposition = s.seq.disposition ∧
    (settle s).seq.elapsed = s.seq.elapsed ∧ (settle s).seq.hold = s.seq.hold ∧
    (settle s).seq.endpoint = s.seq.endpoint ∧ (settle s).seq.overEnd = s.seq.overEnd ∧ (settle s).rcp = s.rcp ∧
    (settle s).hpc.stepTargets = s.hpc.stepTargets ∧ (settle s).hpc.warn = s.hpc.warn ∧
    (settle s).hpc.armed = s.hpc.armed ∧ (settle s).pcc.radius = s.pcc.radius ∧
    (settle s).pcc.homeFound = s.pcc.homeFound ∧ (settle s).pcc.diskLife = s.pcc.diskLife ∧
    (settle s).pcc.diskRemainder = s.pcc.diskRemainder ∧ (settle s).pcc.padLife = s.pcc.padLife ∧
    (settle s).pcc.padRemainder = s.pcc.padRemainder ∧ (settle s).pcc.diskWarned = s.pcc.diskWarned ∧
    (settle s).pcc.padWarned = s.pcc.padWarned ∧ (settle s).epm.window = s.epm.window ∧
    (settle s).epm.settings = s.epm.settings ∧ (settle s).ilk = s.ilk ∧ (settle s).drv.tachLost = s.drv.tachLost ∧
    (settle s).lnk.stopSlot = s.lnk.stopSlot ∧ (settle s).lnk.answers = s.lnk.answers ∧
    (settle s).lnk.carrier = s.lnk.carrier ∧ (settle s).lnk.received = s.lnk.received ∧
    (settle s).lnk.quiet = s.lnk.quiet ∧ (settle s).lnk.collisionSeen = s.lnk.collisionSeen ∧
    (settle s).lnk.checkErrorSeen = s.lnk.checkErrorSeen ∧ (settle s).lnk.malformedSeen = s.lnk.malformedSeen ∧
    (settle s).lnk.dupFound = s.lnk.dupFound ∧ (settle s).pins = s.pins ∧ (settle s).now = s.now ∧
    (settle s).freeCount = s.freeCount ∧ (settle s).pending = s.pending := by
  simp [settle]

@[simp] theorem State.setLine_keeps (s : State) (l : Line) (x : LineState) :
    (State.setLine s l x).cfg = s.cfg ∧ (State.setLine s l x).peer = s.peer ∧ (State.setLine s l x).shr = s.shr ∧
    (State.setLine s l x).sdu = s.sdu ∧ (State.setLine s l x).seq = s.seq ∧ (State.setLine s l x).rcp = s.rcp ∧
    (State.setLine s l x).hpc = s.hpc ∧ (State.setLine s l x).pcc = s.pcc ∧ (State.setLine s l x).epm = s.epm ∧
    (State.setLine s l x).ilk.mode = s.ilk.mode ∧ (State.setLine s l x).ilk.decoded = s.ilk.decoded ∧
    (State.setLine s l x).drv = s.drv ∧ (State.setLine s l x).lnk = s.lnk ∧ (State.setLine s l x).pins = s.pins ∧
    (State.setLine s l x).now = s.now ∧ (State.setLine s l x).freeCount = s.freeCount ∧
    (State.setLine s l x).pending = s.pending := by
  simp [State.setLine]

@[simp] theorem setRaw_keeps (l : Line) (high : Bool) (s : State) :
    (setRaw l high s).cfg = s.cfg ∧ (setRaw l high s).peer = s.peer ∧ (setRaw l high s).shr = s.shr ∧
    (setRaw l high s).sdu = s.sdu ∧ (setRaw l high s).seq = s.seq ∧ (setRaw l high s).rcp = s.rcp ∧
    (setRaw l high s).hpc = s.hpc ∧ (setRaw l high s).pcc = s.pcc ∧ (setRaw l high s).epm = s.epm ∧
    (setRaw l high s).ilk.mode = s.ilk.mode ∧ (setRaw l high s).ilk.decoded = s.ilk.decoded ∧
    (setRaw l high s).drv = s.drv ∧ (setRaw l high s).lnk = s.lnk ∧ (setRaw l high s).now = s.now ∧
    (setRaw l high s).freeCount = s.freeCount ∧ (setRaw l high s).pending = s.pending := by
  simp [setRaw]

@[simp] theorem route_keeps (r : Routing) (l : Line) (s : State) :
    (route r l s).cfg = s.cfg ∧ (route r l s).peer.table = s.peer.table ∧ (route r l s).peer.own = s.peer.own ∧
    (route r l s).peer.refresh = s.peer.refresh ∧ (route r l s).peer.quiet = s.peer.quiet ∧
    (route r l s).peer.isolated = s.peer.isolated ∧ (route r l s).shr = s.shr ∧
    (route r l s).sdu.diVolume = s.sdu.diVolume ∧ (route r l s).sdu.dose = s.sdu.dose ∧
    (route r l s).sdu.mismatch = s.sdu.mismatch ∧ (route r l s).sdu.rinseDone = s.sdu.rinseDone ∧
    (route r l s).sdu.u = s.sdu.u ∧ (route r l s).sdu.blend = s.sdu.blend ∧ (route r l s).sdu.share = s.sdu.share ∧
    (route r l s).seq.copy = s.seq.copy ∧ (route r l s).seq.index = s.seq.index ∧
    (route r l s).seq.disposition = s.seq.disposition ∧ (route r l s).seq.elapsed = s.seq.elapsed ∧
    (route r l s).seq.hold = s.seq.hold ∧ (route r l s).seq.endpoint = s.seq.endpoint ∧
    (route r l s).seq.overEnd = s.seq.overEnd ∧ (route r l s).seq.flags = s.seq.flags ∧ (route r l s).rcp = s.rcp ∧
    (route r l s).hpc.stepTargets = s.hpc.stepTargets ∧ (route r l s).hpc.warn = s.hpc.warn ∧
    (route r l s).hpc.armed = s.hpc.armed ∧ (route r l s).pcc.radius = s.pcc.radius ∧
    (route r l s).pcc.homeFound = s.pcc.homeFound ∧ (route r l s).pcc.search = s.pcc.search ∧
    (route r l s).pcc.diskLife = s.pcc.diskLife ∧ (route r l s).pcc.diskRemainder = s.pcc.diskRemainder ∧
    (route r l s).pcc.padLife = s.pcc.padLife ∧ (route r l s).pcc.padRemainder = s.pcc.padRemainder ∧
    (route r l s).pcc.diskWarned = s.pcc.diskWarned ∧ (route r l s).pcc.padWarned = s.pcc.padWarned ∧
    (route r l s).pcc.condLost = s.pcc.condLost ∧ (route r l s).epm.window = s.epm.window ∧
    (route r l s).epm.settings = s.epm.settings ∧ (route r l s).ilk = s.ilk ∧
    (route r l s).drv.tachLost = s.drv.tachLost ∧ (route r l s).lnk.answers = s.lnk.answers ∧
    (route r l s).lnk.demandSlot = s.lnk.demandSlot ∧ (route r l s).lnk.carrier = s.lnk.carrier ∧
    (route r l s).lnk.received = s.lnk.received ∧ (route r l s).lnk.quiet = s.lnk.quiet ∧
    (route r l s).lnk.collisionSeen = s.lnk.collisionSeen ∧ (route r l s).lnk.checkErrorSeen = s.lnk.checkErrorSeen ∧
    (route r l s).lnk.malformedSeen = s.lnk.malformedSeen ∧ (route r l s).lnk.dupFound = s.lnk.dupFound ∧
    (route r l s).pins = s.pins ∧ (route r l s).now = s.now ∧ (route r l s).freeCount = s.freeCount ∧
    (route r l s).pending = s.pending := by
  unfold route
  split <;> simp

@[simp] theorem lineEvent_keeps (r : Routing) (l : Line) (s : State) :
    (lineEvent r l s).cfg = s.cfg ∧ (lineEvent r l s).peer.table = s.peer.table ∧
    (lineEvent r l s).peer.own = s.peer.own ∧ (lineEvent r l s).peer.refresh = s.peer.refresh ∧
    (lineEvent r l s).peer.quiet = s.peer.quiet ∧ (lineEvent r l s).peer.isolated = s.peer.isolated ∧
    (lineEvent r l s).shr = s.shr ∧ (lineEvent r l s).sdu.diVolume = s.sdu.diVolume ∧
    (lineEvent r l s).sdu.dose = s.sdu.dose ∧ (lineEvent r l s).sdu.mismatch = s.sdu.mismatch ∧
    (lineEvent r l s).sdu.rinseDone = s.sdu.rinseDone ∧ (lineEvent r l s).sdu.u = s.sdu.u ∧
    (lineEvent r l s).sdu.blend = s.sdu.blend ∧ (lineEvent r l s).sdu.share = s.sdu.share ∧
    (lineEvent r l s).seq.copy = s.seq.copy ∧ (lineEvent r l s).seq.index = s.seq.index ∧
    (lineEvent r l s).seq.disposition = s.seq.disposition ∧ (lineEvent r l s).seq.elapsed = s.seq.elapsed ∧
    (lineEvent r l s).seq.hold = s.seq.hold ∧ (lineEvent r l s).seq.endpoint = s.seq.endpoint ∧
    (lineEvent r l s).seq.overEnd = s.seq.overEnd ∧ (lineEvent r l s).seq.flags = s.seq.flags ∧
    (lineEvent r l s).rcp = s.rcp ∧ (lineEvent r l s).hpc.stepTargets = s.hpc.stepTargets ∧
    (lineEvent r l s).hpc.warn = s.hpc.warn ∧ (lineEvent r l s).hpc.armed = s.hpc.armed ∧
    (lineEvent r l s).pcc.radius = s.pcc.radius ∧ (lineEvent r l s).pcc.homeFound = s.pcc.homeFound ∧
    (lineEvent r l s).pcc.search = s.pcc.search ∧ (lineEvent r l s).pcc.diskLife = s.pcc.diskLife ∧
    (lineEvent r l s).pcc.diskRemainder = s.pcc.diskRemainder ∧ (lineEvent r l s).pcc.padLife = s.pcc.padLife ∧
    (lineEvent r l s).pcc.padRemainder = s.pcc.padRemainder ∧ (lineEvent r l s).pcc.diskWarned = s.pcc.diskWarned ∧
    (lineEvent r l s).pcc.padWarned = s.pcc.padWarned ∧ (lineEvent r l s).pcc.condLost = s.pcc.condLost ∧
    (lineEvent r l s).epm.window = s.epm.window ∧ (lineEvent r l s).epm.settings = s.epm.settings ∧
    (lineEvent r l s).ilk = s.ilk ∧ (lineEvent r l s).drv.tachLost = s.drv.tachLost ∧
    (lineEvent r l s).lnk.answers = s.lnk.answers ∧ (lineEvent r l s).lnk.demandSlot = s.lnk.demandSlot ∧
    (lineEvent r l s).lnk.carrier = s.lnk.carrier ∧ (lineEvent r l s).lnk.received = s.lnk.received ∧
    (lineEvent r l s).lnk.quiet = s.lnk.quiet ∧ (lineEvent r l s).lnk.collisionSeen = s.lnk.collisionSeen ∧
    (lineEvent r l s).lnk.checkErrorSeen = s.lnk.checkErrorSeen ∧
    (lineEvent r l s).lnk.malformedSeen = s.lnk.malformedSeen ∧ (lineEvent r l s).lnk.dupFound = s.lnk.dupFound ∧
    (lineEvent r l s).pins = s.pins ∧ (lineEvent r l s).now = s.now ∧ (lineEvent r l s).freeCount = s.freeCount ∧
    (lineEvent r l s).pending = s.pending := by
  simp [lineEvent]

@[simp] theorem takeLine_keeps (l : Line) (s : State) :
    (takeLine l s).cfg = s.cfg ∧ (takeLine l s).peer.table = s.peer.table ∧ (takeLine l s).peer.own = s.peer.own ∧
    (takeLine l s).peer.refresh = s.peer.refresh ∧ (takeLine l s).peer.quiet = s.peer.quiet ∧
    (takeLine l s).peer.isolated = s.peer.isolated ∧ (takeLine l s).shr = s.shr ∧
    (takeLine l s).sdu.diVolume = s.sdu.diVolume ∧ (takeLine l s).sdu.dose = s.sdu.dose ∧
    (takeLine l s).sdu.mismatch = s.sdu.mismatch ∧ (takeLine l s).sdu.rinseDone = s.sdu.rinseDone ∧
    (takeLine l s).sdu.u = s.sdu.u ∧ (takeLine l s).sdu.blend = s.sdu.blend ∧
    (takeLine l s).sdu.share = s.sdu.share ∧ (takeLine l s).seq.copy = s.seq.copy ∧
    (takeLine l s).seq.index = s.seq.index ∧ (takeLine l s).seq.disposition = s.seq.disposition ∧
    (takeLine l s).seq.elapsed = s.seq.elapsed ∧ (takeLine l s).seq.hold = s.seq.hold ∧
    (takeLine l s).seq.endpoint = s.seq.endpoint ∧ (takeLine l s).seq.overEnd = s.seq.overEnd ∧
    (takeLine l s).seq.flags = s.seq.flags ∧ (takeLine l s).rcp = s.rcp ∧
    (takeLine l s).hpc.stepTargets = s.hpc.stepTargets ∧ (takeLine l s).hpc.warn = s.hpc.warn ∧
    (takeLine l s).hpc.armed = s.hpc.armed ∧ (takeLine l s).pcc.radius = s.pcc.radius ∧
    (takeLine l s).pcc.homeFound = s.pcc.homeFound ∧ (takeLine l s).pcc.search = s.pcc.search ∧
    (takeLine l s).pcc.diskLife = s.pcc.diskLife ∧ (takeLine l s).pcc.diskRemainder = s.pcc.diskRemainder ∧
    (takeLine l s).pcc.padLife = s.pcc.padLife ∧ (takeLine l s).pcc.padRemainder = s.pcc.padRemainder ∧
    (takeLine l s).pcc.diskWarned = s.pcc.diskWarned ∧ (takeLine l s).pcc.padWarned = s.pcc.padWarned ∧
    (takeLine l s).pcc.condLost = s.pcc.condLost ∧ (takeLine l s).epm.window = s.epm.window ∧
    (takeLine l s).epm.settings = s.epm.settings ∧ (takeLine l s).ilk.mode = s.ilk.mode ∧
    (takeLine l s).ilk.decoded = s.ilk.decoded ∧ (takeLine l s).drv.tachLost = s.drv.tachLost ∧
    (takeLine l s).lnk.answers = s.lnk.answers ∧ (takeLine l s).lnk.demandSlot = s.lnk.demandSlot ∧
    (takeLine l s).lnk.carrier = s.lnk.carrier ∧ (takeLine l s).lnk.received = s.lnk.received ∧
    (takeLine l s).lnk.quiet = s.lnk.quiet ∧ (takeLine l s).lnk.collisionSeen = s.lnk.collisionSeen ∧
    (takeLine l s).lnk.checkErrorSeen = s.lnk.checkErrorSeen ∧
    (takeLine l s).lnk.malformedSeen = s.lnk.malformedSeen ∧ (takeLine l s).lnk.dupFound = s.lnk.dupFound ∧
    (takeLine l s).pins = s.pins ∧ (takeLine l s).now = s.now ∧ (takeLine l s).freeCount = s.freeCount ∧
    (takeLine l s).pending = s.pending := by
  unfold takeLine
  dsimp only
  (repeat' split) <;> simp

@[simp] theorem takeStop_keeps (s : State) :
    (takeStop s).cfg = s.cfg ∧ (takeStop s).peer.table = s.peer.table ∧ (takeStop s).peer.own = s.peer.own ∧
    (takeStop s).peer.refresh = s.peer.refresh ∧ (takeStop s).peer.quiet = s.peer.quiet ∧
    (takeStop s).peer.isolated = s.peer.isolated ∧ (takeStop s).shr = s.shr ∧
    (takeStop s).sdu.diVolume = s.sdu.diVolume ∧ (takeStop s).sdu.dose = s.sdu.dose ∧
    (takeStop s).sdu.mismatch = s.sdu.mismatch ∧ (takeStop s).sdu.rinseDone = s.sdu.rinseDone ∧
    (takeStop s).sdu.u = s.sdu.u ∧ (takeStop s).sdu.blend = s.sdu.blend ∧ (takeStop s).sdu.share = s.sdu.share ∧
    (takeStop s).seq.copy = s.seq.copy ∧ (takeStop s).seq.index = s.seq.index ∧
    (takeStop s).seq.disposition = s.seq.disposition ∧ (takeStop s).seq.elapsed = s.seq.elapsed ∧
    (takeStop s).seq.hold = s.seq.hold ∧ (takeStop s).seq.endpoint = s.seq.endpoint ∧
    (takeStop s).seq.overEnd = s.seq.overEnd ∧ (takeStop s).seq.flags = s.seq.flags ∧
    (takeStop s).seq.first = s.seq.first ∧ (takeStop s).seq.later = s.seq.later ∧ (takeStop s).rcp = s.rcp ∧
    (takeStop s).hpc.stepTargets = s.hpc.stepTargets ∧ (takeStop s).hpc.warn = s.hpc.warn ∧
    (takeStop s).hpc.armed = s.hpc.armed ∧ (takeStop s).pcc.radius = s.pcc.radius ∧
    (takeStop s).pcc.homeFound = s.pcc.homeFound ∧ (takeStop s).pcc.search = s.pcc.search ∧
    (takeStop s).pcc.diskLife = s.pcc.diskLife ∧ (takeStop s).pcc.diskRemainder = s.pcc.diskRemainder ∧
    (takeStop s).pcc.padLife = s.pcc.padLife ∧ (takeStop s).pcc.padRemainder = s.pcc.padRemainder ∧
    (takeStop s).pcc.diskWarned = s.pcc.diskWarned ∧ (takeStop s).pcc.padWarned = s.pcc.padWarned ∧
    (takeStop s).pcc.condLost = s.pcc.condLost ∧ (takeStop s).epm.window = s.epm.window ∧
    (takeStop s).epm.settings = s.epm.settings ∧ (takeStop s).ilk = s.ilk ∧
    (takeStop s).drv.tachLost = s.drv.tachLost ∧ (takeStop s).lnk.stopSlot = s.lnk.stopSlot ∧
    (takeStop s).lnk.answers = s.lnk.answers ∧ (takeStop s).lnk.demandSlot = s.lnk.demandSlot ∧
    (takeStop s).lnk.sending = s.lnk.sending ∧ (takeStop s).lnk.carrier = s.lnk.carrier ∧
    (takeStop s).lnk.received = s.lnk.received ∧ (takeStop s).lnk.quiet = s.lnk.quiet ∧
    (takeStop s).lnk.collisionSeen = s.lnk.collisionSeen ∧ (takeStop s).lnk.checkErrorSeen = s.lnk.checkErrorSeen ∧
    (takeStop s).lnk.malformedSeen = s.lnk.malformedSeen ∧ (takeStop s).lnk.dupFound = s.lnk.dupFound ∧
    (takeStop s).pins = s.pins ∧ (takeStop s).now = s.now ∧ (takeStop s).freeCount = s.freeCount ∧
    (takeStop s).pending = s.pending := by
  unfold takeStop
  split <;> simp

@[simp] theorem setModeLines_keeps (first second : Bool) (s : State) :
    (setModeLines first second s).cfg = s.cfg ∧ (setModeLines first second s).peer = s.peer ∧
    (setModeLines first second s).shr = s.shr ∧ (setModeLines first second s).sdu = s.sdu ∧
    (setModeLines first second s).seq = s.seq ∧ (setModeLines first second s).rcp = s.rcp ∧
    (setModeLines first second s).hpc = s.hpc ∧ (setModeLines first second s).pcc = s.pcc ∧
    (setModeLines first second s).epm = s.epm ∧ (setModeLines first second s).ilk.mode = s.ilk.mode ∧
    (setModeLines first second s).ilk.lines = s.ilk.lines ∧
    (setModeLines first second s).ilk.decoded = s.ilk.decoded ∧ (setModeLines first second s).drv = s.drv ∧
    (setModeLines first second s).lnk = s.lnk ∧ (setModeLines first second s).now = s.now ∧
    (setModeLines first second s).freeCount = s.freeCount ∧ (setModeLines first second s).pending = s.pending := by
  simp [setModeLines]

@[simp] theorem modeChanged_keeps (m : ToolMode) (s : State) :
    (modeChanged m s).cfg = s.cfg ∧ (modeChanged m s).peer.table = s.peer.table ∧
    (modeChanged m s).peer.own = s.peer.own ∧ (modeChanged m s).peer.refresh = s.peer.refresh ∧
    (modeChanged m s).peer.quiet = s.peer.quiet ∧ (modeChanged m s).peer.isolated = s.peer.isolated ∧
    (modeChanged m s).shr = s.shr ∧ (modeChanged m s).sdu.diVolume = s.sdu.diVolume ∧
    (modeChanged m s).sdu.dose = s.sdu.dose ∧ (modeChanged m s).sdu.mismatch = s.sdu.mismatch ∧
    (modeChanged m s).sdu.rinseDone = s.sdu.rinseDone ∧ (modeChanged m s).sdu.u = s.sdu.u ∧
    (modeChanged m s).sdu.blend = s.sdu.blend ∧ (modeChanged m s).sdu.share = s.sdu.share ∧
    (modeChanged m s).seq.copy = s.seq.copy ∧ (modeChanged m s).seq.index = s.seq.index ∧
    (modeChanged m s).seq.disposition = s.seq.disposition ∧ (modeChanged m s).seq.elapsed = s.seq.elapsed ∧
    (modeChanged m s).seq.hold = s.seq.hold ∧ (modeChanged m s).seq.endpoint = s.seq.endpoint ∧
    (modeChanged m s).seq.overEnd = s.seq.overEnd ∧ (modeChanged m s).seq.flags = s.seq.flags ∧
    (modeChanged m s).seq.first = s.seq.first ∧ (modeChanged m s).seq.later = s.seq.later ∧
    (modeChanged m s).rcp = s.rcp ∧ (modeChanged m s).hpc.stepTargets = s.hpc.stepTargets ∧
    (modeChanged m s).hpc.warn = s.hpc.warn ∧ (modeChanged m s).hpc.armed = s.hpc.armed ∧
    (modeChanged m s).pcc.radius = s.pcc.radius ∧ (modeChanged m s).pcc.homeFound = s.pcc.homeFound ∧
    (modeChanged m s).pcc.search = s.pcc.search ∧ (modeChanged m s).pcc.diskLife = s.pcc.diskLife ∧
    (modeChanged m s).pcc.diskRemainder = s.pcc.diskRemainder ∧ (modeChanged m s).pcc.padLife = s.pcc.padLife ∧
    (modeChanged m s).pcc.padRemainder = s.pcc.padRemainder ∧ (modeChanged m s).pcc.diskWarned = s.pcc.diskWarned ∧
    (modeChanged m s).pcc.padWarned = s.pcc.padWarned ∧ (modeChanged m s).pcc.condLost = s.pcc.condLost ∧
    (modeChanged m s).epm.window = s.epm.window ∧ (modeChanged m s).epm.settings = s.epm.settings ∧
    (modeChanged m s).ilk = s.ilk ∧ (modeChanged m s).drv.tachLost = s.drv.tachLost ∧
    (modeChanged m s).lnk.stopSlot = s.lnk.stopSlot ∧ (modeChanged m s).lnk.answers = s.lnk.answers ∧
    (modeChanged m s).lnk.demandSlot = s.lnk.demandSlot ∧ (modeChanged m s).lnk.sending = s.lnk.sending ∧
    (modeChanged m s).lnk.carrier = s.lnk.carrier ∧ (modeChanged m s).lnk.received = s.lnk.received ∧
    (modeChanged m s).lnk.quiet = s.lnk.quiet ∧ (modeChanged m s).lnk.collisionSeen = s.lnk.collisionSeen ∧
    (modeChanged m s).lnk.checkErrorSeen = s.lnk.checkErrorSeen ∧
    (modeChanged m s).lnk.malformedSeen = s.lnk.malformedSeen ∧ (modeChanged m s).lnk.dupFound = s.lnk.dupFound ∧
    (modeChanged m s).pins = s.pins ∧ (modeChanged m s).now = s.now ∧ (modeChanged m s).freeCount = s.freeCount ∧
    (modeChanged m s).pending = s.pending := by
  unfold modeChanged
  split <;> simp

@[simp] theorem decodeMode_keeps (s : State) :
    (decodeMode s).cfg = s.cfg ∧ (decodeMode s).peer.table = s.peer.table ∧ (decodeMode s).peer.own = s.peer.own ∧
    (decodeMode s).peer.refresh = s.peer.refresh ∧ (decodeMode s).peer.quiet = s.peer.quiet ∧
    (decodeMode s).peer.isolated = s.peer.isolated ∧ (decodeMode s).shr = s.shr ∧
    (decodeMode s).sdu.diVolume = s.sdu.diVolume ∧ (decodeMode s).sdu.dose = s.sdu.dose ∧
    (decodeMode s).sdu.mismatch = s.sdu.mismatch ∧ (decodeMode s).sdu.rinseDone = s.sdu.rinseDone ∧
    (decodeMode s).sdu.u = s.sdu.u ∧ (decodeMode s).sdu.blend = s.sdu.blend ∧
    (decodeMode s).sdu.share = s.sdu.share ∧ (decodeMode s).seq.copy = s.seq.copy ∧
    (decodeMode s).seq.index = s.seq.index ∧ (decodeMode s).seq.disposition = s.seq.disposition ∧
    (decodeMode s).seq.elapsed = s.seq.elapsed ∧ (decodeMode s).seq.hold = s.seq.hold ∧
    (decodeMode s).seq.endpoint = s.seq.endpoint ∧ (decodeMode s).seq.overEnd = s.seq.overEnd ∧
    (decodeMode s).seq.flags = s.seq.flags ∧ (decodeMode s).seq.first = s.seq.first ∧
    (decodeMode s).seq.later = s.seq.later ∧ (decodeMode s).rcp = s.rcp ∧
    (decodeMode s).hpc.stepTargets = s.hpc.stepTargets ∧ (decodeMode s).hpc.warn = s.hpc.warn ∧
    (decodeMode s).hpc.armed = s.hpc.armed ∧ (decodeMode s).pcc.radius = s.pcc.radius ∧
    (decodeMode s).pcc.homeFound = s.pcc.homeFound ∧ (decodeMode s).pcc.search = s.pcc.search ∧
    (decodeMode s).pcc.diskLife = s.pcc.diskLife ∧ (decodeMode s).pcc.diskRemainder = s.pcc.diskRemainder ∧
    (decodeMode s).pcc.padLife = s.pcc.padLife ∧ (decodeMode s).pcc.padRemainder = s.pcc.padRemainder ∧
    (decodeMode s).pcc.diskWarned = s.pcc.diskWarned ∧ (decodeMode s).pcc.padWarned = s.pcc.padWarned ∧
    (decodeMode s).pcc.condLost = s.pcc.condLost ∧ (decodeMode s).epm.window = s.epm.window ∧
    (decodeMode s).epm.settings = s.epm.settings ∧ (decodeMode s).ilk.lines = s.ilk.lines ∧
    (decodeMode s).drv.tachLost = s.drv.tachLost ∧ (decodeMode s).lnk.stopSlot = s.lnk.stopSlot ∧
    (decodeMode s).lnk.answers = s.lnk.answers ∧ (decodeMode s).lnk.demandSlot = s.lnk.demandSlot ∧
    (decodeMode s).lnk.sending = s.lnk.sending ∧ (decodeMode s).lnk.carrier = s.lnk.carrier ∧
    (decodeMode s).lnk.received = s.lnk.received ∧ (decodeMode s).lnk.quiet = s.lnk.quiet ∧
    (decodeMode s).lnk.collisionSeen = s.lnk.collisionSeen ∧
    (decodeMode s).lnk.checkErrorSeen = s.lnk.checkErrorSeen ∧
    (decodeMode s).lnk.malformedSeen = s.lnk.malformedSeen ∧ (decodeMode s).lnk.dupFound = s.lnk.dupFound ∧
    (decodeMode s).pins = s.pins ∧ (decodeMode s).now = s.now ∧ (decodeMode s).freeCount = s.freeCount ∧
    (decodeMode s).pending = s.pending := by
  simp [decodeMode]

@[simp] theorem clearLine_keeps (l : Line) (s : State) :
    (clearLine l s).cfg = s.cfg ∧ (clearLine l s).peer = s.peer ∧ (clearLine l s).shr = s.shr ∧
    (clearLine l s).sdu = s.sdu ∧ (clearLine l s).seq = s.seq ∧ (clearLine l s).rcp = s.rcp ∧
    (clearLine l s).hpc = s.hpc ∧ (clearLine l s).pcc = s.pcc ∧ (clearLine l s).epm = s.epm ∧
    (clearLine l s).ilk.mode = s.ilk.mode ∧ (clearLine l s).ilk.decoded = s.ilk.decoded ∧
    (clearLine l s).drv = s.drv ∧ (clearLine l s).lnk = s.lnk ∧ (clearLine l s).pins = s.pins ∧
    (clearLine l s).now = s.now ∧ (clearLine l s).freeCount = s.freeCount ∧ (clearLine l s).pending = s.pending := by
  simp [clearLine]

@[simp] theorem clearModeIllegal_keeps (s : State) :
    (clearModeIllegal s).cfg = s.cfg ∧ (clearModeIllegal s).peer = s.peer ∧ (clearModeIllegal s).shr = s.shr ∧
    (clearModeIllegal s).sdu = s.sdu ∧ (clearModeIllegal s).seq = s.seq ∧ (clearModeIllegal s).rcp = s.rcp ∧
    (clearModeIllegal s).hpc = s.hpc ∧ (clearModeIllegal s).pcc = s.pcc ∧ (clearModeIllegal s).epm = s.epm ∧
    (clearModeIllegal s).ilk.mode = s.ilk.mode ∧ (clearModeIllegal s).ilk.lines = s.ilk.lines ∧
    (clearModeIllegal s).ilk.decoded = s.ilk.decoded ∧ (clearModeIllegal s).drv = s.drv ∧
    (clearModeIllegal s).lnk = s.lnk ∧ (clearModeIllegal s).pins = s.pins ∧ (clearModeIllegal s).now = s.now ∧
    (clearModeIllegal s).freeCount = s.freeCount ∧ (clearModeIllegal s).pending = s.pending := by
  simp [clearModeIllegal]

@[simp] theorem startOp_keeps (o : StoreOp) (s : State) :
    (startOp o s).cfg = s.cfg ∧ (startOp o s).peer = s.peer ∧ (startOp o s).shr = s.shr ∧ (startOp o s).sdu = s.sdu ∧
    (startOp o s).seq = s.seq ∧ (startOp o s).rcp.slots = s.rcp.slots ∧ (startOp o s).rcp.profiles = s.rcp.profiles ∧
    (startOp o s).rcp.lock = s.rcp.lock ∧ (startOp o s).hpc = s.hpc ∧ (startOp o s).pcc = s.pcc ∧
    (startOp o s).epm = s.epm ∧ (startOp o s).ilk = s.ilk ∧ (startOp o s).drv = s.drv ∧ (startOp o s).lnk = s.lnk ∧
    (startOp o s).pins = s.pins ∧ (startOp o s).now = s.now ∧ (startOp o s).freeCount = s.freeCount ∧
    (startOp o s).pending = s.pending := by
  simp [startOp]

@[simp] theorem eraseTarget_keeps (s : State) :
    (eraseTarget s).cfg = s.cfg ∧ (eraseTarget s).peer = s.peer ∧ (eraseTarget s).shr = s.shr ∧
    (eraseTarget s).sdu = s.sdu ∧ (eraseTarget s).seq = s.seq ∧ (eraseTarget s).hpc = s.hpc ∧
    (eraseTarget s).pcc = s.pcc ∧ (eraseTarget s).epm = s.epm ∧ (eraseTarget s).ilk = s.ilk ∧
    (eraseTarget s).drv = s.drv ∧ (eraseTarget s).lnk = s.lnk ∧ (eraseTarget s).pins = s.pins ∧
    (eraseTarget s).now = s.now ∧ (eraseTarget s).freeCount = s.freeCount ∧ (eraseTarget s).pending = s.pending := by
  unfold eraseTarget
  split <;> simp

@[simp] theorem completeOp_keeps (s : State) :
    (completeOp s).cfg = s.cfg ∧ (completeOp s).peer = s.peer ∧ (completeOp s).shr = s.shr ∧
    (completeOp s).sdu = s.sdu ∧ (completeOp s).seq = s.seq ∧ (completeOp s).hpc = s.hpc ∧
    (completeOp s).pcc = s.pcc ∧ (completeOp s).epm = s.epm ∧ (completeOp s).ilk = s.ilk ∧
    (completeOp s).drv = s.drv ∧ (completeOp s).lnk.stopSlot = s.lnk.stopSlot ∧
    (completeOp s).lnk.answers = s.lnk.answers ∧ (completeOp s).lnk.demandSlot = s.lnk.demandSlot ∧
    (completeOp s).lnk.sending = s.lnk.sending ∧ (completeOp s).lnk.carrier = s.lnk.carrier ∧
    (completeOp s).lnk.received = s.lnk.received ∧ (completeOp s).lnk.quiet = s.lnk.quiet ∧
    (completeOp s).lnk.collisionSeen = s.lnk.collisionSeen ∧
    (completeOp s).lnk.checkErrorSeen = s.lnk.checkErrorSeen ∧
    (completeOp s).lnk.malformedSeen = s.lnk.malformedSeen ∧ (completeOp s).lnk.dupFound = s.lnk.dupFound ∧
    (completeOp s).pins = s.pins ∧ (completeOp s).now = s.now ∧ (completeOp s).freeCount = s.freeCount ∧
    (completeOp s).pending = s.pending := by
  unfold completeOp
  split <;> simp

@[simp] theorem scanStore_keeps (s : State) :
    (scanStore s).cfg = s.cfg ∧ (scanStore s).peer = s.peer ∧ (scanStore s).shr = s.shr ∧ (scanStore s).sdu = s.sdu ∧
    (scanStore s).seq = s.seq ∧ (scanStore s).hpc = s.hpc ∧ (scanStore s).pcc = s.pcc ∧ (scanStore s).epm = s.epm ∧
    (scanStore s).ilk = s.ilk ∧ (scanStore s).drv = s.drv ∧ (scanStore s).lnk = s.lnk ∧ (scanStore s).pins = s.pins ∧
    (scanStore s).now = s.now ∧ (scanStore s).pending = s.pending := by
  simp [scanStore]

@[simp] theorem doReset_keeps (cause : ResetCause) (held : Bool) (s : State) :
    (doReset cause held s).pins = s.pins ∧ (doReset cause held s).now = s.now ∧
    (doReset cause held s).freeCount = s.freeCount ∧ (doReset cause held s).pending = s.pending := by
  simp [doReset]

@[simp] theorem releaseReset_keeps (s : State) :
    (releaseReset s).pins = s.pins ∧ (releaseReset s).now = s.now ∧ (releaseReset s).freeCount = s.freeCount ∧
    (releaseReset s).pending = s.pending := by
  simp [releaseReset]

@[simp] theorem startRefresh_keeps (s : State) :
    (startRefresh s).cfg = s.cfg ∧ (startRefresh s).peer.table = s.peer.table ∧
    (startRefresh s).peer.own = s.peer.own ∧ (startRefresh s).peer.lowFeeds = s.peer.lowFeeds ∧
    (startRefresh s).peer.quiet = s.peer.quiet ∧ (startRefresh s).peer.isolated = s.peer.isolated ∧
    (startRefresh s).shr = s.shr ∧ (startRefresh s).sdu = s.sdu ∧ (startRefresh s).seq = s.seq ∧
    (startRefresh s).rcp = s.rcp ∧ (startRefresh s).hpc = s.hpc ∧ (startRefresh s).pcc = s.pcc ∧
    (startRefresh s).epm = s.epm ∧ (startRefresh s).ilk = s.ilk ∧ (startRefresh s).drv = s.drv ∧
    (startRefresh s).lnk = s.lnk ∧ (startRefresh s).pins = s.pins ∧ (startRefresh s).now = s.now ∧
    (startRefresh s).freeCount = s.freeCount ∧ (startRefresh s).pending = s.pending := by
  simp [startRefresh]

@[simp] theorem calibrate_keeps (s : State) :
    (calibrate s).cfg = s.cfg ∧ (calibrate s).peer = s.peer ∧ (calibrate s).shr = s.shr ∧
    (calibrate s).sdu.di = s.sdu.di ∧ (calibrate s).sdu.diVolume = s.sdu.diVolume ∧
    (calibrate s).sdu.dose = s.sdu.dose ∧ (calibrate s).sdu.persist = s.sdu.persist ∧
    (calibrate s).sdu.mismatch = s.sdu.mismatch ∧ (calibrate s).sdu.rinseDone = s.sdu.rinseDone ∧
    (calibrate s).sdu.u = s.sdu.u ∧ (calibrate s).sdu.blend = s.sdu.blend ∧ (calibrate s).sdu.share = s.sdu.share ∧
    (calibrate s).seq = s.seq ∧ (calibrate s).rcp = s.rcp ∧ (calibrate s).hpc = s.hpc ∧ (calibrate s).pcc = s.pcc ∧
    (calibrate s).epm = s.epm ∧ (calibrate s).ilk = s.ilk ∧ (calibrate s).drv = s.drv ∧ (calibrate s).lnk = s.lnk ∧
    (calibrate s).pins = s.pins ∧ (calibrate s).now = s.now ∧ (calibrate s).freeCount = s.freeCount ∧
    (calibrate s).pending = s.pending := by
  simp [calibrate]

@[simp] theorem startValveChecks_keeps (s : State) :
    (startValveChecks s).cfg = s.cfg ∧ (startValveChecks s).peer = s.peer ∧ (startValveChecks s).shr = s.shr ∧
    (startValveChecks s).sdu.diVolume = s.sdu.diVolume ∧ (startValveChecks s).sdu.dose = s.sdu.dose ∧
    (startValveChecks s).sdu.persist = s.sdu.persist ∧ (startValveChecks s).sdu.mismatch = s.sdu.mismatch ∧
    (startValveChecks s).sdu.rinseDone = s.sdu.rinseDone ∧ (startValveChecks s).sdu.u = s.sdu.u ∧
    (startValveChecks s).sdu.blend = s.sdu.blend ∧ (startValveChecks s).sdu.share = s.sdu.share ∧
    (startValveChecks s).seq = s.seq ∧ (startValveChecks s).rcp = s.rcp ∧ (startValveChecks s).hpc = s.hpc ∧
    (startValveChecks s).pcc = s.pcc ∧ (startValveChecks s).epm = s.epm ∧ (startValveChecks s).ilk = s.ilk ∧
    (startValveChecks s).drv = s.drv ∧ (startValveChecks s).lnk = s.lnk ∧ (startValveChecks s).pins = s.pins ∧
    (startValveChecks s).now = s.now ∧ (startValveChecks s).freeCount = s.freeCount ∧
    (startValveChecks s).pending = s.pending := by
  simp [startValveChecks]

@[simp] theorem startDebouncers_keeps (s : State) :
    (startDebouncers s).cfg = s.cfg ∧ (startDebouncers s).peer = s.peer ∧ (startDebouncers s).shr = s.shr ∧
    (startDebouncers s).sdu = s.sdu ∧ (startDebouncers s).seq = s.seq ∧ (startDebouncers s).rcp = s.rcp ∧
    (startDebouncers s).hpc = s.hpc ∧ (startDebouncers s).pcc = s.pcc ∧ (startDebouncers s).epm = s.epm ∧
    (startDebouncers s).ilk.mode = s.ilk.mode ∧ (startDebouncers s).ilk.decoded = s.ilk.decoded ∧
    (startDebouncers s).drv = s.drv ∧ (startDebouncers s).lnk = s.lnk ∧ (startDebouncers s).pins = s.pins ∧
    (startDebouncers s).now = s.now ∧ (startDebouncers s).freeCount = s.freeCount ∧
    (startDebouncers s).pending = s.pending := by
  simp [startDebouncers]

@[simp] theorem loadImage_keeps (b : List Byte) (s : State) :
    (loadImage b s).peer.table = s.peer.table ∧ (loadImage b s).peer.own = s.peer.own ∧
    (loadImage b s).peer.quiet = s.peer.quiet ∧ (loadImage b s).peer.isolated = s.peer.isolated ∧
    (loadImage b s).shr = s.shr ∧ (loadImage b s).sdu.diVolume = s.sdu.diVolume ∧
    (loadImage b s).sdu.dose = s.sdu.dose ∧ (loadImage b s).sdu.mismatch = s.sdu.mismatch ∧
    (loadImage b s).sdu.rinseDone = s.sdu.rinseDone ∧ (loadImage b s).sdu.u = s.sdu.u ∧
    (loadImage b s).sdu.blend = s.sdu.blend ∧ (loadImage b s).sdu.share = s.sdu.share ∧
    (loadImage b s).seq.copy = s.seq.copy ∧ (loadImage b s).seq.index = s.seq.index ∧
    (loadImage b s).seq.disposition = s.seq.disposition ∧ (loadImage b s).seq.elapsed = s.seq.elapsed ∧
    (loadImage b s).seq.hold = s.seq.hold ∧ (loadImage b s).seq.endpoint = s.seq.endpoint ∧
    (loadImage b s).seq.overEnd = s.seq.overEnd ∧ (loadImage b s).seq.flags = s.seq.flags ∧
    (loadImage b s).hpc.stepTargets = s.hpc.stepTargets ∧ (loadImage b s).hpc.warn = s.hpc.warn ∧
    (loadImage b s).hpc.armed = s.hpc.armed ∧ (loadImage b s).pcc.diskLife = s.pcc.diskLife ∧
    (loadImage b s).pcc.diskRemainder = s.pcc.diskRemainder ∧ (loadImage b s).pcc.padLife = s.pcc.padLife ∧
    (loadImage b s).pcc.padRemainder = s.pcc.padRemainder ∧ (loadImage b s).pcc.condLost = s.pcc.condLost ∧
    (loadImage b s).epm.window = s.epm.window ∧ (loadImage b s).epm.settings = s.epm.settings ∧
    (loadImage b s).ilk.mode = s.ilk.mode ∧ (loadImage b s).ilk.decoded = s.ilk.decoded ∧
    (loadImage b s).drv.tachLost = s.drv.tachLost ∧ (loadImage b s).lnk.stopSlot = s.lnk.stopSlot ∧
    (loadImage b s).lnk.answers = s.lnk.answers ∧ (loadImage b s).lnk.demandSlot = s.lnk.demandSlot ∧
    (loadImage b s).lnk.sending = s.lnk.sending ∧ (loadImage b s).lnk.carrier = s.lnk.carrier ∧
    (loadImage b s).lnk.received = s.lnk.received ∧ (loadImage b s).lnk.quiet = s.lnk.quiet ∧
    (loadImage b s).lnk.collisionSeen = s.lnk.collisionSeen ∧
    (loadImage b s).lnk.checkErrorSeen = s.lnk.checkErrorSeen ∧
    (loadImage b s).lnk.malformedSeen = s.lnk.malformedSeen ∧ (loadImage b s).lnk.dupFound = s.lnk.dupFound ∧
    (loadImage b s).pins = s.pins ∧ (loadImage b s).now = s.now ∧ (loadImage b s).pending = s.pending := by
  simp [loadImage]

@[simp] theorem failLoad_keeps (s : State) :
    (failLoad s).peer = s.peer ∧ (failLoad s).shr = s.shr ∧ (failLoad s).sdu = s.sdu ∧ (failLoad s).seq = s.seq ∧
    (failLoad s).rcp = s.rcp ∧ (failLoad s).hpc = s.hpc ∧ (failLoad s).pcc = s.pcc ∧ (failLoad s).epm = s.epm ∧
    (failLoad s).ilk.lines = s.ilk.lines ∧ (failLoad s).ilk.decoded = s.ilk.decoded ∧ (failLoad s).drv = s.drv ∧
    (failLoad s).pins = s.pins ∧ (failLoad s).now = s.now ∧ (failLoad s).freeCount = s.freeCount ∧
    (failLoad s).pending = s.pending := by
  simp [failLoad]

@[simp] theorem endSettle_keeps (s : State) :
    (endSettle s).peer.table = s.peer.table ∧ (endSettle s).peer.own = s.peer.own ∧
    (endSettle s).peer.quiet = s.peer.quiet ∧ (endSettle s).peer.isolated = s.peer.isolated ∧
    (endSettle s).shr = s.shr ∧ (endSettle s).sdu.diVolume = s.sdu.diVolume ∧ (endSettle s).sdu.dose = s.sdu.dose ∧
    (endSettle s).sdu.mismatch = s.sdu.mismatch ∧ (endSettle s).sdu.rinseDone = s.sdu.rinseDone ∧
    (endSettle s).sdu.u = s.sdu.u ∧ (endSettle s).sdu.blend = s.sdu.blend ∧ (endSettle s).sdu.share = s.sdu.share ∧
    (endSettle s).seq.copy = s.seq.copy ∧ (endSettle s).seq.index = s.seq.index ∧
    (endSettle s).seq.disposition = s.seq.disposition ∧ (endSettle s).seq.elapsed = s.seq.elapsed ∧
    (endSettle s).seq.hold = s.seq.hold ∧ (endSettle s).seq.endpoint = s.seq.endpoint ∧
    (endSettle s).seq.overEnd = s.seq.overEnd ∧ (endSettle s).seq.flags = s.seq.flags ∧
    (endSettle s).hpc.stepTargets = s.hpc.stepTargets ∧ (endSettle s).hpc.warn = s.hpc.warn ∧
    (endSettle s).hpc.armed = s.hpc.armed ∧ (endSettle s).pcc.diskLife = s.pcc.diskLife ∧
    (endSettle s).pcc.diskRemainder = s.pcc.diskRemainder ∧ (endSettle s).pcc.padLife = s.pcc.padLife ∧
    (endSettle s).pcc.padRemainder = s.pcc.padRemainder ∧ (endSettle s).pcc.condLost = s.pcc.condLost ∧
    (endSettle s).epm.window = s.epm.window ∧ (endSettle s).epm.settings = s.epm.settings ∧
    (endSettle s).ilk.decoded = s.ilk.decoded ∧ (endSettle s).drv.tachLost = s.drv.tachLost ∧
    (endSettle s).pins = s.pins ∧ (endSettle s).now = s.now ∧ (endSettle s).pending = s.pending := by
  unfold endSettle
  split <;> simp

@[simp] theorem noticeStarted_keeps (s : State) :
    (noticeStarted s).cfg = s.cfg ∧ (noticeStarted s).peer = s.peer ∧ (noticeStarted s).shr = s.shr ∧
    (noticeStarted s).sdu = s.sdu ∧ (noticeStarted s).seq = s.seq ∧ (noticeStarted s).rcp = s.rcp ∧
    (noticeStarted s).hpc = s.hpc ∧ (noticeStarted s).pcc = s.pcc ∧ (noticeStarted s).epm = s.epm ∧
    (noticeStarted s).ilk = s.ilk ∧ (noticeStarted s).drv = s.drv ∧ (noticeStarted s).lnk.stopSlot = s.lnk.stopSlot ∧
    (noticeStarted s).lnk.answers = s.lnk.answers ∧ (noticeStarted s).lnk.demandSlot = s.lnk.demandSlot ∧
    (noticeStarted s).lnk.sending = s.lnk.sending ∧ (noticeStarted s).lnk.carrier = s.lnk.carrier ∧
    (noticeStarted s).lnk.received = s.lnk.received ∧ (noticeStarted s).lnk.quiet = s.lnk.quiet ∧
    (noticeStarted s).lnk.collisionSeen = s.lnk.collisionSeen ∧
    (noticeStarted s).lnk.checkErrorSeen = s.lnk.checkErrorSeen ∧
    (noticeStarted s).lnk.malformedSeen = s.lnk.malformedSeen ∧ (noticeStarted s).lnk.dupFound = s.lnk.dupFound ∧
    (noticeStarted s).pins = s.pins ∧ (noticeStarted s).now = s.now ∧ (noticeStarted s).freeCount = s.freeCount ∧
    (noticeStarted s).pending = s.pending := by
  simp [noticeStarted]

@[simp] theorem enterReady_keeps (s : State) :
    (enterReady s).peer = s.peer ∧ (enterReady s).shr = s.shr ∧ (enterReady s).sdu = s.sdu ∧
    (enterReady s).seq = s.seq ∧ (enterReady s).rcp = s.rcp ∧ (enterReady s).hpc = s.hpc ∧
    (enterReady s).pcc = s.pcc ∧ (enterReady s).epm = s.epm ∧ (enterReady s).ilk = s.ilk ∧
    (enterReady s).drv = s.drv ∧ (enterReady s).lnk.stopSlot = s.lnk.stopSlot ∧
    (enterReady s).lnk.answers = s.lnk.answers ∧ (enterReady s).lnk.carrier = s.lnk.carrier ∧
    (enterReady s).lnk.received = s.lnk.received ∧ (enterReady s).lnk.quiet = s.lnk.quiet ∧
    (enterReady s).lnk.collisionSeen = s.lnk.collisionSeen ∧
    (enterReady s).lnk.checkErrorSeen = s.lnk.checkErrorSeen ∧
    (enterReady s).lnk.malformedSeen = s.lnk.malformedSeen ∧ (enterReady s).lnk.dupFound = s.lnk.dupFound ∧
    (enterReady s).pins = s.pins ∧ (enterReady s).now = s.now ∧ (enterReady s).freeCount = s.freeCount ∧
    (enterReady s).pending = s.pending := by
  simp [enterReady]

@[simp] theorem countListen_keeps (s : State) :
    (countListen s).peer = s.peer ∧ (countListen s).shr = s.shr ∧ (countListen s).sdu = s.sdu ∧
    (countListen s).seq = s.seq ∧ (countListen s).rcp = s.rcp ∧ (countListen s).hpc = s.hpc ∧
    (countListen s).pcc = s.pcc ∧ (countListen s).epm = s.epm ∧ (countListen s).ilk = s.ilk ∧
    (countListen s).drv = s.drv ∧ (countListen s).lnk = s.lnk ∧ (countListen s).pins = s.pins ∧
    (countListen s).now = s.now ∧ (countListen s).freeCount = s.freeCount ∧ (countListen s).pending = s.pending := by
  simp [countListen]

@[simp] theorem findDuplicate_keeps (s : State) :
    (findDuplicate s).pins = s.pins ∧ (findDuplicate s).now = s.now ∧ (findDuplicate s).freeCount = s.freeCount ∧
    (findDuplicate s).pending = s.pending := by
  simp [findDuplicate]

@[simp] theorem takeCopy_keeps (sl : Slot) (s : State) :
    (takeCopy sl s).cfg = s.cfg ∧ (takeCopy sl s).peer.table = s.peer.table ∧ (takeCopy sl s).peer.own = s.peer.own ∧
    (takeCopy sl s).peer.refresh = s.peer.refresh ∧ (takeCopy sl s).peer.quiet = s.peer.quiet ∧
    (takeCopy sl s).peer.isolated = s.peer.isolated ∧ (takeCopy sl s).shr = s.shr ∧
    (takeCopy sl s).sdu.diVolume = s.sdu.diVolume ∧ (takeCopy sl s).sdu.dose = s.sdu.dose ∧
    (takeCopy sl s).sdu.persist = s.sdu.persist ∧ (takeCopy sl s).sdu.mismatch = s.sdu.mismatch ∧
    (takeCopy sl s).sdu.rinseDone = s.sdu.rinseDone ∧ (takeCopy sl s).sdu.u = s.sdu.u ∧
    (takeCopy sl s).sdu.blend = s.sdu.blend ∧ (takeCopy sl s).sdu.share = s.sdu.share ∧
    (takeCopy sl s).seq.causes = s.seq.causes ∧ (takeCopy sl s).seq.deferred = s.seq.deferred ∧
    (takeCopy sl s).seq.resume = s.seq.resume ∧ (takeCopy sl s).seq.disposition = s.seq.disposition ∧
    (takeCopy sl s).seq.elapsed = s.seq.elapsed ∧ (takeCopy sl s).seq.hold = s.seq.hold ∧
    (takeCopy sl s).seq.endpoint = s.seq.endpoint ∧ (takeCopy sl s).seq.overEnd = s.seq.overEnd ∧
    (takeCopy sl s).seq.flags = s.seq.flags ∧ (takeCopy sl s).seq.first = s.seq.first ∧
    (takeCopy sl s).seq.later = s.seq.later ∧ (takeCopy sl s).rcp = s.rcp ∧
    (takeCopy sl s).hpc.stepTargets = s.hpc.stepTargets ∧ (takeCopy sl s).hpc.warn = s.hpc.warn ∧
    (takeCopy sl s).hpc.armed = s.hpc.armed ∧ (takeCopy sl s).pcc = s.pcc ∧
    (takeCopy sl s).epm.window = s.epm.window ∧ (takeCopy sl s).epm.settings = s.epm.settings ∧
    (takeCopy sl s).ilk = s.ilk ∧ (takeCopy sl s).drv.tachLost = s.drv.tachLost ∧ (takeCopy sl s).lnk = s.lnk ∧
    (takeCopy sl s).pins = s.pins ∧ (takeCopy sl s).now = s.now ∧ (takeCopy sl s).freeCount = s.freeCount ∧
    (takeCopy sl s).pending = s.pending := by
  simp [takeCopy]

@[simp] theorem clearLinkFlags_keeps (mask : BitVec 16) (s : State) :
    (clearLinkFlags mask s).cfg = s.cfg ∧ (clearLinkFlags mask s).peer = s.peer ∧
    (clearLinkFlags mask s).shr = s.shr ∧ (clearLinkFlags mask s).sdu = s.sdu ∧ (clearLinkFlags mask s).seq = s.seq ∧
    (clearLinkFlags mask s).rcp = s.rcp ∧ (clearLinkFlags mask s).hpc = s.hpc ∧ (clearLinkFlags mask s).pcc = s.pcc ∧
    (clearLinkFlags mask s).epm = s.epm ∧ (clearLinkFlags mask s).ilk = s.ilk ∧ (clearLinkFlags mask s).drv = s.drv ∧
    (clearLinkFlags mask s).lnk.stopSlot = s.lnk.stopSlot ∧ (clearLinkFlags mask s).lnk.answers = s.lnk.answers ∧
    (clearLinkFlags mask s).lnk.demandSlot = s.lnk.demandSlot ∧ (clearLinkFlags mask s).lnk.notices = s.lnk.notices ∧
    (clearLinkFlags mask s).lnk.sending = s.lnk.sending ∧ (clearLinkFlags mask s).lnk.carrier = s.lnk.carrier ∧
    (clearLinkFlags mask s).lnk.received = s.lnk.received ∧ (clearLinkFlags mask s).lnk.quiet = s.lnk.quiet ∧
    (clearLinkFlags mask s).lnk.lost = s.lnk.lost ∧ (clearLinkFlags mask s).lnk.dupFound = s.lnk.dupFound ∧
    (clearLinkFlags mask s).pins = s.pins ∧ (clearLinkFlags mask s).now = s.now ∧
    (clearLinkFlags mask s).freeCount = s.freeCount ∧ (clearLinkFlags mask s).pending = s.pending := by
  simp [clearLinkFlags]

@[simp] theorem startFrame_keeps (s : State) :
    (startFrame s).cfg = s.cfg ∧ (startFrame s).peer = s.peer ∧ (startFrame s).shr = s.shr ∧
    (startFrame s).sdu = s.sdu ∧ (startFrame s).seq = s.seq ∧ (startFrame s).rcp = s.rcp ∧
    (startFrame s).hpc = s.hpc ∧ (startFrame s).pcc = s.pcc ∧ (startFrame s).epm = s.epm ∧
    (startFrame s).ilk = s.ilk ∧ (startFrame s).drv = s.drv ∧ (startFrame s).lnk.stopSlot = s.lnk.stopSlot ∧
    (startFrame s).lnk.answers = s.lnk.answers ∧ (startFrame s).lnk.demandSlot = s.lnk.demandSlot ∧
    (startFrame s).lnk.notices = s.lnk.notices ∧ (startFrame s).lnk.carrier = s.lnk.carrier ∧
    (startFrame s).lnk.received = s.lnk.received ∧ (startFrame s).lnk.lost = s.lnk.lost ∧
    (startFrame s).lnk.collisionSeen = s.lnk.collisionSeen ∧
    (startFrame s).lnk.checkErrorSeen = s.lnk.checkErrorSeen ∧
    (startFrame s).lnk.malformedSeen = s.lnk.malformedSeen ∧ (startFrame s).lnk.dupFound = s.lnk.dupFound ∧
    (startFrame s).pins = s.pins ∧ (startFrame s).now = s.now ∧ (startFrame s).freeCount = s.freeCount ∧
    (startFrame s).pending = s.pending := by
  unfold startFrame
  split <;> simp

@[simp] theorem restartIfSent_keeps (s : State) :
    (restartIfSent s).pins = s.pins ∧ (restartIfSent s).now = s.now ∧ (restartIfSent s).freeCount = s.freeCount ∧
    (restartIfSent s).pending = s.pending := by
  simp [restartIfSent]

@[simp] theorem finishFrame_keeps (s : State) :
    (finishFrame s).pins = s.pins ∧ (finishFrame s).now = s.now ∧ (finishFrame s).freeCount = s.freeCount ∧
    (finishFrame s).pending = s.pending := by
  unfold finishFrame
  split <;> simp

@[simp] theorem mismatchEcho_keeps (s : State) :
    (mismatchEcho s).pins = s.pins ∧ (mismatchEcho s).now = s.now ∧ (mismatchEcho s).freeCount = s.freeCount ∧
    (mismatchEcho s).pending = s.pending := by
  unfold mismatchEcho
  split <;> simp

@[simp] theorem beginCarrier_keeps (s : State) :
    (beginCarrier s).cfg = s.cfg ∧ (beginCarrier s).peer = s.peer ∧ (beginCarrier s).shr = s.shr ∧
    (beginCarrier s).sdu = s.sdu ∧ (beginCarrier s).seq = s.seq ∧ (beginCarrier s).rcp = s.rcp ∧
    (beginCarrier s).hpc = s.hpc ∧ (beginCarrier s).pcc = s.pcc ∧ (beginCarrier s).epm = s.epm ∧
    (beginCarrier s).ilk = s.ilk ∧ (beginCarrier s).drv = s.drv ∧ (beginCarrier s).lnk.stopSlot = s.lnk.stopSlot ∧
    (beginCarrier s).lnk.answers = s.lnk.answers ∧ (beginCarrier s).lnk.demandSlot = s.lnk.demandSlot ∧
    (beginCarrier s).lnk.notices = s.lnk.notices ∧ (beginCarrier s).lnk.sending = s.lnk.sending ∧
    (beginCarrier s).lnk.lost = s.lnk.lost ∧ (beginCarrier s).lnk.collisionSeen = s.lnk.collisionSeen ∧
    (beginCarrier s).lnk.checkErrorSeen = s.lnk.checkErrorSeen ∧
    (beginCarrier s).lnk.malformedSeen = s.lnk.malformedSeen ∧ (beginCarrier s).lnk.dupFound = s.lnk.dupFound ∧
    (beginCarrier s).pins = s.pins ∧ (beginCarrier s).now = s.now ∧ (beginCarrier s).freeCount = s.freeCount ∧
    (beginCarrier s).pending = s.pending := by
  simp [beginCarrier]

@[simp] theorem stepDerate_keeps (f : Feed) (s : State) :
    (stepDerate f s).cfg = s.cfg ∧ (stepDerate f s).peer = s.peer ∧ (stepDerate f s).sdu = s.sdu ∧
    (stepDerate f s).seq = s.seq ∧ (stepDerate f s).rcp = s.rcp ∧ (stepDerate f s).hpc = s.hpc ∧
    (stepDerate f s).pcc = s.pcc ∧ (stepDerate f s).epm = s.epm ∧ (stepDerate f s).ilk = s.ilk ∧
    (stepDerate f s).drv = s.drv ∧ (stepDerate f s).lnk = s.lnk ∧ (stepDerate f s).pins = s.pins ∧
    (stepDerate f s).now = s.now ∧ (stepDerate f s).freeCount = s.freeCount ∧
    (stepDerate f s).pending = s.pending := by
  simp [stepDerate]

@[simp] theorem expireHoldOff_keeps (f : Feed) (s : State) :
    (expireHoldOff f s).cfg = s.cfg ∧ (expireHoldOff f s).peer = s.peer ∧ (expireHoldOff f s).sdu = s.sdu ∧
    (expireHoldOff f s).seq = s.seq ∧ (expireHoldOff f s).rcp = s.rcp ∧ (expireHoldOff f s).hpc = s.hpc ∧
    (expireHoldOff f s).pcc = s.pcc ∧ (expireHoldOff f s).epm = s.epm ∧ (expireHoldOff f s).ilk = s.ilk ∧
    (expireHoldOff f s).drv = s.drv ∧ (expireHoldOff f s).lnk = s.lnk ∧ (expireHoldOff f s).pins = s.pins ∧
    (expireHoldOff f s).now = s.now ∧ (expireHoldOff f s).freeCount = s.freeCount ∧
    (expireHoldOff f s).pending = s.pending := by
  simp [expireHoldOff]

@[simp] theorem endWarmUp_keeps (ch : Channel) (s : State) :
    (endWarmUp ch s).cfg = s.cfg ∧ (endWarmUp ch s).peer = s.peer ∧ (endWarmUp ch s).shr = s.shr ∧
    (endWarmUp ch s).sdu.di = s.sdu.di ∧ (endWarmUp ch s).sdu.diVolume = s.sdu.diVolume ∧
    (endWarmUp ch s).sdu.dose = s.sdu.dose ∧ (endWarmUp ch s).sdu.persist = s.sdu.persist ∧
    (endWarmUp ch s).sdu.mismatch = s.sdu.mismatch ∧ (endWarmUp ch s).sdu.rinseDone = s.sdu.rinseDone ∧
    (endWarmUp ch s).sdu.u = s.sdu.u ∧ (endWarmUp ch s).sdu.blend = s.sdu.blend ∧
    (endWarmUp ch s).sdu.share = s.sdu.share ∧ (endWarmUp ch s).seq = s.seq ∧ (endWarmUp ch s).rcp = s.rcp ∧
    (endWarmUp ch s).hpc = s.hpc ∧ (endWarmUp ch s).pcc = s.pcc ∧ (endWarmUp ch s).epm = s.epm ∧
    (endWarmUp ch s).ilk = s.ilk ∧ (endWarmUp ch s).drv = s.drv ∧ (endWarmUp ch s).lnk = s.lnk ∧
    (endWarmUp ch s).pins = s.pins ∧ (endWarmUp ch s).now = s.now ∧ (endWarmUp ch s).freeCount = s.freeCount ∧
    (endWarmUp ch s).pending = s.pending := by
  simp [endWarmUp]

@[simp] theorem reportSupply_keeps (s : State) :
    (reportSupply s).cfg = s.cfg ∧ (reportSupply s).peer = s.peer ∧ (reportSupply s).shr = s.shr ∧
    (reportSupply s).sdu.ch = s.sdu.ch ∧ (reportSupply s).sdu.di = s.sdu.di ∧
    (reportSupply s).sdu.diVolume = s.sdu.diVolume ∧ (reportSupply s).sdu.dose = s.sdu.dose ∧
    (reportSupply s).sdu.mismatch = s.sdu.mismatch ∧ (reportSupply s).sdu.rinseDone = s.sdu.rinseDone ∧
    (reportSupply s).sdu.u = s.sdu.u ∧ (reportSupply s).sdu.blend = s.sdu.blend ∧
    (reportSupply s).sdu.share = s.sdu.share ∧ (reportSupply s).seq.copy = s.seq.copy ∧
    (reportSupply s).seq.index = s.seq.index ∧ (reportSupply s).seq.deferred = s.seq.deferred ∧
    (reportSupply s).seq.disposition = s.seq.disposition ∧ (reportSupply s).seq.elapsed = s.seq.elapsed ∧
    (reportSupply s).seq.hold = s.seq.hold ∧ (reportSupply s).seq.endpoint = s.seq.endpoint ∧
    (reportSupply s).seq.overEnd = s.seq.overEnd ∧ (reportSupply s).seq.flags = s.seq.flags ∧
    (reportSupply s).seq.record = s.seq.record ∧ (reportSupply s).seq.result = s.seq.result ∧
    (reportSupply s).seq.first = s.seq.first ∧ (reportSupply s).seq.later = s.seq.later ∧
    (reportSupply s).rcp = s.rcp ∧ (reportSupply s).hpc.stepTargets = s.hpc.stepTargets ∧
    (reportSupply s).hpc.warn = s.hpc.warn ∧ (reportSupply s).hpc.armed = s.hpc.armed ∧
    (reportSupply s).pcc.radius = s.pcc.radius ∧ (reportSupply s).pcc.homeFound = s.pcc.homeFound ∧
    (reportSupply s).pcc.search = s.pcc.search ∧ (reportSupply s).pcc.diskLife = s.pcc.diskLife ∧
    (reportSupply s).pcc.diskRemainder = s.pcc.diskRemainder ∧ (reportSupply s).pcc.padLife = s.pcc.padLife ∧
    (reportSupply s).pcc.padRemainder = s.pcc.padRemainder ∧ (reportSupply s).pcc.diskWarned = s.pcc.diskWarned ∧
    (reportSupply s).pcc.padWarned = s.pcc.padWarned ∧ (reportSupply s).pcc.condLost = s.pcc.condLost ∧
    (reportSupply s).pcc.withdrawn = s.pcc.withdrawn ∧ (reportSupply s).epm.window = s.epm.window ∧
    (reportSupply s).epm.settings = s.epm.settings ∧ (reportSupply s).ilk = s.ilk ∧ (reportSupply s).drv = s.drv ∧
    (reportSupply s).lnk.stopSlot = s.lnk.stopSlot ∧ (reportSupply s).lnk.answers = s.lnk.answers ∧
    (reportSupply s).lnk.demandSlot = s.lnk.demandSlot ∧ (reportSupply s).lnk.sending = s.lnk.sending ∧
    (reportSupply s).lnk.carrier = s.lnk.carrier ∧ (reportSupply s).lnk.received = s.lnk.received ∧
    (reportSupply s).lnk.quiet = s.lnk.quiet ∧ (reportSupply s).lnk.collisionSeen = s.lnk.collisionSeen ∧
    (reportSupply s).lnk.checkErrorSeen = s.lnk.checkErrorSeen ∧
    (reportSupply s).lnk.malformedSeen = s.lnk.malformedSeen ∧ (reportSupply s).lnk.dupFound = s.lnk.dupFound ∧
    (reportSupply s).pins = s.pins ∧ (reportSupply s).now = s.now ∧ (reportSupply s).freeCount = s.freeCount ∧
    (reportSupply s).pending = s.pending := by
  simp [reportSupply]

@[simp] theorem reachMinTime_keeps (s : State) :
    (reachMinTime s).cfg = s.cfg ∧ (reachMinTime s).peer.table = s.peer.table ∧
    (reachMinTime s).peer.own = s.peer.own ∧ (reachMinTime s).peer.refresh = s.peer.refresh ∧
    (reachMinTime s).peer.quiet = s.peer.quiet ∧ (reachMinTime s).peer.isolated = s.peer.isolated ∧
    (reachMinTime s).shr = s.shr ∧ (reachMinTime s).sdu.dose = s.sdu.dose ∧
    (reachMinTime s).sdu.mismatch = s.sdu.mismatch ∧ (reachMinTime s).sdu.u = s.sdu.u ∧
    (reachMinTime s).sdu.blend = s.sdu.blend ∧ (reachMinTime s).sdu.share = s.sdu.share ∧
    (reachMinTime s).seq.copy = s.seq.copy ∧ (reachMinTime s).seq.index = s.seq.index ∧
    (reachMinTime s).seq.disposition = s.seq.disposition ∧ (reachMinTime s).seq.elapsed = s.seq.elapsed ∧
    (reachMinTime s).seq.hold = s.seq.hold ∧ (reachMinTime s).seq.endpoint = s.seq.endpoint ∧
    (reachMinTime s).seq.overEnd = s.seq.overEnd ∧ (reachMinTime s).seq.flags = s.seq.flags ∧
    (reachMinTime s).rcp = s.rcp ∧ (reachMinTime s).hpc.stepTargets = s.hpc.stepTargets ∧
    (reachMinTime s).hpc.warn = s.hpc.warn ∧ (reachMinTime s).hpc.armed = s.hpc.armed ∧
    (reachMinTime s).pcc.radius = s.pcc.radius ∧ (reachMinTime s).pcc.homeFound = s.pcc.homeFound ∧
    (reachMinTime s).pcc.search = s.pcc.search ∧ (reachMinTime s).pcc.diskLife = s.pcc.diskLife ∧
    (reachMinTime s).pcc.diskRemainder = s.pcc.diskRemainder ∧ (reachMinTime s).pcc.padLife = s.pcc.padLife ∧
    (reachMinTime s).pcc.padRemainder = s.pcc.padRemainder ∧ (reachMinTime s).pcc.diskWarned = s.pcc.diskWarned ∧
    (reachMinTime s).pcc.padWarned = s.pcc.padWarned ∧ (reachMinTime s).pcc.condLost = s.pcc.condLost ∧
    (reachMinTime s).epm.window = s.epm.window ∧ (reachMinTime s).epm.settings = s.epm.settings ∧
    (reachMinTime s).ilk = s.ilk ∧ (reachMinTime s).drv.tachLost = s.drv.tachLost ∧
    (reachMinTime s).lnk.stopSlot = s.lnk.stopSlot ∧ (reachMinTime s).lnk.answers = s.lnk.answers ∧
    (reachMinTime s).lnk.demandSlot = s.lnk.demandSlot ∧ (reachMinTime s).lnk.sending = s.lnk.sending ∧
    (reachMinTime s).lnk.carrier = s.lnk.carrier ∧ (reachMinTime s).lnk.received = s.lnk.received ∧
    (reachMinTime s).lnk.quiet = s.lnk.quiet ∧ (reachMinTime s).lnk.collisionSeen = s.lnk.collisionSeen ∧
    (reachMinTime s).lnk.checkErrorSeen = s.lnk.checkErrorSeen ∧
    (reachMinTime s).lnk.malformedSeen = s.lnk.malformedSeen ∧ (reachMinTime s).lnk.dupFound = s.lnk.dupFound ∧
    (reachMinTime s).pins = s.pins ∧ (reachMinTime s).now = s.now ∧ (reachMinTime s).freeCount = s.freeCount ∧
    (reachMinTime s).pending = s.pending := by
  simp [reachMinTime]

@[simp] theorem judgeRegulation_keeps (c : HeadCh) (s : State) :
    (judgeRegulation c s).cfg = s.cfg ∧ (judgeRegulation c s).peer.table = s.peer.table ∧
    (judgeRegulation c s).peer.own = s.peer.own ∧ (judgeRegulation c s).peer.refresh = s.peer.refresh ∧
    (judgeRegulation c s).peer.quiet = s.peer.quiet ∧ (judgeRegulation c s).peer.isolated = s.peer.isolated ∧
    (judgeRegulation c s).shr = s.shr ∧ (judgeRegulation c s).sdu.diVolume = s.sdu.diVolume ∧
    (judgeRegulation c s).sdu.dose = s.sdu.dose ∧ (judgeRegulation c s).sdu.mismatch = s.sdu.mismatch ∧
    (judgeRegulation c s).sdu.rinseDone = s.sdu.rinseDone ∧ (judgeRegulation c s).sdu.u = s.sdu.u ∧
    (judgeRegulation c s).sdu.blend = s.sdu.blend ∧ (judgeRegulation c s).sdu.share = s.sdu.share ∧
    (judgeRegulation c s).seq.copy = s.seq.copy ∧ (judgeRegulation c s).seq.index = s.seq.index ∧
    (judgeRegulation c s).seq.disposition = s.seq.disposition ∧ (judgeRegulation c s).seq.elapsed = s.seq.elapsed ∧
    (judgeRegulation c s).seq.hold = s.seq.hold ∧ (judgeRegulation c s).seq.endpoint = s.seq.endpoint ∧
    (judgeRegulation c s).seq.overEnd = s.seq.overEnd ∧ (judgeRegulation c s).seq.flags = s.seq.flags ∧
    (judgeRegulation c s).rcp = s.rcp ∧ (judgeRegulation c s).hpc.stepTargets = s.hpc.stepTargets ∧
    (judgeRegulation c s).hpc.warn = s.hpc.warn ∧ (judgeRegulation c s).hpc.armed = s.hpc.armed ∧
    (judgeRegulation c s).pcc.radius = s.pcc.radius ∧ (judgeRegulation c s).pcc.homeFound = s.pcc.homeFound ∧
    (judgeRegulation c s).pcc.search = s.pcc.search ∧ (judgeRegulation c s).pcc.diskLife = s.pcc.diskLife ∧
    (judgeRegulation c s).pcc.diskRemainder = s.pcc.diskRemainder ∧
    (judgeRegulation c s).pcc.padLife = s.pcc.padLife ∧ (judgeRegulation c s).pcc.padRemainder = s.pcc.padRemainder ∧
    (judgeRegulation c s).pcc.diskWarned = s.pcc.diskWarned ∧ (judgeRegulation c s).pcc.padWarned = s.pcc.padWarned ∧
    (judgeRegulation c s).pcc.condLost = s.pcc.condLost ∧ (judgeRegulation c s).epm.window = s.epm.window ∧
    (judgeRegulation c s).epm.settings = s.epm.settings ∧ (judgeRegulation c s).ilk = s.ilk ∧
    (judgeRegulation c s).drv.tachLost = s.drv.tachLost ∧ (judgeRegulation c s).lnk.stopSlot = s.lnk.stopSlot ∧
    (judgeRegulation c s).lnk.answers = s.lnk.answers ∧ (judgeRegulation c s).lnk.demandSlot = s.lnk.demandSlot ∧
    (judgeRegulation c s).lnk.sending = s.lnk.sending ∧ (judgeRegulation c s).lnk.carrier = s.lnk.carrier ∧
    (judgeRegulation c s).lnk.received = s.lnk.received ∧ (judgeRegulation c s).lnk.quiet = s.lnk.quiet ∧
    (judgeRegulation c s).lnk.collisionSeen = s.lnk.collisionSeen ∧
    (judgeRegulation c s).lnk.checkErrorSeen = s.lnk.checkErrorSeen ∧
    (judgeRegulation c s).lnk.malformedSeen = s.lnk.malformedSeen ∧
    (judgeRegulation c s).lnk.dupFound = s.lnk.dupFound ∧ (judgeRegulation c s).pins = s.pins ∧
    (judgeRegulation c s).now = s.now ∧ (judgeRegulation c s).freeCount = s.freeCount ∧
    (judgeRegulation c s).pending = s.pending := by
  simp [judgeRegulation]

@[simp] theorem rearm_keeps (s : State) :
    (rearm s).cfg = s.cfg ∧ (rearm s).peer = s.peer ∧ (rearm s).shr = s.shr ∧ (rearm s).sdu = s.sdu ∧
    (rearm s).seq = s.seq ∧ (rearm s).rcp = s.rcp ∧ (rearm s).hpc.stepTargets = s.hpc.stepTargets ∧
    (rearm s).hpc.warn = s.hpc.warn ∧ (rearm s).pcc = s.pcc ∧ (rearm s).epm = s.epm ∧ (rearm s).ilk = s.ilk ∧
    (rearm s).drv = s.drv ∧ (rearm s).lnk = s.lnk ∧ (rearm s).pins = s.pins ∧ (rearm s).now = s.now ∧
    (rearm s).freeCount = s.freeCount ∧ (rearm s).pending = s.pending := by
  simp [rearm]

@[simp] theorem tripAir_keeps (s : State) :
    (tripAir s).cfg = s.cfg ∧ (tripAir s).peer.table = s.peer.table ∧ (tripAir s).peer.own = s.peer.own ∧
    (tripAir s).peer.refresh = s.peer.refresh ∧ (tripAir s).peer.quiet = s.peer.quiet ∧
    (tripAir s).peer.isolated = s.peer.isolated ∧ (tripAir s).shr = s.shr ∧
    (tripAir s).sdu.diVolume = s.sdu.diVolume ∧ (tripAir s).sdu.dose = s.sdu.dose ∧
    (tripAir s).sdu.mismatch = s.sdu.mismatch ∧ (tripAir s).sdu.rinseDone = s.sdu.rinseDone ∧
    (tripAir s).sdu.u = s.sdu.u ∧ (tripAir s).sdu.blend = s.sdu.blend ∧ (tripAir s).sdu.share = s.sdu.share ∧
    (tripAir s).seq.copy = s.seq.copy ∧ (tripAir s).seq.index = s.seq.index ∧
    (tripAir s).seq.disposition = s.seq.disposition ∧ (tripAir s).seq.elapsed = s.seq.elapsed ∧
    (tripAir s).seq.hold = s.seq.hold ∧ (tripAir s).seq.endpoint = s.seq.endpoint ∧
    (tripAir s).seq.overEnd = s.seq.overEnd ∧ (tripAir s).seq.flags = s.seq.flags ∧ (tripAir s).rcp = s.rcp ∧
    (tripAir s).hpc.stepTargets = s.hpc.stepTargets ∧ (tripAir s).hpc.warn = s.hpc.warn ∧
    (tripAir s).hpc.armed = s.hpc.armed ∧ (tripAir s).pcc.radius = s.pcc.radius ∧
    (tripAir s).pcc.homeFound = s.pcc.homeFound ∧ (tripAir s).pcc.search = s.pcc.search ∧
    (tripAir s).pcc.diskLife = s.pcc.diskLife ∧ (tripAir s).pcc.diskRemainder = s.pcc.diskRemainder ∧
    (tripAir s).pcc.padLife = s.pcc.padLife ∧ (tripAir s).pcc.padRemainder = s.pcc.padRemainder ∧
    (tripAir s).pcc.diskWarned = s.pcc.diskWarned ∧ (tripAir s).pcc.padWarned = s.pcc.padWarned ∧
    (tripAir s).pcc.condLost = s.pcc.condLost ∧ (tripAir s).epm.window = s.epm.window ∧
    (tripAir s).epm.settings = s.epm.settings ∧ (tripAir s).ilk = s.ilk ∧ (tripAir s).drv.tachLost = s.drv.tachLost ∧
    (tripAir s).lnk.stopSlot = s.lnk.stopSlot ∧ (tripAir s).lnk.answers = s.lnk.answers ∧
    (tripAir s).lnk.demandSlot = s.lnk.demandSlot ∧ (tripAir s).lnk.sending = s.lnk.sending ∧
    (tripAir s).lnk.carrier = s.lnk.carrier ∧ (tripAir s).lnk.received = s.lnk.received ∧
    (tripAir s).lnk.quiet = s.lnk.quiet ∧ (tripAir s).lnk.collisionSeen = s.lnk.collisionSeen ∧
    (tripAir s).lnk.checkErrorSeen = s.lnk.checkErrorSeen ∧ (tripAir s).lnk.malformedSeen = s.lnk.malformedSeen ∧
    (tripAir s).lnk.dupFound = s.lnk.dupFound ∧ (tripAir s).pins = s.pins ∧ (tripAir s).now = s.now ∧
    (tripAir s).freeCount = s.freeCount ∧ (tripAir s).pending = s.pending := by
  simp [tripAir]

@[simp] theorem park_keeps (s : State) :
    (park s).cfg = s.cfg ∧ (park s).peer = s.peer ∧ (park s).shr = s.shr ∧ (park s).sdu = s.sdu ∧
    (park s).seq = s.seq ∧ (park s).rcp = s.rcp ∧ (park s).hpc = s.hpc ∧ (park s).pcc.radius = s.pcc.radius ∧
    (park s).pcc.homeFound = s.pcc.homeFound ∧ (park s).pcc.search = s.pcc.search ∧
    (park s).pcc.diskLife = s.pcc.diskLife ∧ (park s).pcc.diskRemainder = s.pcc.diskRemainder ∧
    (park s).pcc.padLife = s.pcc.padLife ∧ (park s).pcc.padRemainder = s.pcc.padRemainder ∧
    (park s).pcc.diskWarned = s.pcc.diskWarned ∧ (park s).pcc.padWarned = s.pcc.padWarned ∧
    (park s).pcc.condLost = s.pcc.condLost ∧ (park s).pcc.resume = s.pcc.resume ∧
    (park s).pcc.withdrawn = s.pcc.withdrawn ∧ (park s).epm = s.epm ∧ (park s).ilk = s.ilk ∧ (park s).drv = s.drv ∧
    (park s).lnk = s.lnk ∧ (park s).pins = s.pins ∧ (park s).now = s.now ∧ (park s).freeCount = s.freeCount ∧
    (park s).pending = s.pending := by
  simp [park]

@[simp] theorem takeSample_keeps (counts : Nat) (s : State) :
    (takeSample counts s).cfg = s.cfg ∧ (takeSample counts s).peer = s.peer ∧ (takeSample counts s).shr = s.shr ∧
    (takeSample counts s).sdu = s.sdu ∧ (takeSample counts s).seq = s.seq ∧ (takeSample counts s).rcp = s.rcp ∧
    (takeSample counts s).hpc = s.hpc ∧ (takeSample counts s).pcc = s.pcc ∧
    (takeSample counts s).epm.settings = s.epm.settings ∧ (takeSample counts s).ilk = s.ilk ∧
    (takeSample counts s).drv = s.drv ∧ (takeSample counts s).lnk = s.lnk ∧ (takeSample counts s).pins = s.pins ∧
    (takeSample counts s).now = s.now ∧ (takeSample counts s).freeCount = s.freeCount ∧
    (takeSample counts s).pending = s.pending := by
  simp [takeSample]

@[simp] theorem expirePeriod_keeps (s : State) :
    (expirePeriod s).cfg = s.cfg ∧ (expirePeriod s).peer = s.peer ∧ (expirePeriod s).shr = s.shr ∧
    (expirePeriod s).sdu = s.sdu ∧ (expirePeriod s).seq.state = s.seq.state ∧
    (expirePeriod s).seq.copy = s.seq.copy ∧ (expirePeriod s).seq.index = s.seq.index ∧
    (expirePeriod s).seq.causes = s.seq.causes ∧ (expirePeriod s).seq.deferred = s.seq.deferred ∧
    (expirePeriod s).seq.resume = s.seq.resume ∧ (expirePeriod s).seq.disposition = s.seq.disposition ∧
    (expirePeriod s).seq.elapsed = s.seq.elapsed ∧ (expirePeriod s).seq.hold = s.seq.hold ∧
    (expirePeriod s).seq.flags = s.seq.flags ∧ (expirePeriod s).seq.record = s.seq.record ∧
    (expirePeriod s).seq.result = s.seq.result ∧ (expirePeriod s).seq.first = s.seq.first ∧
    (expirePeriod s).seq.later = s.seq.later ∧ (expirePeriod s).rcp = s.rcp ∧ (expirePeriod s).hpc = s.hpc ∧
    (expirePeriod s).pcc = s.pcc ∧ (expirePeriod s).epm.window = s.epm.window ∧
    (expirePeriod s).epm.settings = s.epm.settings ∧ (expirePeriod s).ilk = s.ilk ∧ (expirePeriod s).drv = s.drv ∧
    (expirePeriod s).lnk.stopSlot = s.lnk.stopSlot ∧ (expirePeriod s).lnk.answers = s.lnk.answers ∧
    (expirePeriod s).lnk.demandSlot = s.lnk.demandSlot ∧ (expirePeriod s).lnk.sending = s.lnk.sending ∧
    (expirePeriod s).lnk.carrier = s.lnk.carrier ∧ (expirePeriod s).lnk.received = s.lnk.received ∧
    (expirePeriod s).lnk.quiet = s.lnk.quiet ∧ (expirePeriod s).lnk.collisionSeen = s.lnk.collisionSeen ∧
    (expirePeriod s).lnk.checkErrorSeen = s.lnk.checkErrorSeen ∧
    (expirePeriod s).lnk.malformedSeen = s.lnk.malformedSeen ∧ (expirePeriod s).lnk.dupFound = s.lnk.dupFound ∧
    (expirePeriod s).pins = s.pins ∧ (expirePeriod s).now = s.now ∧ (expirePeriod s).freeCount = s.freeCount ∧
    (expirePeriod s).pending = s.pending := by
  unfold expirePeriod
  split <;> simp

@[simp] theorem reachSpeed_keeps (d : Drive) (s : State) :
    (reachSpeed d s).cfg = s.cfg ∧ (reachSpeed d s).peer = s.peer ∧ (reachSpeed d s).shr = s.shr ∧
    (reachSpeed d s).sdu = s.sdu ∧ (reachSpeed d s).seq = s.seq ∧ (reachSpeed d s).rcp = s.rcp ∧
    (reachSpeed d s).hpc = s.hpc ∧ (reachSpeed d s).pcc = s.pcc ∧ (reachSpeed d s).epm = s.epm ∧
    (reachSpeed d s).ilk = s.ilk ∧ (reachSpeed d s).drv.tachLost = s.drv.tachLost ∧ (reachSpeed d s).lnk = s.lnk ∧
    (reachSpeed d s).pins = s.pins ∧ (reachSpeed d s).now = s.now ∧ (reachSpeed d s).freeCount = s.freeCount ∧
    (reachSpeed d s).pending = s.pending := by
  simp [reachSpeed]

@[simp] theorem setTrip_keeps (d : Drive) (active : Bool) (s : State) :
    (setTrip d active s).cfg = s.cfg ∧ (setTrip d active s).peer = s.peer ∧ (setTrip d active s).shr = s.shr ∧
    (setTrip d active s).sdu = s.sdu ∧ (setTrip d active s).seq = s.seq ∧ (setTrip d active s).rcp = s.rcp ∧
    (setTrip d active s).hpc = s.hpc ∧ (setTrip d active s).pcc = s.pcc ∧ (setTrip d active s).epm = s.epm ∧
    (setTrip d active s).ilk = s.ilk ∧ (setTrip d active s).drv = s.drv ∧ (setTrip d active s).lnk = s.lnk ∧
    (setTrip d active s).now = s.now ∧ (setTrip d active s).freeCount = s.freeCount ∧
    (setTrip d active s).pending = s.pending := by
  simp [setTrip]

end Sys2Proof.Machine
end

