-- ==== Sys2Proof/Laws/Settle.lean ====
section
/-! SUPPORT. What `settle` can do: nothing to the sequencer and the blocks it directs while the sequencer is neither RUNNING nor
HOLDING; in HOLDING with a cause that SDU cannot withdraw, nothing but the withdrawal of SHARE and SUPPLY. -/

namespace Sys2Proof.Machine

open Sys2Proof

/-! ### Neither RUNNING nor HOLDING -/

/-- Outside RUNNING the flags are not marked. -/
theorem markFlags_of_ne_running {s : State} (h : s.seq.state ≠ .running) : markFlags s = s := by
  simp [markFlags, h]

/-- Outside RUNNING a change of record or grants leaves SEQ's state whole. -/
theorem carry_seq_of_ne_running {s : State} (h : s.seq.state ≠ .running) : (carry s).seq = s.seq := by
  have : (recomputeFlow (rebuildRecord s)).seq.state ≠ .running := by simpa using h
  simp [carry, markFlags_of_ne_running this]

/-- Outside RUNNING and HOLDING SEQ takes no report. -/
theorem takeReports_of_calm {s : State} (hr : s.seq.state ≠ .running) (hh : s.seq.state ≠ .holding) :
    takeReports s = s := by
  unfold takeReports
  split <;> first | rfl | contradiction

/-- The carrying through of a started part outside RUNNING and HOLDING: three times the record and the grants. -/
theorem settle_eq_of_calm {s : State} (hr : s.seq.state ≠ .running) (hh : s.seq.state ≠ .holding) :
    settle s = if s.started then clearPersist (setPumps (carry (carry (carry s)))) else s := by
  have e1 := carry_seq_of_ne_running hr
  have r1 : (carry s).seq.state ≠ .running := by rw [e1]; exact hr
  have h1 : (carry s).seq.state ≠ .holding := by rw [e1]; exact hh
  have e2 := carry_seq_of_ne_running r1
  have r2 : (carry (carry s)).seq.state ≠ .running := by rw [e2]; exact r1
  have h2 : (carry (carry s)).seq.state ≠ .holding := by rw [e2]; exact h1
  have e3 := carry_seq_of_ne_running r2
  have r3 : (setPumps (carry (carry (carry s)))).seq.state ≠ .running := by simpa [e3] using r2
  unfold settle
  rw [takeReports_of_calm r1 h1, takeReports_of_calm r2 h2]
  simp only [judgePersist, r3, false_and, if_false]

/-- Outside RUNNING and HOLDING `settle` leaves the sequencer, the head, the arm, the endpoint monitor, the drives and the notices as
they were. -/
theorem settle_calm {s : State} (hr : s.seq.state ≠ .running) (hh : s.seq.state ≠ .holding) :
    (settle s).seq = s.seq ∧ (settle s).hpc = s.hpc ∧ (settle s).pcc = s.pcc ∧ (settle s).epm = s.epm ∧
    (settle s).drv = s.drv ∧ (settle s).lnk.notices = s.lnk.notices ∧ (settle s).lnk.lost = s.lnk.lost ∧
    (settle s).peer.lowFeeds = s.peer.lowFeeds ∧ (settle s).sdu.di = s.sdu.di ∧
    (settle s).sdu.rinseDone = s.sdu.rinseDone := by
  rw [settle_eq_of_calm hr hh]
  have e1 := carry_seq_of_ne_running hr
  have r1 : (carry s).seq.state ≠ .running := by rw [e1]; exact hr
  have e2 := carry_seq_of_ne_running r1
  have r2 : (carry (carry s)).seq.state ≠ .running := by rw [e2]; exact r1
  have e3 := carry_seq_of_ne_running r2
  by_cases hs : s.started <;> simp [hs, e1, e2, e3]

/-! ### HOLDING with a cause that stays -/

/-- A cause set holds a cause that SDU's reports cannot withdraw as they stand. -/
def holdStays (s : State) : Prop := s.seq.causes.notForSlurry = true ∨ (s.seq.causes.supply = true ∧ anyLow s = true)

/-- A set with a cause that stays is not emptied by a withdrawal. -/
theorem causesAfterWithdrawal_nonempty {s : State} (h : holdStays s) : (causesAfterWithdrawal s).isEmpty = false := by
  rcases h with h | ⟨h, hl⟩
  · simp [CauseSet.notForSlurry] at h
    simp only [causesAfterWithdrawal, CauseSet.isEmpty]
    rcases h with ((((h | h) | h) | h) | h) | h <;> simp [h]
  · simp [causesAfterWithdrawal, CauseSet.isEmpty, h, hl]

/-- In HOLDING with a cause that stays, SDU's reports only withdraw causes. -/
theorem takeReports_of_stays {s : State} (hh : s.seq.state = .holding) (h : holdStays s) :
    takeReports s = s.setSeq { s.seq with causes := causesAfterWithdrawal s } := by
  have hn := causesAfterWithdrawal_nonempty h
  by_cases hc : causesAfterWithdrawal s = s.seq.causes
  · have : takeReports s = s := by simp [takeReports, hh, hc]
    rw [this, hc]
    rfl
  · simp [takeReports, hh, hc, hn]

/-- A change of record or grants keeps the low inlets. -/
theorem anyLow_carry (s : State) : anyLow (carry s) = anyLow s := by simp [anyLow, State.chan]

/-- One round of `settle` in HOLDING with a cause that stays: only SHARE and SUPPLY can leave the set. -/
theorem round_of_stays {s : State} (hh : s.seq.state = .holding) (h : holdStays s) :
    (takeReports (carry s)).seq =
      { s.seq with causes := { s.seq.causes with
        share := s.seq.causes.share && (carry s).sdu.share, supply := s.seq.causes.supply && anyLow s } } := by
  have e : (carry s).seq = s.seq := carry_seq_of_ne_running (by simp [hh])
  have hc : holdStays (carry s) := by simpa [holdStays, e, anyLow_carry] using h
  rw [takeReports_of_stays (by rw [e]; exact hh) hc]
  simp [causesAfterWithdrawal, e, anyLow_carry]

/-- The blocks a round leaves whole in HOLDING with a cause that stays. -/
theorem round_keeps_of_stays {s : State} (hh : s.seq.state = .holding) (h : holdStays s) :
    (takeReports (carry s)).hpc = s.hpc ∧ (takeReports (carry s)).pcc = s.pcc ∧
    (takeReports (carry s)).epm = s.epm ∧ (takeReports (carry s)).drv = s.drv ∧
    (takeReports (carry s)).sdu.ch = s.sdu.ch ∧ (takeReports (carry s)).sdu.di = s.sdu.di ∧
    (takeReports (carry s)).sdu.rinseDone = s.sdu.rinseDone ∧
    (takeReports (carry s)).lnk.notices = s.lnk.notices ∧ (takeReports (carry s)).lnk.lost = s.lnk.lost ∧
    (takeReports (carry s)).peer.lowFeeds = s.peer.lowFeeds := by
  have e : (carry s).seq = s.seq := carry_seq_of_ne_running (by simp [hh])
  have hc : holdStays (carry s) := by simpa [holdStays, e, anyLow_carry] using h
  rw [takeReports_of_stays (by rw [e]; exact hh) hc]
  simp

/-- A cause that stays is still there after a round. -/
theorem stays_round {s : State} (hh : s.seq.state = .holding) (h : holdStays s) :
    (takeReports (carry s)).seq.state = .holding ∧ holdStays (takeReports (carry s)) := by
  have e := round_of_stays hh h
  have k := round_keeps_of_stays hh h
  refine ⟨by rw [e]; exact hh, ?_⟩
  have l : anyLow (takeReports (carry s)) = anyLow s := by simp only [anyLow, State.chan, k]
  unfold holdStays at *
  rw [l, e]
  rcases h with h | ⟨h, hl⟩
  · exact .inl h
  · exact .inr ⟨by simp [h, hl], hl⟩

/-- What `settle` does in HOLDING with a cause that SDU cannot withdraw: SHARE and SUPPLY may leave the set; the state, the other
causes, the head, the arm, the endpoint monitor, the drives and the notices stand. -/
theorem settle_stays {s : State} (hs : s.started = true) (hh : s.seq.state = .holding) (h : holdStays s) :
    (settle s).seq =
      { s.seq with causes := { s.seq.causes with
        share := (settle s).seq.causes.share, supply := s.seq.causes.supply && anyLow s } } ∧
    (settle s).hpc = s.hpc ∧ (settle s).pcc = s.pcc ∧ (settle s).epm = s.epm ∧ (settle s).drv = s.drv ∧
    (settle s).lnk.notices = s.lnk.notices ∧ (settle s).lnk.lost = s.lnk.lost ∧
    (settle s).peer.lowFeeds = s.peer.lowFeeds ∧ (settle s).sdu.di = s.sdu.di ∧
    (settle s).sdu.rinseDone = s.sdu.rinseDone := by
  obtain ⟨h1, s1⟩ := stays_round hh h
  have e1 := round_of_stays hh h
  have k1 := round_keeps_of_stays hh h
  obtain ⟨h2, s2⟩ := stays_round h1 s1
  have e2 := round_of_stays h1 s1
  have k2 := round_keeps_of_stays h1 s1
  have e3 := carry_seq_of_ne_running (s := takeReports (carry (takeReports (carry s)))) (by rw [h2]; simp)
  have l1 : anyLow (takeReports (carry s)) = anyLow s := by simp only [anyLow, State.chan, k1]
  have hc : (carry (takeReports (carry (takeReports (carry s))))).seq.state ≠ .running := by
    rw [e3, h2]; simp
  have final : settle s = clearPersist (setPumps (carry (takeReports (carry (takeReports (carry s)))))) := by
    have hr : (takeReports (carry (takeReports (carry s)))).seq.state ≠ .running := by rw [h2]; simp
    simp [settle, hs, judgePersist, e3, hr]
  rw [final]
  simp [e3, e2, e1, k1, k2, l1, Bool.and_assoc]

/-! ### The own record and the flow -/

/-- The own record follows from the sequencer, the tool mode, the image and the low-feed set alone (R7 to R11). -/
theorem buildRecord_congr {s t : State} (h1 : t.seq = s.seq) (h2 : t.ilk = s.ilk) (h3 : t.cfg = s.cfg)
    (h4 : t.peer.lowFeeds = s.peer.lowFeeds) : buildRecord t = buildRecord s := by
  have m : mainItem t = mainItem s := by
    have l : t.lowered = s.lowered := by simp only [State.lowered, h1]
    funext st f; simp only [mainItem, l, State.img, h3, h4]
  have a : additiveItem t = additiveItem s := by
    funext st i g; simp only [additiveItem, State.img, h3, h4]
  have n : t.stepNow = s.stepNow := by simp only [State.stepNow, h1]
  have r : recordOf t = recordOf s := by
    funext x; simp only [recordOf, m, a, n]
  simp only [buildRecord, r, h1, h2]

/-- After a rebuild the own record is the one the state gives. -/
theorem rebuildRecord_own (s : State) : (rebuildRecord s).peer.own = buildRecord s := by
  unfold rebuildRecord
  dsimp only
  split
  · rename_i h; exact h.symm
  · simp

theorem carry_own (s : State) : (carry s).peer.own = buildRecord s := by simp [carry, rebuildRecord_own]

/-! ### What a run keeps of a feed -/

/-- The derate step, the time of last increment, the mark-free count and the seen mark of every feed are the same. -/
def SameMarks (s t : State) : Prop :=
  ∀ f : Feed, (t.shr.get f).k = (s.shr.get f).k ∧ (t.shr.get f).markFree = (s.shr.get f).markFree ∧
    (t.shr.get f).markSeen = (s.shr.get f).markSeen ∧ (t.shr.get f).lastIncrement = (s.shr.get f).lastIncrement

theorem SameMarks.refl (s : State) : SameMarks s s := fun _ => ⟨rfl, rfl, rfl, rfl⟩

theorem SameMarks.of_eq {s t : State} (h : t.shr = s.shr) : SameMarks s t := by
  intro f; rw [h]; exact ⟨rfl, rfl, rfl, rfl⟩

theorem SameMarks.trans {s t u : State} (h : SameMarks s t) (h' : SameMarks t u) : SameMarks s u := fun f =>
  ⟨(h' f).1.trans (h f).1, (h' f).2.1.trans (h f).2.1, (h' f).2.2.1.trans (h f).2.2.1, (h' f).2.2.2.trans (h f).2.2.2⟩

/-- A run changes the computed grant, the effective grant and the hold-off alone (R33, R34). -/
theorem shrRun_sameMarks (f : Feed) (s : State) : SameMarks s (shrRun f s) := by
  intro g
  unfold shrRun
  split
  · by_cases h : f = g
    · subst h
      simp only [State.setShr_shr, PerFeed.get_set_self, FeedShare.take]
      split <;> exact ⟨rfl, rfl, rfl, rfl⟩
    · simp [PerFeed.get_set_of_ne _ _ h]
  · exact ⟨rfl, rfl, rfl, rfl⟩

theorem shrRuns_sameMarks (v : PerFeed Bool) (s : State) : SameMarks s (shrRuns v s) := by
  have one : ∀ (b : Bool) (f : Feed) (s : State), SameMarks s (if b then shrRun f s else s) := by
    intro b f s
    cases b
    · exact SameMarks.refl s
    · exact shrRun_sameMarks f s
  unfold shrRuns
  exact (((one _ _ _).trans (one _ _ _)).trans (one _ _ _)).trans (one _ _ _)

theorem rebuildRecord_sameMarks (s : State) : SameMarks s (rebuildRecord s) := by
  unfold rebuildRecord
  dsimp only
  split
  · exact SameMarks.refl s
  · exact (SameMarks.of_eq (by simp)).trans (shrRuns_sameMarks _ _)

theorem carry_sameMarks (s : State) : SameMarks s (carry s) :=
  (rebuildRecord_sameMarks s).trans (SameMarks.of_eq (by simp [carry]))

/-- Carrying a change through sees no mark and moves no derate step. -/
theorem settle_sameMarks (s : State) : SameMarks s (settle s) := by
  unfold settle
  split
  · have c1 := (carry_sameMarks s).trans (SameMarks.of_eq (t := takeReports (carry s)) (by simp))
    have c2 := (c1.trans (carry_sameMarks _)).trans
      (SameMarks.of_eq (t := takeReports (carry (takeReports (carry s)))) (by simp))
    exact (c2.trans (carry_sameMarks _)).trans (SameMarks.of_eq (by simp))
  · exact SameMarks.refl s

/-- A part that is not started carries nothing through. -/
theorem settle_of_not_started {s : State} (h : s.started = false) : settle s = s := by simp [settle, h]

end Sys2Proof.Machine
end

