-- ==== Sys2Proof/Laws/Entries.lean ====
section
/-! SUPPORT. What the sequencer's entries to its states make of SEQ and the blocks it directs, and the ramp value as R120 writes it. -/

namespace Sys2Proof.Machine

open Sys2Proof

/-- Entry to HOLDING: the state, the cause set and the resume target; the rest of SEQ stands (R77). -/
theorem enterHolding_seq (t : ResumeTarget) (c : CauseSet) (s : State) :
    (enterHolding t c s).seq = { s.seq with state := .holding, causes := c, resume := some t } := by
  simp [enterHolding, noticeHeld]

/-- Entry to ABORTING: both cause sets empty, the run result set, the abort timer started; of the rest only the run record
can change (R84, R85). -/
theorem enterAborting_seq (r : RunResult) (s : State) :
    (enterAborting r s).seq = { s.seq with
      state := .aborting, causes := .empty, deferred := .empty, resume := none, result := r, abortTimer := some 0
      record := (enterAborting r s).seq.record } := by
  unfold enterAborting
  dsimp only
  split <;> simp [appendEntry, noticeEnded]

/-- An entry appended queues its STEP_ENDED and changes nothing else of LNK (R82). -/
theorem appendEntry_lnk (e : RunEntry) (s : State) : (appendEntry e s).lnk = (placeNotice 4 e.bytes s).lnk := by
  simp only [appendEntry, noticeEnded, placeNotice]
  show (if s.silent then _ else if 8 ≤ s.lnk.notices.length then _ else _ : State).lnk =
    (if s.silent then _ else if 8 ≤ s.lnk.notices.length then _ else _ : State).lnk
  split
  · rfl
  · split <;> rfl

/-- Entry to ABORTING cuts a step that has no entry yet (R85). -/
theorem enterAborting_cuts (r : RunResult) (s : State) : CutsStep s (enterAborting r s) := by
  have hu : undecided s = true ↔ (s.seq.state = .waiting ∨ s.seq.state = .running ∨ s.seq.state = .holding) ∧
      ∀ e ∈ s.seq.record, e.index ≠ s.seq.index := by simp [undecided, or_assoc]
  unfold CutsStep enterAborting cutOf
  dsimp only
  by_cases h : undecided s = true
  · rw [if_pos h, if_pos (hu.1 h)]
    refine ⟨?_, ?_, ?_⟩
    · simp [appendEntry, noticeEnded]; rfl
    · simp [appendEntry_lnk]; rfl
    · simp [appendEntry_lnk]; rfl
  · rw [if_neg h, if_neg (fun x => h (hu.2 x))]
    simp

/-- Entry to a state of rest, carried through: the head vented, the drives toward 0, the symbolizer stopped (Table 4-1). -/
theorem settle_enterRest (x : SeqState) (hx : x ≠ .running) (hx' : x ≠ .holding) (s : State) :
    (settle (enterRest x s)).seq = { s.seq with state := x } ∧
    (settle (enterRest x s)).hpc = (ventHead s).hpc ∧ (settle (enterRest x s)).pcc = s.pcc ∧
    (settle (enterRest x s)).epm = { s.epm with state := .stopped, periodTimer := 0 } ∧
    (settle (enterRest x s)).drv = (stopDrives s).drv := by
  have e : (enterRest x s).seq = { s.seq with state := x } := by simp [enterRest]
  obtain ⟨a, b, c, d, f, _⟩ := settle_calm (s := enterRest x s) (by rw [e]; exact hx) (by rw [e]; exact hx')
  refine ⟨by rw [a, e], ?_, ?_, ?_, ?_⟩
  · rw [b]; simp [enterRest, ventHead]
  · rw [c]; simp
  · rw [d]; simp [enterRest, stopSymbolizer]
  · rw [f]; simp [enterRest, stopDrives]

/-- The ramp value over the integers: the start plus the truncated share of the way (R120). -/
theorem rampValue_int (a b k n : Nat) (hk : k ≤ n) :
    ((rampValue a b k n : Nat) : Int) = (a : Int) + Int.tdiv (((b : Int) - a) * k) n := by
  unfold rampValue
  split
  · have : ((b : Int) - a) * k = (((b - a) * k : Nat) : Int) := by
      push_cast
      rw [Nat.cast_sub (by assumption)]
    rw [this, Int.tdiv_eq_ediv_of_nonneg (by positivity)]
    push_cast
    rfl
  · have : ((b : Int) - a) * k = -(((a - b) * k : Nat) : Int) := by
      push_cast
      rw [Nat.cast_sub (by omega)]
      ring
    rw [this, Int.neg_tdiv, Int.tdiv_eq_ediv_of_nonneg (by positivity)]
    have : (a - b) * k / n ≤ a - b :=
      Nat.div_le_of_le_mul (by rw [Nat.mul_comm n]; exact Nat.mul_le_mul_left _ hk)
    rw [Nat.cast_sub (by omega)]
    push_cast
    omega

end Sys2Proof.Machine
end

