-- ==== Sys2Proof/Laws/Head.lean ====
section
/-! SUPPORT. The head within its clamp and envelope (R119): what each operation that moves it, and each entry to a sequencer state, keeps of
that, operation by operation, up to the events of the head. -/

namespace Sys2Proof.Machine

open Sys2Proof

/-- The clamp and the envelope hold of the applied values, the step targets and a ramp in progress: the invariant's own part (R119). -/
def HeadFits (s : State) : Prop :=
  ZonesWithin s.img.headMax s.img.zoneDiff s.applied ∧ ZonesWithin s.img.headMax s.img.zoneDiff s.hpc.stepTargets ∧
  ∀ r, s.hpc.ramp = some r → RampWithin s r

/-- No channel is in CHANNEL_FAULT. -/
def AllSound (s : State) : Prop := ∀ c : HeadCh, (s.head c).state ≠ .channelFault

/-- A head within its bounds with no channel in CHANNEL_FAULT, as it stands in every state in which it takes targets (R114, R119). -/
def HeadGood (s : State) : Prop := HeadFits s ∧ AllSound s

/-- The bounds depend on the head and the image alone. -/
theorem HeadFits.of_eq {s t : State} (h : HeadFits s) (hh : t.hpc = s.hpc) (hc : t.cfg = s.cfg) : HeadFits t := by
  have e : t.img = s.img := by simp [State.img, hc]
  have e2 : ∀ c, t.head c = s.head c := by intro c; simp [State.head, hh]
  refine ⟨by rw [e]; simpa [State.applied, hh] using h.1, by rw [e, hh]; exact h.2.1, ?_⟩
  intro r hr
  obtain ⟨a, b, c, d⟩ := h.2.2 r (by rw [← hh]; exact hr)
  exact ⟨a, by rw [e]; exact b, by rw [e]; simpa [State.targets, hh] using c, by intro x; rw [e2]; exact d x⟩

/-- The channels' states depend on the head alone. -/
theorem AllSound.of_eq {s t : State} (h : AllSound s) (hh : t.hpc = s.hpc) : AllSound t := by
  intro c; simpa [State.head, hh] using h c

/-- The same of both together. -/
theorem HeadGood.of_eq {s t : State} (h : HeadGood s) (hh : t.hpc = s.hpc) (hc : t.cfg = s.cfg) : HeadGood t :=
  ⟨h.1.of_eq hh hc, h.2.of_eq hh⟩

/-- A vented head keeps to every bound. -/
theorem zonesWithin_zero (m : PerHead Nat) (d : Nat) : ZonesWithin m d (.all 0) := by simp [ZonesWithin, PerHead.all]

/-- A vent takes every applied value to 0 (R122). -/
theorem ventHead_applied (s : State) : (ventHead s).applied = .all 0 := by
  simp [ventHead, State.applied, HeadChan.vent, PerHead.map, PerHead.all, State.setHpc]

/-- `ventHead` keeps the bounds. -/
theorem HeadFits.after_ventHead {s : State} (h : HeadFits s) : HeadFits (ventHead s) := by
  refine ⟨by rw [ventHead_applied]; exact zonesWithin_zero _ _, ?_, ?_⟩
  · simpa [State.img] using h.2.1
  · intro r hr; simp [ventHead] at hr

/-- `ventHead` keeps every channel sound. -/
theorem AllSound.after_ventHead {s : State} (h : AllSound s) : AllSound (ventHead s) := by
  intro c
  have := h c
  cases c <;> simp_all [State.head, ventHead, HeadChan.vent, HeadChan.sound, PerHead.map, PerHead.get]

/-- `ventHead` keeps a good head. -/
theorem HeadGood.after_ventHead {s : State} (h : HeadGood s) : HeadGood (ventHead s) := ⟨h.1.after_ventHead, h.2.after_ventHead⟩

/-- The forward pass, zone by zone (R117). -/
theorem forwardPass_eqs (d : Nat) (v : PerHead Nat) :
    (forwardPass d v).z1 = v.z1 ∧ (forwardPass d v).z2 = min v.z2 ((forwardPass d v).z1 + d) ∧
    (forwardPass d v).z3 = min v.z3 ((forwardPass d v).z2 + d) ∧ (forwardPass d v).z4 = min v.z4 ((forwardPass d v).z3 + d) ∧
    (forwardPass d v).z5 = min v.z5 ((forwardPass d v).z4 + d) ∧ (forwardPass d v).rr = v.rr := ⟨rfl, rfl, rfl, rfl, rfl, rfl⟩

/-- The backward pass, zone by zone (R117). -/
theorem backwardPass_eqs (d : Nat) (v : PerHead Nat) :
    (backwardPass d v).z5 = v.z5 ∧ (backwardPass d v).z4 = min v.z4 ((backwardPass d v).z5 + d) ∧
    (backwardPass d v).z3 = min v.z3 ((backwardPass d v).z4 + d) ∧ (backwardPass d v).z2 = min v.z2 ((backwardPass d v).z3 + d) ∧
    (backwardPass d v).z1 = min v.z1 ((backwardPass d v).z2 + d) ∧ (backwardPass d v).rr = v.rr := ⟨rfl, rfl, rfl, rfl, rfl, rfl⟩

/-- Clamp and envelope give targets within the maxima and D (R116 to R118). -/
theorem fitHead_within (m v : PerHead Nat) (d : Nat) : ZonesWithin m d (fitHead m d v) := by
  have hc : ∀ c, (clampHead m v).get c ≤ m.get c := fun c => by simp [clampHead]
  have h1 := hc .z1; have h2 := hc .z2; have h3 := hc .z3; have h4 := hc .z4; have h5 := hc .z5; have h6 := hc .rr
  simp only [PerHead.get] at h1 h2 h3 h4 h5 h6
  obtain ⟨a1, a2, a3, a4, a5, a6⟩ := forwardPass_eqs d (clampHead m v)
  obtain ⟨b1, b2, b3, b4, b5, b6⟩ := backwardPass_eqs d (forwardPass d (clampHead m v))
  unfold ZonesWithin fitHead
  generalize backwardPass d (forwardPass d (clampHead m v)) = w at *
  generalize forwardPass d (clampHead m v) = x at *
  generalize clampHead m v = y at *
  refine ⟨⟨?_, ?_, ?_, ?_, ?_, ?_⟩, ⟨?_, ?_⟩, ⟨?_, ?_⟩, ⟨?_, ?_⟩, ?_, ?_⟩ <;> omega

/-- A ramp begins at its start value (R121). -/
theorem rampValue_zero (a b n : Nat) : rampValue a b 0 n = a := by simp [rampValue]

/-- `takeTargets` keeps a good head. -/
theorem HeadGood.after_takeTargets {s : State} (h : HeadGood s) {v : PerHead Nat} (hv : ZonesWithin s.img.headMax s.img.zoneDiff v)
    (n : Nat) (a : Bool) : HeadGood (takeTargets v n a s) := by
  unfold takeTargets
  dsimp only
  have hs : ∀ c : HeadCh, (s.head c).sound = true := fun c => by simpa [HeadChan.sound] using h.2 c
  split
  · refine ⟨⟨h.1.1, h.1.2.1, fun r hr => ?_⟩, h.2⟩
    exact h.1.2.2 r hr
  · split
    · refine ⟨⟨?_, h.1.2.1, ?_⟩, ?_⟩
      · have : (PerHead.of (fun c => (s.head c).takeNow s.img.regTolerance (v.get c))).map HeadChan.applied = v := by
          simp [PerHead.of, PerHead.map, HeadChan.takeNow, hs, PerHead.get]
        show ZonesWithin _ _ ((PerHead.of (fun c => (s.head c).takeNow s.img.regTolerance (v.get c))).map HeadChan.applied)
        rw [this]; exact hv
      · intro r hr; simp at hr
      · intro c
        show ((PerHead.of (fun c => (s.head c).takeNow s.img.regTolerance (v.get c))).get c).state ≠ _
        rw [PerHead.get_of]; simp [HeadChan.takeNow, hs c]
    · have eh : ∀ c : HeadCh, (s.head c).startRamp (v.get c) =
          { s.head c with state := .ramping, target := v.get c, regTimer := 0, highReported := false } := by
        intro c; simp [HeadChan.startRamp, hs]
      refine ⟨⟨?_, h.1.2.1, ?_⟩, ?_⟩
      · have : (PerHead.of (fun c => (s.head c).startRamp (v.get c))).map HeadChan.applied = s.applied := by
          simp [PerHead.of, PerHead.map, eh, State.applied]; simp [State.head, PerHead.get]
        show ZonesWithin _ _ ((PerHead.of (fun c => (s.head c).startRamp (v.get c))).map HeadChan.applied)
        rw [this]; exact h.1.1
      · intro r hr
        simp at hr
        subst hr
        refine ⟨by simp, h.1.1, ?_, ?_⟩
        · have : (PerHead.of (fun c => (s.head c).startRamp (v.get c))).map HeadChan.target = v := by
            simp [PerHead.of, PerHead.map, HeadChan.startRamp, hs, PerHead.get]
          show ZonesWithin _ _ ((PerHead.of (fun c => (s.head c).startRamp (v.get c))).map HeadChan.target)
          rw [this]; exact hv
        · intro c
          have e : ((PerHead.of (fun c => (s.head c).startRamp (v.get c))).get c) = _ := (PerHead.get_of _ c).trans (eh c)
          show ((PerHead.of (fun c => (s.head c).startRamp (v.get c))).get c).state = _ ∧
            ((PerHead.of (fun c => (s.head c).startRamp (v.get c))).get c).applied =
              rampValue _ ((PerHead.of (fun c => (s.head c).startRamp (v.get c))).get c).target _ _
          rw [e]; simp [rampValue_zero, State.applied, State.head]
      · intro c
        show ((PerHead.of (fun c => (s.head c).startRamp (v.get c))).get c).state ≠ _
        rw [PerHead.get_of, eh]; simp

/-- `takeHoldLevels` keeps a good head. -/
theorem HeadGood.after_takeHoldLevels {s : State} (h : HeadGood s) : HeadGood (takeHoldLevels s) :=
  h.after_takeTargets (fitHead_within _ _ _) _ _

/-- `takeHoldOrVent` keeps a good head. -/
theorem HeadGood.after_takeHoldOrVent {s : State} (h : HeadGood s) : HeadGood (takeHoldOrVent s) := by
  unfold takeHoldOrVent
  split
  · exact h.after_ventHead
  · exact h.after_takeHoldLevels

/-- `takeStepTargets` keeps a good head. -/
theorem HeadGood.after_takeStepTargets {s : State} (h : HeadGood s) : HeadGood (takeStepTargets s) := by
  unfold takeStepTargets
  refine HeadGood.of_eq
    (s := (if s.stepKind = some .condition then ventHead s else takeTargets s.hpc.stepTargets s.rampTime true s)) ?_
    (by simp) (by simp)
  split
  · exact h.after_ventHead
  · exact h.after_takeTargets h.1.2.1 _ _

/-- `requestStep` keeps a good head. -/
theorem HeadGood.after_requestStep {s : State} (h : HeadGood s) (st : StepRec) : HeadGood (requestStep st s) := by
  have e : ∀ c, (requestStep st s).head c = { s.head c with requested := st.pressure.get c } := by
    intro c; simp [requestStep, State.head]
  have ea : (requestStep st s).applied = s.applied := by
    simp [requestStep, State.applied, PerHead.of, PerHead.map, State.head, PerHead.get]
  have et : (requestStep st s).targets = s.targets := by
    simp [requestStep, State.targets, PerHead.of, PerHead.map, State.head, PerHead.get]
  refine ⟨⟨by rw [ea]; exact h.1.1, fitHead_within _ _ _, fun r hr => ?_⟩, fun c => by rw [e]; exact h.2 c⟩
  obtain ⟨a, b, c, d⟩ := h.1.2.2 r hr
  exact ⟨a, b, by rw [et]; exact c, fun x => by rw [e]; exact d x⟩

/-- `enterHolding` keeps a good head. -/
theorem HeadGood.after_enterHolding {s : State} (h : HeadGood s) (t : ResumeTarget) (c : CauseSet) : HeadGood (enterHolding t c s) := by
  unfold enterHolding
  refine HeadGood.of_eq (s := takeHoldOrVent _) (HeadGood.after_takeHoldOrVent (h.of_eq ?_ ?_)) (by simp; rfl) (by simp) <;> simp

/-- Entry to a state of rest vents the head (Table 6-3). -/
theorem enterRest_hpc (x : SeqState) (s : State) : (enterRest x s).hpc = (ventHead s).hpc := by simp [enterRest, ventHead]

/-- Entry to ABORTING vents the head (Table 6-3). -/
theorem enterAborting_hpc (r : RunResult) (s : State) : (enterAborting r s).hpc = (ventHead s).hpc := by
  simp [enterAborting, ventHead]

/-- A fault leaves the head as it is or vents it (R87). -/
theorem takeFault_hpc (k : FaultKind) (s : State) : (takeFault k s).hpc = s.hpc ∨ (takeFault k s).hpc = (ventHead s).hpc := by
  unfold takeFault
  split
  · cases hq : s.seq.state <;> simp [enterRest_hpc, enterAborting_hpc, ventHead]
  · exact .inl rfl

/-- `enterRest` keeps a good head. -/
theorem HeadGood.after_enterRest {s : State} (h : HeadGood s) (x : SeqState) : HeadGood (enterRest x s) :=
  h.after_ventHead.of_eq (enterRest_hpc x s) (by simp)

/-- `enterRest` keeps the bounds. -/
theorem HeadFits.after_enterRest {s : State} (h : HeadFits s) (x : SeqState) : HeadFits (enterRest x s) :=
  h.after_ventHead.of_eq (enterRest_hpc x s) (by simp)

/-- `enterAborting` keeps a good head. -/
theorem HeadGood.after_enterAborting {s : State} (h : HeadGood s) (r : RunResult) : HeadGood (enterAborting r s) :=
  h.after_ventHead.of_eq (enterAborting_hpc r s) (by simp)

/-- `enterAborting` keeps the bounds. -/
theorem HeadFits.after_enterAborting {s : State} (h : HeadFits s) (r : RunResult) : HeadFits (enterAborting r s) :=
  h.after_ventHead.of_eq (enterAborting_hpc r s) (by simp)

/-- `takeFault` keeps a good head. -/
theorem HeadGood.after_takeFault {s : State} (h : HeadGood s) (k : FaultKind) : HeadGood (takeFault k s) := by
  rcases takeFault_hpc k s with e | e
  · exact h.of_eq e (by simp)
  · exact h.after_ventHead.of_eq e (by simp)

/-- `takeFault` keeps the bounds. -/
theorem HeadFits.after_takeFault {s : State} (h : HeadFits s) (k : FaultKind) : HeadFits (takeFault k s) := by
  rcases takeFault_hpc k s with e | e
  · exact h.of_eq e (by simp)
  · exact h.after_ventHead.of_eq e (by simp)

/-- `holdFor` keeps a good head. -/
theorem HeadGood.after_holdFor {s : State} (h : HeadGood s) (c : Cause) : HeadGood (holdFor c s) := by
  unfold holdFor
  split <;> first | exact h | exact h.after_enterHolding _ _

/-- `abortRun` keeps a good head. -/
theorem HeadGood.after_abortRun {s : State} (h : HeadGood s) (r : RunResult) : HeadGood (abortRun r s) := by
  unfold abortRun
  split
  · exact h.after_enterAborting r
  · exact h

/-- `armFault` keeps a good head. -/
theorem HeadGood.after_armFault {s : State} (h : HeadGood s) (c : ArmCause) : HeadGood (armFault c s) := by
  have h1 : HeadGood (loseArm c s) := h.of_eq (by simp) (by simp)
  unfold armFault
  dsimp only
  split
  · exact h1.of_eq (by simp) (by simp)
  · split <;> exact h1.of_eq (by simp) (by simp)
  · split
    · exact h1.after_enterHolding _ _
    · exact h1
  all_goals exact h1

/-- `enterEnding` keeps a good head. -/
theorem HeadGood.after_enterEnding {s : State} (h : HeadGood s) : HeadGood (enterEnding s) := by
  unfold enterEnding
  dsimp only
  have h1 : ∀ x : State, x.hpc = s.hpc → x.cfg = s.cfg → HeadGood (clearPersist (stopSymbolizer (liftForEnd (takeHoldLevels x)))) := by
    intro x a b
    exact HeadGood.of_eq (s := takeHoldLevels x) (HeadGood.after_takeHoldLevels (h.of_eq a b)) (by simp) (by simp)
  split
  · exact HeadGood.after_takeFault (h1 _ (by simp) (by simp)) _
  · exact h1 _ (by simp) (by simp)

/-- `endStep` keeps a good head. -/
theorem HeadGood.after_endStep {s : State} (h : HeadGood s) (r : StepResult) : HeadGood (endStep r s) :=
  HeadGood.after_enterEnding (h.of_eq (by simp) (by simp))

/-- `checkDose` keeps a good head. -/
theorem HeadGood.after_checkDose {s : State} (h : HeadGood s) : HeadGood (checkDose s) := by
  unfold checkDose
  split
  · exact h.after_endStep _
  · exact h

/-- `missEndpoint` keeps a good head. -/
theorem HeadGood.after_missEndpoint {s : State} (h : HeadGood s) : HeadGood (missEndpoint s) := by
  unfold missEndpoint
  dsimp only
  have h1 : HeadGood (appendEntry (s.entryNow .endpointMissed) s) := h.of_eq (by simp) (by simp)
  split
  · exact h1.after_enterEnding
  · exact HeadGood.after_enterHolding (h1.of_eq (by simp) (by simp)) _ _
  · exact h1.after_enterAborting _

/-- `reachLimit` keeps a good head. -/
theorem HeadGood.after_reachLimit {s : State} (h : HeadGood s) : HeadGood (reachLimit s) := by
  unfold reachLimit
  split
  · exact h.after_endStep _
  · exact h.after_endStep _
  · split
    · exact h.after_endStep _
    · exact h.after_missEndpoint
  · exact h

/-- `startSwitches` keeps a good head. -/
theorem HeadGood.after_startSwitches {s : State} (h : HeadGood s) (st : StepRec) : HeadGood (startSwitches st s) := by
  unfold startSwitches
  dsimp only
  split
  · exact h.after_takeFault _
  · split
    · exact HeadGood.after_takeFault (h.of_eq (by simp) (by simp)) _
    · exact h.of_eq (by simp) (by simp)

/-- Both branches of a choice. -/
theorem HeadGood.ite {p : Prop} [Decidable p] {x y : State} (hx : HeadGood x) (hy : HeadGood y) : HeadGood (if p then x else y) := by
  split
  · exact hx
  · exact hy

/-- `reportTrips` keeps a good head. -/
theorem HeadGood.after_reportTrips {s : State} (h : HeadGood s) : HeadGood (reportTrips s) := by
  have : HeadGood (if s.pins.trip.platen = true then takeFault .driveTrip s else s) := .ite (h.after_takeFault _) h
  exact .ite (this.after_takeFault _) this

/-- `enterWaiting` keeps a good head. -/
theorem HeadGood.after_enterWaiting {s : State} (h : HeadGood s) (k : Nat) (b : Bool) : HeadGood (enterWaiting k b s) := by
  have h1 : HeadGood (takeStepSpeeds (takeHoldOrVent (rebuildRecord (s.setSeq (s.seq.newStep k))))) := by
    have : HeadGood (takeHoldOrVent (rebuildRecord (s.setSeq (s.seq.newStep k)))) :=
      HeadGood.after_takeHoldOrVent (h.of_eq (by simp) (by simp))
    exact this.of_eq (by simp) (by simp)
  have h2 : ∀ x, HeadGood x → HeadGood (match x.stepNow with | none => x | some st => startSwitches st x) := by
    intro x h1
    split
    · exact h1
    · exact h1.after_startSwitches _
  have h3 : ∀ y, HeadGood y → HeadGood (if b = true then reportTrips y else y) := fun y h2 => .ite h2.after_reportTrips h2
  have h4 : ∀ z (p : Prop) [Decidable p] c, HeadGood z → HeadGood (if p then enterHolding .waiting c z else z) :=
    fun z p _ c h3 => .ite (h3.after_enterHolding _ _) h3
  exact h4 _ _ _ (h3 _ (h2 _ h1))

/-- `startSweep` keeps a good head. -/
theorem HeadGood.after_startSweep {s : State} (h : HeadGood s) : HeadGood (startSweep s) := by
  unfold startSweep
  exact .ite (.ite (h.of_eq (by simp) (by simp)) (h.after_armFault _)) h

/-- `beginStep` keeps a good head. -/
theorem HeadGood.after_beginStep {s : State} (h : HeadGood s) : HeadGood (beginStep s) := by
  have h1 : ∀ x : State, x.hpc = s.hpc → x.cfg = s.cfg → ∀ st,
      HeadGood (startSweep (noticeBegun (takeStepTargets (requestStep st x)))) := by
    intro x a b st
    have : HeadGood (takeStepTargets (requestStep st x)) := ((h.of_eq a b).after_requestStep st).after_takeStepTargets
    exact (HeadGood.of_eq (t := noticeBegun _) this (by simp) (by simp)).after_startSweep
  unfold beginStep
  split
  · exact h1 _ (by simp) (by simp) _
  · exact h

/-- `returnSweep` keeps a good head. -/
theorem HeadGood.after_returnSweep {s : State} (h : HeadGood s) : HeadGood (returnSweep s) := by
  unfold returnSweep
  split
  · exact h
  · exact .ite h (.ite (h.of_eq (by simp) (by simp)) (h.after_armFault _))

/-- `returnToRunning` keeps a good head. -/
theorem HeadGood.after_returnToRunning {s : State} (h : HeadGood s) : HeadGood (returnToRunning s) := by
  have h1 : ∀ x : State, x.hpc = s.hpc → x.cfg = s.cfg → HeadGood (returnSweep (resumeSymbolizer (takeStepTargets x))) := by
    intro x a b
    exact (HeadGood.of_eq (t := resumeSymbolizer _) (h.of_eq a b).after_takeStepTargets (by simp) (by simp)).after_returnSweep
  exact h1 _ (by simp) (by simp)

/-- `leaveHolding` keeps a good head. -/
theorem HeadGood.after_leaveHolding {s : State} (h : HeadGood s) : HeadGood (leaveHolding s) := by
  unfold leaveHolding
  dsimp only
  split
  · split
    · exact HeadGood.after_enterEnding (h.of_eq (by simp) (by simp))
    · split
      · exact h.of_eq (by simp) (by simp)
      · exact h.after_returnToRunning
  · split
    · exact HeadGood.after_enterEnding (h.of_eq (by simp) (by simp))
    · exact h.of_eq (by simp) (by simp)

/-- `resumeHold` keeps a good head. -/
theorem HeadGood.after_resumeHold {s : State} (h : HeadGood s) : HeadGood (resumeHold s) := by
  unfold resumeHold
  dsimp only
  have h1 : HeadGood ((resumeDisposition s).setSeq
      { (resumeDisposition s).seq with causes := causesAfterResume (resumeDisposition s) }) := h.of_eq (by simp) (by simp)
  split
  · exact h1.after_leaveHolding
  · exact h1

/-- `takeReports` keeps a good head. -/
theorem HeadGood.after_takeReports {s : State} (h : HeadGood s) : HeadGood (takeReports s) := by
  unfold takeReports
  dsimp only
  split
  · split
    · exact h.after_enterHolding _ _
    · exact h
  · split
    · exact h
    · split
      · exact HeadGood.after_leaveHolding (h.of_eq (by simp) (by simp))
      · exact h.of_eq (by simp) (by simp)
  all_goals exact h

/-- `carry` keeps a good head. -/
theorem HeadGood.after_carry {s : State} (h : HeadGood s) : HeadGood (carry s) := h.of_eq (by simp) (by simp)

/-- `settle` keeps a good head. -/
theorem HeadGood.after_settle {s : State} (h : HeadGood s) : HeadGood (settle s) := by
  unfold settle
  split
  · exact HeadGood.of_eq h.after_carry.after_takeReports.after_carry.after_takeReports.after_carry (by simp) (by simp)
  · exact h

/-- `noticeRunEnded` keeps a good head. -/
theorem HeadGood.after_noticeRunEnded {s : State} (h : HeadGood s) (b : Bool) : HeadGood (noticeRunEnded b s) :=
  h.of_eq (by simp) (by simp)

/-- `completeEnding` keeps a good head. -/
theorem HeadGood.after_completeEnding {s : State} (h : HeadGood s) : HeadGood (completeEnding s) := by
  unfold completeEnding
  refine .ite (h.after_enterWaiting _ _) (HeadGood.after_noticeRunEnded (HeadGood.after_enterRest ?_ _) _)
  exact h.of_eq (by simp) (by simp)

/-- `completeAbort` keeps a good head. -/
theorem HeadGood.after_completeAbort {s : State} (h : HeadGood s) (b : Bool) : HeadGood (completeAbort b s) := by
  unfold completeAbort
  refine HeadGood.after_noticeRunEnded (HeadGood.after_enterRest ?_ _) _
  exact h.of_eq (by simp) (by simp)


/-- The start-up states in which the image is in force (R195). -/
def InForce (s : State) : Prop := s.cfg.startUp ≠ .settle ∧ s.cfg.startUp ≠ .loading ∧ s.cfg.startUp ≠ .configFault

/-- A started part has its image in force. -/
theorem inForce_of_started {s : State} (h : s.started = true) : InForce s := by
  revert h; unfold InForce State.started; cases s.cfg.startUp <;> simp

/-- The invariant gives the bounds. -/
theorem HeadWithin.fits {s : State} (h : HeadWithin s) : HeadFits s := ⟨h.1, h.2.1, h.2.2.1⟩

/-- A good head with the image in force meets the invariant. -/
theorem HeadWithin.of_good {t : State} (h : HeadGood t) (hi : InForce t) : HeadWithin t := by
  refine ⟨h.1.1, h.1.2.1, h.1.2.2, fun c hc => absurd hc (h.2 c), fun hq => ?_⟩
  obtain ⟨a, b, c⟩ := hi
  rcases hq with hq | hq | hq <;> contradiction

/-- What leaves the head, CFG, SEQ's state and its first fault keeps the invariant. -/
theorem HeadWithin.of_same {s t : State} (h : HeadWithin s) (hh : t.hpc = s.hpc) (hc : t.cfg = s.cfg)
    (hq : t.seq.state = s.seq.state) (hf : t.seq.first = s.seq.first) : HeadWithin t := by
  have f := h.fits.of_eq hh hc
  refine ⟨f.1, f.2.1, f.2.2, fun c e => ?_, fun e => ?_⟩
  · rw [hq, hf]; exact h.2.2.2.1 c (by simpa [State.head, hh] using e)
  · rw [hq, hh, show t.applied = s.applied by simp [State.applied, hh]]; exact h.2.2.2.2 (by rw [← hc]; exact e)

/-- Outside ABORTING and FAULTED the invariant leaves no channel in CHANNEL_FAULT. -/
theorem HeadWithin.good {s : State} (h : HeadWithin s) (h1 : s.seq.state ≠ .faulted) (h2 : s.seq.state ≠ .aborting) : HeadGood s := by
  refine ⟨h.fits, fun c e => ?_⟩
  rcases h.2.2.2.1 c e with e | ⟨e, _⟩ <;> contradiction

/-- An operation that keeps a good head good, and leaves the head, SEQ's state and its first fault alone in ABORTING and FAULTED, keeps
the invariant. -/
theorem HeadWithin.op {s t : State} (h : HeadWithin s) (hs : s.started = true) (hc : t.cfg = s.cfg)
    (hg : HeadGood s → HeadGood t)
    (hb : s.seq.state = .faulted ∨ s.seq.state = .aborting →
      t.hpc = s.hpc ∧ t.seq.state = s.seq.state ∧ t.seq.first = s.seq.first) : HeadWithin t := by
  by_cases e : s.seq.state = .faulted ∨ s.seq.state = .aborting
  · obtain ⟨a, b, c⟩ := hb e
    exact h.of_same a hc b c
  · rw [not_or] at e
    refine HeadWithin.of_good (hg (h.good e.1 e.2)) ?_
    have := inForce_of_started hs
    unfold InForce at *
    rwa [hc]

/-- `settle` keeps the invariant. -/
theorem HeadWithin.after_settle {s : State} (h : HeadWithin s) : HeadWithin (settle s) := by
  by_cases hs : s.started = true
  · refine h.op hs (by simp) HeadGood.after_settle (fun e => ?_)
    obtain ⟨a, b, _⟩ := settle_calm (s := s) (by rcases e with e | e <;> rw [e] <;> simp) (by rcases e with e | e <;> rw [e] <;> simp)
    exact ⟨b, by rw [a], by rw [a]⟩
  · simp [settle, hs]; exact h

/-- `takeFault` keeps the invariant. -/
theorem HeadWithin.after_takeFault {s : State} (h : HeadWithin s) (k : FaultKind) : HeadWithin (takeFault k s) := by
  by_cases hs : s.started = true
  · by_cases e : s.seq.state = .aborting ∧ s.seq.first = none
    · have e1 : (takeFault k s).hpc = s.hpc := by simp [takeFault, hs, e.1, e.2]
      have e2 : (takeFault k s).seq.state = .aborting := by simp [takeFault, hs, e.1, e.2]
      have f := h.fits.of_eq e1 (by simp)
      refine ⟨f.1, f.2.1, f.2.2, fun c hc => ?_, fun hc => ?_⟩
      · have := h.2.2.2.1 c (by simpa [State.head, e1] using hc)
        rw [e.1, e.2] at this; simp at this
      · have := inForce_of_started hs
        unfold InForce at this
        simp at hc; grind
    · refine h.op hs (by simp) (fun g => g.after_takeFault k) (fun e' => ?_)
      rcases e' with e' | e'
      · simp [takeFault, hs, e']
      · have : s.seq.first.isNone = false := by
          cases hf : s.seq.first with
          | none => exact absurd ⟨e', hf⟩ e
          | some _ => rfl
        simp [takeFault, hs, e', this]
  · simp [takeFault, hs]; exact h

/-- `armFault` keeps the invariant. -/
theorem HeadWithin.after_armFault {s : State} (h : HeadWithin s) (hs : s.started = true) (c : ArmCause) : HeadWithin (armFault c s) := by
  refine h.op hs (by simp) (fun g => g.after_armFault c) (fun e => ?_)
  rcases e with e | e <;> simp [armFault, e]

/-- `holdFor` keeps the invariant. -/
theorem HeadWithin.after_holdFor {s : State} (h : HeadWithin s) (hs : s.started = true) (c : Cause) : HeadWithin (holdFor c s) := by
  refine h.op hs (by simp) (fun g => g.after_holdFor c) (fun e => ?_)
  rcases e with e | e <;> simp [holdFor, e]

/-- `abortRun` keeps the invariant. -/
theorem HeadWithin.after_abortRun {s : State} (h : HeadWithin s) (hs : s.started = true) (r : RunResult) : HeadWithin (abortRun r s) := by
  refine h.op hs (by simp) (fun g => g.after_abortRun r) (fun e => ?_)
  rcases e with e | e <;> simp [abortRun, e, SeqState.inRun]

/-- `checkDose` keeps the invariant. -/
theorem HeadWithin.after_checkDose {s : State} (h : HeadWithin s) (hs : s.started = true) : HeadWithin (checkDose s) := by
  refine h.op hs (by simp) (fun g => g.after_checkDose) (fun e => ?_)
  rcases e with e | e <;> simp [checkDose, e]

/-- A ramp between two values within a maximum stays within it (R119). -/
theorem rampValue_le (m n k : Nat) (hk : k ≤ n) {a x : Nat} (h1 : a ≤ m) (h2 : x ≤ m) : rampValue a x k n ≤ m := by
  unfold rampValue
  split
  · have : (x - a) * k / n ≤ x - a := Nat.div_le_of_le_mul (by rw [Nat.mul_comm n]; exact Nat.mul_le_mul_left _ hk)
    omega
  · exact (Nat.sub_le _ _).trans h1

/-- Two ramps whose starts and whose targets are at most D apart stay so at every tick (R119). -/
theorem rampValue_within (d n k : Nat) (hk : k ≤ n) {a b x y : Nat} (h1 : a ≤ b + d) (h2 : x ≤ y + d) :
    rampValue a x k n ≤ rampValue b y k n + d := by
  have hx : (x - a) * k / n ≤ x - a := Nat.div_le_of_le_mul (by rw [Nat.mul_comm n]; exact Nat.mul_le_mul_left _ hk)
  have hy : (b - y) * k / n ≤ b - y := Nat.div_le_of_le_mul (by rw [Nat.mul_comm n]; exact Nat.mul_le_mul_left _ hk)
  rcases Nat.eq_zero_or_pos n with rfl | hn
  · simpa [rampValue] using h1
  have key : a * (n - k) + x * k ≤ (b + d) * (n - k) + (y + d) * k :=
    Nat.add_le_add (Nat.mul_le_mul_right _ h1) (Nat.mul_le_mul_right _ h2)
  have add : ∀ p q : Nat, p * k / n + q = (p * k + q * n) / n := fun p q => (Nat.add_mul_div_right _ _ hn).symm
  unfold rampValue
  split <;> split
  · rename_i p q
    rw [show a + (x - a) * k / n = ((x - a) * k + a * n) / n from by rw [← add]; omega,
      show b + (y - b) * k / n + d = ((y - b) * k + (b + d) * n) / n from by rw [← add]; omega]
    refine Nat.div_le_div_right ?_
    obtain ⟨u, rfl⟩ := Nat.exists_eq_add_of_le p
    obtain ⟨v, rfl⟩ := Nat.exists_eq_add_of_le q
    obtain ⟨w, rfl⟩ := Nat.exists_eq_add_of_le hk
    simp only [Nat.add_sub_cancel_left] at *
    nlinarith
  · rename_i p q
    generalize (x - a) * k / n = e at *
    generalize (b - y) * k / n = f at *
    omega
  · rename_i p q
    generalize (a - x) * k / n = e at *
    generalize (y - b) * k / n = f at *
    omega
  · rename_i p q
    have : (b - y) * k / n + a ≤ (a - x) * k / n + (b + d) := by
      rw [add, add]
      refine Nat.div_le_div_right ?_
      obtain ⟨u, rfl⟩ := Nat.exists_eq_add_of_le (Nat.le_of_not_le p)
      obtain ⟨v, rfl⟩ := Nat.exists_eq_add_of_le (Nat.le_of_not_le q)
      obtain ⟨w, rfl⟩ := Nat.exists_eq_add_of_le hk
      simp only [Nat.add_sub_cancel_left] at *
      nlinarith
    omega

/-- An event keeps the invariant if its effect does. -/
theorem HeadWithin.after_whenDue {s : State} {due : Bool} {f : State → State} (h : HeadWithin s) (hf : due = true → HeadWithin (f s)) :
    HeadWithin (whenDue due s f) := by
  unfold whenDue
  split
  · exact hf ‹_›
  · exact h

/-- The same as `of_same` where only the start-up state moves on with the image in force. -/
theorem HeadWithin.of_cfg {s t : State} (h : HeadWithin s) (hh : t.hpc = s.hpc) (hi : t.img = s.img) (hc : InForce t)
    (hq : t.seq.state = s.seq.state) (hf : t.seq.first = s.seq.first) : HeadWithin t := by
  refine ⟨?_, ?_, ?_, fun c e => ?_, fun e => ?_⟩
  · rw [hi]; simpa [State.applied, hh] using h.1
  · rw [hi, hh]; exact h.2.1
  · intro r hr
    obtain ⟨a, b, c, d⟩ := h.2.2.1 r (by rw [← hh]; exact hr)
    exact ⟨a, by rw [hi]; exact b, by rw [hi]; simpa [State.targets, hh] using c, by intro x; simpa [State.head, hh] using d x⟩
  · rw [hq, hf]; exact h.2.2.2.1 c (by simpa [State.head, hh] using e)
  · obtain ⟨a, b, c⟩ := hc
    rcases e with e | e | e <;> contradiction

/-- An operation on the head alone that sets no CHANNEL_FAULT. -/
theorem HeadWithin.of_fits {s t : State} (h : HeadWithin s) (hs : s.started = true) (hf : HeadFits t) (hc : t.cfg = s.cfg)
    (hst : ∀ c, (t.head c).state = .channelFault → (s.head c).state = .channelFault)
    (hq : t.seq.state = s.seq.state) (hf1 : t.seq.first = s.seq.first) : HeadWithin t := by
  refine ⟨hf.1, hf.2.1, hf.2.2, fun c e => ?_, fun e => ?_⟩
  · rw [hq, hf1]; exact h.2.2.2.1 c (hst c e)
  · have := inForce_of_started hs
    obtain ⟨a, b, c⟩ := this
    rw [hc] at e
    rcases e with e | e | e <;> contradiction

/-- `rampTick` keeps the bounds. -/
theorem HeadFits.after_rampTick {s : State} (h : HeadFits s) (hd : rampTickDue s = true) : HeadFits (rampTick s) := by
  unfold rampTickDue at hd
  unfold rampTick
  cases hr : s.hpc.ramp with
  | none => exact h
  | some r =>
    simp only [hr, Bool.and_eq_true, decide_eq_true_eq] at hd
    obtain ⟨a, ⟨m, b⟩, ⟨m', c⟩, d⟩ := h.2.2 r hr
    obtain ⟨b1, b2, b3, b4⟩ := b
    obtain ⟨c1, c2, c3, c4⟩ := c
    have e : ∀ x : HeadCh, (if (s.head x).state = .ramping then
          { s.head x with applied := rampValue (r.starts.get x) (s.head x).target (r.k + 1) r.n }
        else s.head x) = { s.head x with applied := rampValue (r.starts.get x) (s.head x).target (r.k + 1) r.n } := by
      intro x; rw [if_pos (d x).1]
    have hk : r.k + 1 ≤ r.n := hd.1
    refine ⟨?_, h.2.1, ?_⟩
    · show ZonesWithin _ _ (PerHead.map HeadChan.applied (PerHead.of _))
      simp only [e, PerHead.of, PerHead.map]
      have t1 : ∀ x, (s.head x).target = s.targets.get x := by intro x; simp [State.head, State.targets]
      simp only [t1, PerHead.get]
      have le := fun (m a x : Nat) h1 h2 => rampValue_le (a := a) (x := x) m r.n (r.k + 1) hk h1 h2
      have wi := fun (a b x y : Nat) h1 h2 => rampValue_within (a := a) (b := b) (x := x) (y := y) s.img.zoneDiff r.n (r.k + 1) hk h1 h2
      exact ⟨⟨le _ _ _ m.1 m'.1, le _ _ _ m.2.1 m'.2.1, le _ _ _ m.2.2.1 m'.2.2.1, le _ _ _ m.2.2.2.1 m'.2.2.2.1,
        le _ _ _ m.2.2.2.2.1 m'.2.2.2.2.1, le _ _ _ m.2.2.2.2.2 m'.2.2.2.2.2⟩,
        ⟨wi _ _ _ _ b1.1 c1.1, wi _ _ _ _ b1.2 c1.2⟩, ⟨wi _ _ _ _ b2.1 c2.1, wi _ _ _ _ b2.2 c2.2⟩,
        ⟨wi _ _ _ _ b3.1 c3.1, wi _ _ _ _ b3.2 c3.2⟩, ⟨wi _ _ _ _ b4.1 c4.1, wi _ _ _ _ b4.2 c4.2⟩⟩
    · intro r' hr'
      simp only [State.setHpc, Option.some.injEq] at hr'
      subst hr'
      refine ⟨hk, ⟨m, b1, b2, b3, b4⟩, ?_, fun x => ?_⟩
      · show ZonesWithin _ _ (PerHead.map HeadChan.target (PerHead.of _))
        simp only [e]
        exact ⟨m', c1, c2, c3, c4⟩
      · have g : (rampTick s).head x = { s.head x with applied := rampValue (r.starts.get x) (s.head x).target (r.k + 1) r.n } := by
          simp only [rampTick, hr, State.head, State.setHpc, PerHead.get_of]
          exact e x
        have g' := g
        unfold rampTick at g'
        rw [hr] at g'
        rw [g']
        exact ⟨(d x).1, rfl⟩

/-- `rampEnd` keeps the bounds. -/
theorem HeadFits.after_rampEnd {s : State} (h : HeadFits s) (hd : rampEndDue s = true) : HeadFits (rampEnd s) := by
  unfold rampEndDue at hd
  cases hr : s.hpc.ramp with
  | none => simp [hr] at hd
  | some r =>
    obtain ⟨a, b, c, d⟩ := h.2.2 r hr
    refine ⟨?_, h.2.1, fun r' hr' => by simp [rampEnd] at hr'⟩
    have : (rampEnd s).applied = s.targets := by
      have d1 := fun x => (d x).1
      have q1 := d1 .z1; have q2 := d1 .z2; have q3 := d1 .z3; have q4 := d1 .z4; have q5 := d1 .z5; have q6 := d1 .rr
      simp only [State.head, PerHead.get] at q1 q2 q3 q4 q5 q6
      simp [rampEnd, State.applied, State.targets, PerHead.map, q1, q2, q3, q4, q5, q6]
    rw [this]; exact c

/-- The channels as the invariant reads them stand. -/
def ChansStand (s t : State) : Prop :=
  t.hpc.ramp = s.hpc.ramp ∧ t.hpc.stepTargets = s.hpc.stepTargets ∧
  ∀ c, (t.head c).state = (s.head c).state ∧ (t.head c).target = (s.head c).target ∧ (t.head c).applied = (s.head c).applied

/-- Two families that agree at every channel are equal. -/
theorem PerHead.ext' {α : Type} {v w : PerHead α} (h : ∀ c, v.get c = w.get c) : v = w := by
  have q1 := h .z1; have q2 := h .z2; have q3 := h .z3; have q4 := h .z4; have q5 := h .z5; have q6 := h .rr
  cases v; cases w; simp only [PerHead.get] at *; subst_vars; rfl

/-- Its applied values. -/
theorem ChansStand.applied {s t : State} (h : ChansStand s t) : t.applied = s.applied :=
  PerHead.ext' fun c => by simpa [State.applied, State.head] using (h.2.2 c).2.2

/-- Its targets. -/
theorem ChansStand.targets {s t : State} (h : ChansStand s t) : t.targets = s.targets :=
  PerHead.ext' fun c => by simpa [State.targets, State.head] using (h.2.2 c).2.1

/-- What leaves the channels, CFG, SEQ's state and its first fault as they are keeps the invariant. -/
theorem HeadWithin.of_chans {s t : State} (h : HeadWithin s) (hh : ChansStand s t) (hc : t.cfg = s.cfg)
    (hq : t.seq.state = s.seq.state) (hf : t.seq.first = s.seq.first) : HeadWithin t := by
  have hi : t.img = s.img := by simp [State.img, hc]
  refine ⟨?_, ?_, ?_, fun c e => ?_, fun e => ?_⟩
  · rw [hi, hh.applied]; exact h.1
  · rw [hi, hh.2.1]; exact h.2.1
  · intro r hr
    obtain ⟨a, b, c, d⟩ := h.2.2.1 r (by rw [← hh.1]; exact hr)
    refine ⟨a, by rw [hi]; exact b, by rw [hi, hh.targets]; exact c, fun x => ?_⟩
    rw [(hh.2.2 x).1, (hh.2.2 x).2.1, (hh.2.2 x).2.2]; exact d x
  · rw [hq, hf]; exact h.2.2.2.1 c (by rw [← (hh.2.2 c).1]; exact e)
  · rw [hq, hh.1, hh.2.1, hh.applied]; exact h.2.2.2.2 (by rw [← hc]; exact e)

/-- A channel changed in its measured value, timers or mark alone. -/
theorem chansStand_set {s : State} {c : HeadCh} {x : HeadChan} (h1 : x.state = (s.head c).state)
    (h2 : x.target = (s.head c).target) (h3 : x.applied = (s.head c).applied) : ChansStand s (s.setHead c x) := by
  refine ⟨rfl, rfl, fun d => ?_⟩
  by_cases e : c = d
  · subst e; simp [State.setHead, State.head] at *; exact ⟨h1, h2, h3⟩
  · simp [State.setHead, State.head, PerHead.get_set_of_ne _ _ e]


/-! ### The invariant through faults and readings -/

/-- The states in which no channel can be in CHANNEL_FAULT. -/
theorem notBad {s : State} (h : s.seq.state = .waiting ∨ s.seq.state = .running ∨ s.seq.state = .holding ∨ s.seq.state = .ending ∨
    s.seq.state = .empty ∨ s.seq.state = .loaded ∨ s.seq.state = .done) : s.seq.state ≠ .faulted ∧ s.seq.state ≠ .aborting := by
  rcases h with h | h | h | h | h | h | h <;> rw [h] <;> simp

/-- An operation taken in such a state. -/
theorem HeadWithin.whenGood {s t : State} (h : HeadWithin s) (hs : s.started = true) (hc : t.cfg = s.cfg)
    (hq : s.seq.state ≠ .faulted ∧ s.seq.state ≠ .aborting) (hg : HeadGood s → HeadGood t) : HeadWithin t :=
  .of_good (hg (h.good hq.1 hq.2)) (by have := inForce_of_started hs; unfold InForce at *; rwa [hc])

/-- `clearRegTimer` keeps the invariant. -/
theorem HeadWithin.after_clearRegTimer {s : State} (h : HeadWithin s) (c : HeadCh) : HeadWithin (clearRegTimer c s) :=
  h.of_chans (chansStand_set rfl rfl rfl) rfl rfl rfl

/-- `judgeRegulation` keeps the invariant. -/
theorem HeadWithin.after_judgeRegulation {s : State} (h : HeadWithin s) (c : HeadCh) : HeadWithin (judgeRegulation c s) := by
  unfold judgeRegulation
  split
  · exact (h.after_clearRegTimer c).after_takeFault _
  · split
    · refine HeadWithin.after_clearRegTimer ?_ c
      have : HeadWithin (s.setHead c { s.head c with highReported := true }) := h.of_chans (chansStand_set rfl rfl rfl) rfl rfl rfl
      exact this.of_same (by simp [reportHigh]) (by simp) (by simp) (by simp)
    · exact h.after_clearRegTimer c

/-- `measure` keeps the invariant. -/
theorem HeadWithin.after_measure {s : State} (h : HeadWithin s) (c : HeadCh) (v : Nat) : HeadWithin (measure c v s) :=
  h.of_chans (chansStand_set rfl rfl rfl) rfl rfl rfl

/-- Entry to ABORTING keeps the first fault (R85). -/
theorem enterAborting_state (r : RunResult) (s : State) :
    (enterAborting r s).seq.state = .aborting ∧ (enterAborting r s).seq.first = s.seq.first := by
  rw [enterAborting_seq]; exact ⟨rfl, rfl⟩

/-- A fault reported to a started part leaves it FAULTED, or ABORTING with a first fault (R87). -/
theorem takeFault_state {s : State} (k : FaultKind) (hs : s.started = true) :
    (takeFault k s).seq.state = .faulted ∨
      ((takeFault k s).seq.state = .aborting ∧ (takeFault k s).seq.first.isSome = true) := by
  unfold takeFault
  rw [if_pos hs]
  cases e : s.seq.state <;> dsimp only
  all_goals first
    | (left; simp [enterRest]; done)
    | (right; rw [(enterAborting_state _ _).1, (enterAborting_state _ _).2]; simp)
    | skip
  · right
    split
    · simp [e]
    · rename_i h; simp [e]; cases hf : s.seq.first <;> simp_all
  · left; simp [e]

/-- `overpressure` keeps the invariant. -/
theorem HeadWithin.after_overpressure {s : State} (h : HeadWithin s) (hs : s.started = true) (c : HeadCh) :
    HeadWithin (takeFault .overpressure (overpressureVent c s)) := by
  have hs' : (overpressureVent c s).started = true := by simpa [State.started, State.inReset] using hs
  have hv : HeadFits (overpressureVent c s) := by
    have f := h.fits.after_ventHead
    have cs : (overpressureVent c s).applied = (ventHead s).applied := by
      refine PerHead.ext' fun d => ?_
      by_cases e : c = d
      · subst e; simp [overpressureVent, State.applied, State.setHead, State.head]
      · simp [overpressureVent, State.applied, State.setHead, State.head, PerHead.get_set_of_ne _ _ e]
    refine ⟨?_, ?_, fun r hr => ?_⟩
    · rw [cs, show (overpressureVent c s).img = s.img by simp [State.img], ventHead_applied]; exact zonesWithin_zero _ _
    · simpa [overpressureVent, ventHead, State.img] using h.2.1
    · simp [overpressureVent, ventHead, State.setHead] at hr
  have f := hv.after_takeFault .overpressure
  have hq : (takeFault .overpressure (overpressureVent c s)).seq.state = .faulted ∨
      ((takeFault .overpressure (overpressureVent c s)).seq.state = .aborting ∧
        (takeFault .overpressure (overpressureVent c s)).seq.first.isSome = true) := by
    exact takeFault_state _ hs'
  refine ⟨f.1, f.2.1, f.2.2, fun _ _ => hq, fun e => ?_⟩
  have := inForce_of_started hs
  obtain ⟨a, b, d⟩ := this
  simp at e
  rcases e with e | e | e <;> contradiction

end Sys2Proof.Machine
end

