-- ==== Sys2Proof/Laws/Peers.lean ====
section
/-! SUPPORT. The peer table as a map, and what a supply-low mark does to SHR. -/

namespace Sys2Proof.Machine

open Sys2Proof

/-- Looking a node up after an entry has been put: the new entry at its own node, every other node as before (R1, R2). -/
theorem findEntry_put (e : PeerEntry) (m : Nat) (l : List PeerEntry) :
    findEntry m (putEntry e l) = if m = e.node then some e else findEntry m l := by
  induction l with
  | nil => simp [putEntry, findEntry, List.find?]; split <;> simp_all [eq_comm]
  | cons x r ih =>
    unfold putEntry
    split
    · by_cases h : m = e.node
      · simp [findEntry, h]
      · have : (e.node == m) = false := by simpa using Ne.symm h
        simp [findEntry, List.find?_cons, this, h]
    · split
      · rename_i h1 h2
        by_cases h : m = e.node
        · simp [findEntry, h]
        · have : (e.node == m) = false := by simpa using Ne.symm h
          have : (x.node == m) = false := by rw [← h2]; exact this
          simp_all [findEntry]
      · rename_i h1 h2
        simp only [findEntry, List.find?_cons] at ih ⊢
        split
        · rename_i h3
          have : m ≠ e.node := by intro h; simp at h3; omega
          simp [this]
        · exact ih

/-- Looking a node up after an entry has been removed (R5). -/
theorem findEntry_drop (n m : Nat) (l : List PeerEntry) :
    findEntry m (dropEntry n l) = if m = n then none else findEntry m l := by
  induction l with
  | nil => simp [dropEntry, findEntry]
  | cons x r ih =>
    simp only [dropEntry, findEntry, List.filter_cons] at ih ⊢
    by_cases h : x.node = n
    · subst h
      simp only [bne_self_eq_false, Bool.false_eq_true, if_false, ih]
      by_cases hm : m = x.node
      · simp [hm]
      · have : (x.node == m) = false := by simpa using Ne.symm hm
        simp [hm, this]
    · have : (x.node != n) = true := by simpa using h
      simp only [this, if_true, List.find?_cons]
      split
      · rename_i h3
        have : m ≠ n := by simp at h3; omega
        simp [this]
      · exact ih

/-- The entry found for a node is that node's. -/
theorem findEntry_node {n : Nat} {l : List PeerEntry} {e : PeerEntry} (h : findEntry n l = some e) : e.node = n := by
  simpa using List.find?_some h

/-- A mark on a feed: its derate step rises by 1 where R21 lets it, its mark-free count is 0 and its mark is seen; every other feed
stands (R20 to R22). -/
theorem markSeen_shr (f g : Feed) (s : State) :
    ((markSeen f s).shr.get g).k =
      (if g = f ∧ (s.shr.get f).raises s.now s.period = true then (s.shr.get f).k + 1 else (s.shr.get g).k) ∧
    ((markSeen f s).shr.get g).markFree = (if g = f then 0 else (s.shr.get g).markFree) ∧
    ((markSeen f s).shr.get g).markSeen = (if g = f then true else (s.shr.get g).markSeen) := by
  unfold markSeen
  dsimp only
  have key : ∀ x : State, SameMarks x (if (s.shr.get f).raises s.now s.period then shrRun f x else x) := by
    intro x; split; exact shrRun_sameMarks f x; exact SameMarks.refl x
  obtain ⟨a, b, c, _⟩ := key (s.setShr (s.shr.set f ((s.shr.get f).mark s.now s.period))) g
  rw [a, b, c]
  by_cases h : f = g
  · subst h
    simp only [State.setShr_shr, PerFeed.get_set_self, FeedShare.mark, true_and, if_true]
    split <;> simp_all
  · simp [PerFeed.get_set_of_ne _ _ h, Ne.symm h]

/-- A run for a feed gives its share what R33 and R34 say, and leaves every other feed's (R18). -/
theorem shrRun_get (f g : Feed) {s : State} (hs : s.started = true) :
    (shrRun f s).shr.get g = if g = f then (s.shr.get f).take (computedGrant s f) s.now s.period else s.shr.get g := by
  simp only [shrRun, hs, if_true, State.setShr_shr]
  cases f <;> cases g <;> rfl

/-- The computed grant of a feed turns on the image, the table with the own record, and the feed's own derate step alone (R18). -/
theorem computedGrant_congr {s t : State} (f : Feed) (hc : t.cfg = s.cfg) (hp : t.peer = s.peer)
    (hk : (t.shr.get f).k = (s.shr.get f).k) : computedGrant t f = computedGrant s f := by
  simp only [computedGrant, capacityInForce, State.img, hc, hp, hk]

/-- The runs for the feeds named give each of them its run on the state as it was, and leave every other feed's share: runs for different
feeds are independent (R18). -/
theorem shrRuns_get (v : PerFeed Bool) (g : Feed) {s : State} (hs : s.started = true) :
    (shrRuns v s).shr.get g =
      if v.get g = true then (s.shr.get g).take (computedGrant s g) s.now s.period else s.shr.get g := by
  have one : ∀ (b : Bool) (f : Feed) (t : State), t.started = true → t.peer = s.peer → t.cfg = s.cfg → t.now = s.now →
      t.shr.get f = s.shr.get f →
      let r := if b = true then shrRun f t else t
      r.started = true ∧ r.peer = s.peer ∧ r.cfg = s.cfg ∧ r.now = s.now ∧ (∀ g, g ≠ f → r.shr.get g = t.shr.get g) ∧
      r.shr.get f = if b = true then (s.shr.get f).take (computedGrant s f) s.now s.period else s.shr.get f := by
    intro b f t h1 h2 h3 h4 h5
    cases b
    · simp [h1, h2, h3, h4, h5]
    · have hst : (shrRun f t).started = true := by simpa [State.started, State.inReset] using h1
      have hp : t.period = s.period := by simp [State.period, State.img, h3]
      refine ⟨by simpa using hst, by simp [h2], by simp [h3], by simp [h4], fun g hg => by simp [shrRun_get f g h1, hg], ?_⟩
      simp only [if_true]
      rw [shrRun_get f f h1, if_pos rfl, h5, computedGrant_congr f h3 h2 (by rw [h5]), h4, hp]
  unfold shrRuns
  dsimp only
  obtain ⟨a1, a2, a3, a4, a5, a6⟩ := one v.a .a s hs rfl rfl rfl rfl
  obtain ⟨b1, b2, b3, b4, b5, b6⟩ := one v.b .b _ a1 a2 a3 a4 (a5 _ (by decide))
  obtain ⟨c1, c2, c3, c4, c5, c6⟩ := one v.c .c _ b1 b2 b3 b4 ((b5 _ (by decide)).trans (a5 _ (by decide)))
  obtain ⟨-, -, -, -, d5, d6⟩ :=
    one v.d .d _ c1 c2 c3 c4 ((c5 _ (by decide)).trans ((b5 _ (by decide)).trans (a5 _ (by decide))))
  cases g
  · rw [d5 _ (by decide), c5 _ (by decide), b5 _ (by decide), a6]; rfl
  · rw [d5 _ (by decide), c5 _ (by decide), b6]; rfl
  · rw [d5 _ (by decide), c6]; rfl
  · rw [d6]; rfl

end Sys2Proof.Machine
end

