-- ==== Sys2Proof/Laws/Replies.lean ====
section
/-! SUPPORT. What an order that is taken comes to: its reply's state with its ANSWER queued. -/

namespace Sys2Proof.Machine

open Sys2Proof

/-- An order that LNK takes is carried out and answered with its code and data (R63, R184). -/
theorem serve_eq {m : OrderMeta} {s : State} (h : takesOrder m s = true) (o : State → Reply)
    (hc : (o s).st.cfg = s.cfg) : serve m o s = answered m (numCode (o s).code) (o s).data (o s).st := by
  have e : (o s).st.silent = s.silent := by simp [State.silent, hc]
  simp only [serve, h, if_true, answered, placeAnswer, e]
  cases m.toAll <;> cases s.silent <;> simp [State.setLnk, Frame.new]

/-- The same, with the reply written out. -/
theorem serve_of {m : OrderMeta} {s t : State} {o : State → Reply} {c : Code} {d : List Byte}
    (h : takesOrder m s = true) (e : o s = ⟨t, c, d⟩) (hc : t.cfg = s.cfg) :
    serve m o s = answered m (numCode c) d t := by
  have := serve_eq h o (by rw [e]; exact hc)
  rw [this, e]

/-- An order that LNK does not take changes nothing (R180, R183). -/
theorem serve_dropped {m : OrderMeta} {s : State} (h : takesOrder m s = false) (o : State → Reply) :
    serve m o s = s := by simp [serve, h]

/-- The ANSWER queued depends on the order alone. -/
theorem answers_of {m : OrderMeta} {c : Nat} {d : List Byte} {s t : State} (h : t.lnk.answers = s.lnk.answers)
    (hc : t.cfg = s.cfg) : (answered m c d t).lnk.answers = (answered m c d s).lnk.answers := by
  have e : t.silent = s.silent := by simp [State.silent, hc]
  unfold answered
  rw [e]
  split <;> simp [h]

/-- An ANSWER queued leaves every block but LNK as it was. -/
@[simp] theorem answered_keeps (m : OrderMeta) (c : Nat) (d : List Byte) (s : State) :
    (answered m c d s).seq = s.seq ∧ (answered m c d s).hpc = s.hpc ∧ (answered m c d s).pcc = s.pcc ∧
    (answered m c d s).epm = s.epm ∧ (answered m c d s).drv = s.drv ∧ (answered m c d s).rcp = s.rcp ∧
    (answered m c d s).ilk = s.ilk ∧ (answered m c d s).cfg = s.cfg ∧ (answered m c d s).pins = s.pins ∧
    (answered m c d s).peer = s.peer ∧ (answered m c d s).shr = s.shr ∧ (answered m c d s).pending = s.pending ∧
    (answered m c d s).sdu = s.sdu ∧ (answered m c d s).lnk.notices = s.lnk.notices := by
  unfold answered
  split <;> simp

end Sys2Proof.Machine
end

