-- ==== Sys2Proof/Laws/Reports.lean ====
section
/-! SUPPORT. What SDU's reports come to as a change is carried through: an effective grant never rises on the way, so that a SHARE once
found stands, and a raised SUPPLY-LOW stands in RUNNING. -/

namespace Sys2Proof.Machine

open Sys2Proof

/-- A run never raises an effective grant (R33, R34). -/
theorem FeedShare.take_effective_le (x : FeedShare) (c n p : Nat) : (x.take c n p).effective ≤ x.effective := by
  unfold FeedShare.take; split <;> simp_all

theorem shrRun_effective_le (f g : Feed) (s : State) : ((shrRun f s).shr.get g).effective ≤ (s.shr.get g).effective := by
  unfold shrRun; split
  · by_cases h : f = g
    · subst h; simpa using FeedShare.take_effective_le _ _ _ _
    · simp [PerFeed.get_set_of_ne _ _ h]
  · exact Nat.le_refl _

theorem shrRuns_effective_le (v : PerFeed Bool) (g : Feed) (s : State) : ((shrRuns v s).shr.get g).effective ≤ (s.shr.get g).effective := by
  have one : ∀ (b : Bool) (f : Feed) (s : State), ((if b then shrRun f s else s).shr.get g).effective ≤ (s.shr.get g).effective := by
    intro b f s; cases b
    · exact Nat.le_refl _
    · exact shrRun_effective_le f g s
  unfold shrRuns
  exact (one _ _ _).trans ((one _ _ _).trans ((one _ _ _).trans (one _ _ _)))

/-- A change of record or grants never raises an effective grant. -/
theorem carry_effective_le (g : Feed) (s : State) : ((carry s).shr.get g).effective ≤ (s.shr.get g).effective := by
  have : (carry s).shr = (rebuildRecord s).shr := by simp [carry]
  rw [this]; unfold rebuildRecord; dsimp only; split
  · exact Nat.le_refl _
  · exact (shrRuns_effective_le _ _ _).trans (by simp)

/-- SHARE as a change of record or grants leaves it (R50). -/
theorem carry_share (s : State) : (carry s).sdu.share = shareCondition (carry s) (usable (carry s)) := by
  have h1 : (carry s).peer = (rebuildRecord s).peer := by simp [carry]
  have h2 : (carry s).shr = (rebuildRecord s).shr := by simp [carry]
  have h3 : (carry s).seq.copy = (rebuildRecord s).seq.copy := by simp [carry]
  have h4 : (carry s).seq.index = (rebuildRecord s).seq.index := by simp [carry]
  have h5 : (carry s).sdu = (recomputeFlow (rebuildRecord s)).sdu := by simp [carry]
  have : (carry s).ratio = (rebuildRecord s).ratio := by simp only [State.ratio, State.stepNow, h3, h4]
  simp only [shareCondition, usable, State.effective, h1, h2, h5, this, recomputeFlow, State.setSdu]
  rfl

/-- A SHARE condition that a round found stands at the next: the floor is the same and no effective grant has risen (R50). -/
theorem share_stays {s t : State} (hc : (carry s).sdu.share = true) (hshr : t.shr = (carry s).shr)
    (hstep : t.stepNow = s.stepNow) (hst : t.seq.state = .holding) (hi : t.ilk = s.ilk)
    (hg : t.cfg = s.cfg) : (carry t).sdu.share = true := by
  rw [carry_share] at hc ⊢
  have so := carry_own s
  have ow := carry_own t
  have sstep : (carry s).stepNow = s.stepNow := by simp [State.stepNow]
  have tstep : (carry t).stepNow = s.stepNow := by rw [← hstep]; simp [State.stepNow]
  have le := fun g => carry_effective_le g t
  rw [hshr] at le
  unfold shareCondition usable at hc ⊢
  rw [so] at hc
  rw [ow]
  simp only [State.ratio, sstep, tstep, State.effective] at hc ⊢
  have hm : s.ilk.mode ≠ .lockout := by intro h; simp [buildRecord, h, OwnRecord.empty] at hc
  have : ∃ x, buildRecord s = recordOf s x := by
    unfold buildRecord at hc ⊢; simp only [hm, if_false] at hc ⊢
    revert hc; cases s.seq.state <;> simp [OwnRecord.empty]
  obtain ⟨x, hx⟩ := this
  have ht : buildRecord t = recordOf t .holding := by simp [buildRecord, hst, hi, hm]
  rw [hx] at hc; rw [ht]
  have himg : t.img = s.img := by simp only [State.img, hg]
  cases hsn : s.stepNow with
  | none =>
    have : recordOf s x = .empty := by simp [recordOf, hsn]
    rw [this] at hc; simp [OwnRecord.empty] at hc
  | some st =>
    cases hf : st.mainFeed with
    | none =>
      have : recordOf s x = .empty := by simp [recordOf, hsn, hf]
      rw [this] at hc; simp [OwnRecord.empty] at hc
    | some f =>
      have l1 := le f
      have e1 : recordOf s x = ⟨x, some (mainItem s st f), st.addFeed.map (additiveItem s st (mainItem s st f))⟩ := by
        simp [recordOf, hsn, hf]
      have e2 : recordOf t .holding = ⟨.holding, some (mainItem t st f), st.addFeed.map (additiveItem t st (mainItem t st f))⟩ := by
        simp [recordOf, hstep, hsn, hf]
      rw [e1] at hc; rw [e2]
      cases ha : st.addFeed with
      | none =>
        simp only [ha, mainItem, himg, Option.map_none, decide_eq_true_eq] at hc ⊢
        split at hc <;> split <;> omega
      | some g =>
        simp only [ha, mainItem, additiveItem, usableFlow, himg, Option.map_some, decide_eq_true_eq, Option.getD_some, hsn] at hc ⊢
        have l2 : ((carry t).shr.get g).effective * 100 / st.ratio ≤ ((carry s).shr.get g).effective * 100 / st.ratio :=
          Nat.div_le_div_right (Nat.mul_le_mul_right _ (le g))
        split at hc <;> split <;> omega

/-- A round in HOLDING with SHARE in the set and its condition holding only withdraws SUPPLY. -/
theorem takeReports_of_shared {s : State} (hh : s.seq.state = .holding) (h : s.seq.causes.share = true) (hs : s.sdu.share = true) :
    takeReports s = s.setSeq { s.seq with causes := causesAfterWithdrawal s } := by
  have hn : (causesAfterWithdrawal s).isEmpty = false := by simp [causesAfterWithdrawal, CauseSet.isEmpty, h, hs]
  by_cases hc : causesAfterWithdrawal s = s.seq.causes
  · have : takeReports s = s := by simp [takeReports, hh, hc]
    rw [this, hc]; rfl
  · simp [takeReports, hh, hc, hn]

/-- With HOLDING left by the second round, the sequencer is what that round leaves. -/
theorem settle_seq_of_holding {s : State} (hs : s.started = true) (h : (takeReports (carry (takeReports (carry s)))).seq.state = .holding) :
   (settle s).seq = (takeReports (carry (takeReports (carry s)))).seq := by
  have hr : (takeReports (carry (takeReports (carry s)))).seq.state ≠ .running := by rw [h]; simp
  have e3 := carry_seq_of_ne_running hr
  simp [settle, hs, judgePersist, e3, hr]

theorem Dispense.setRate_supplyLow (d : Dispense) (r : Nat) : (d.setRate r).supplyLow = d.supplyLow := by
  unfold Dispense.setRate; repeat' split
  all_goals rfl

theorem setPumps_supplyLow (s : State) (c : Channel) : ((setPumps s).chan c).supplyLow = (s.chan c).supplyLow := by
  cases c <;> exact Dispense.setRate_supplyLow _ _

/-- After the second round nothing touches a low inlet. -/
theorem settle_supplyLow (s : State) (hs : s.started = true) :
    ∀ c, ((settle s).chan c).supplyLow = ((takeReports (carry (takeReports (carry s)))).chan c).supplyLow := by
  intro c
  have : ((settle s).chan c).supplyLow = ((setPumps (carry (takeReports (carry (takeReports (carry s)))))).chan c).supplyLow := by
    simp only [settle, hs, if_true, judgePersist]
    split <;> simp [State.chan]
  rw [this, setPumps_supplyLow]; simp [State.chan]

theorem settle_lowFeeds (s : State) (hs : s.started = true) :
    (settle s).peer.lowFeeds = (takeReports (carry (takeReports (carry s)))).peer.lowFeeds := by
  simp [settle, hs]

/-- A SHARE in the set whose condition holds keeps HOLDING as a change is carried through (R76). -/
theorem settle_shared {s : State} (hs : s.started = true) (hh : s.seq.state = .holding) (h : s.seq.causes.share = true)
    (hc : (carry s).sdu.share = true) : (settle s).seq.state = .holding ∧ (settle s).seq.causes.share = true := by
  have e : (carry s).seq = s.seq := carry_seq_of_ne_running (by simp [hh])
  have r1 := takeReports_of_shared (s := carry s) (by rw [e]; exact hh) (by rw [e]; exact h) hc
  have c2 : (carry (takeReports (carry s))).sdu.share = true := by
    apply share_stays hc
    · rw [r1]; simp
    · rw [r1]; simp [State.stepNow]
    · rw [r1]; simp [e, hh]
    · rw [r1]; simp
    · rw [r1]; simp
  have e2 : (takeReports (carry s)).seq.state = .holding := by rw [r1]; simp [e, hh]
  have f2 : (takeReports (carry s)).seq.causes.share = true := by rw [r1]; simp [causesAfterWithdrawal, e, h, hc]
  have e' : (carry (takeReports (carry s))).seq = (takeReports (carry s)).seq := carry_seq_of_ne_running (by simp [e2])
  have r2 := takeReports_of_shared (s := carry (takeReports (carry s))) (by rw [e']; exact e2) (by rw [e']; exact f2) c2
  have e3 : (takeReports (carry (takeReports (carry s)))).seq.state = .holding := by rw [r2]; simp [e', e2]
  rw [settle_seq_of_holding hs e3, r2]
  simp [e', e2, causesAfterWithdrawal, f2, c2]

/-- Carrying a change through in RUNNING leaves every raised SUPPLY-LOW and the low-feed set as they were (R57, R58). -/
theorem settle_low_of_running {s : State} (hs : s.started = true) (hh : s.seq.state = .running) :
    (settle s).peer.lowFeeds = s.peer.lowFeeds ∧ ∀ c, ((settle s).chan c).supplyLow = (s.chan c).supplyLow := by
  rw [settle_lowFeeds s hs]
  have e : (carry s).seq.state = .running := by simp [hh]
  have hc2 := settle_supplyLow s hs
  by_cases hc : (carry s).sdu.share = true
  · have r1 : takeReports (carry s) = enterHolding .running ((carry s).seq.causes.add .share) (carry s) := by
      unfold takeReports; rw [e]; simp [hc]
    have c2 : (carry (takeReports (carry s))).sdu.share = true := by
      apply share_stays hc
      · rw [r1]; simp
      · rw [r1]; simp [State.stepNow]
      · rw [r1, enterHolding_seq]
      · rw [r1]; simp
      · rw [r1]; simp
    have e2 : (takeReports (carry s)).seq.state = .holding := by rw [r1, enterHolding_seq]
    have f2 : (takeReports (carry s)).seq.causes.share = true := by rw [r1, enterHolding_seq]; simp [CauseSet.add, CauseSet.put]
    have e' : (carry (takeReports (carry s))).seq = (takeReports (carry s)).seq := carry_seq_of_ne_running (by simp [e2])
    have r2 := takeReports_of_shared (s := carry (takeReports (carry s))) (by rw [e']; exact e2) (by rw [e']; exact f2) c2
    refine ⟨by rw [r2, r1]; simp, fun c => ?_⟩
    rw [hc2, r2, r1]; simp [State.chan]
  · have r1 : takeReports (carry s) = carry s := by unfold takeReports; rw [e]; simp [hc]
    rw [r1] at hc2 ⊢
    have e4 : (carry (carry s)).seq.state = .running := by simp [hh]
    by_cases hd : (carry (carry s)).sdu.share = true
    · have r2 : takeReports (carry (carry s)) = enterHolding .running ((carry (carry s)).seq.causes.add .share) (carry (carry s)) := by
        unfold takeReports; rw [e4]; simp [hd]
      rw [r2] at hc2 ⊢
      exact ⟨by simp, fun c => by rw [hc2]; simp [State.chan]⟩
    · have r2 : takeReports (carry (carry s)) = carry (carry s) := by unfold takeReports; rw [e4]; simp [hd]
      rw [r2] at hc2 ⊢
      exact ⟨by simp, fun c => by rw [hc2]; simp [State.chan]⟩

end Sys2Proof.Machine
end

