-- ==== Sys2Proof/Laws/Volumes.lean ====
section
/-! SUPPORT. What a stroke and a flowmeter pulse do to the volumes, the switches and the valves of SDU (R41, R44, R47, R51 to R56). -/

namespace Sys2Proof.Machine

open Sys2Proof

/-- The switches, the volumes and the DI valve stand, and outside SDU and LNK nothing moves. -/
def KeepsVolumes (s t : State) : Prop :=
  (∀ c, (t.chan c).switch = (s.chan c).switch) ∧ t.sdu.diVolume = s.sdu.diVolume ∧ t.sdu.dose = s.sdu.dose ∧
  t.sdu.di = s.sdu.di ∧ t = { s with sdu := t.sdu, lnk := t.lnk }

theorem KeepsVolumes.refl (s : State) : KeepsVolumes s s := ⟨fun _ => rfl, rfl, rfl, rfl, rfl⟩

theorem KeepsVolumes.trans {s t u : State} (a : KeepsVolumes s t) (b : KeepsVolumes t u) : KeepsVolumes s u :=
  ⟨fun c => (b.1 c).trans (a.1 c), b.2.1.trans a.2.1, b.2.2.1.trans a.2.2.1, b.2.2.2.1.trans a.2.2.2.1, by
    rw [b.2.2.2.2, a.2.2.2.2]⟩

theorem KeepsVolumes.setChan (c : Channel) (d : Dispense) (s : State) (h : d.switch = (s.chan c).switch) :
    KeepsVolumes s (s.setChan c d) := by
  refine ⟨?_, rfl, rfl, rfl, rfl⟩
  intro x
  cases c <;> cases x <;> simp_all [State.chan, State.setChan, PerChannel.set, PerChannel.get, State.setSdu]

theorem KeepsVolumes.placeNotice (n : Nat) (p : List Byte) (s : State) : KeepsVolumes s (placeNotice n p s) := by
  simp only [Machine.placeNotice]
  split <;> (try split) <;> exact KeepsVolumes.refl _

theorem KeepsVolumes.whenDue {b : Bool} {f : State → State} (h : ∀ s, KeepsVolumes s (f s)) (s : State) :
    KeepsVolumes s (whenDue b s f) := by
  simp only [Machine.whenDue]
  split
  · exact h s
  · exact KeepsVolumes.refl s

theorem Dispense.closeWindow_switch (d : Dispense) (pulse tolerance : Nat) : (d.closeWindow pulse tolerance).switch = d.switch := by
  simp only [Dispense.closeWindow]
  split <;> split <;> rfl

theorem Dispense.countStroke_switch (d : Dispense) : d.countStroke.switch = d.switch := by
  simp only [Dispense.countStroke]
  split <;> (try split) <;> rfl

theorem Dispense.countPulse_switch (d : Dispense) : d.countPulse.switch = d.switch := by
  simp only [Dispense.countPulse]
  split <;> rfl

@[simp] theorem Switch.count_zero (w : Switch) : w.count 0 = w := by cases w <;> simp [Switch.count]

/-- Closing and judging a window, with the fallback or the return it completes, moves no volume, switch or valve (R54 to R56). -/
theorem settleWindow_keepsVolumes (c : Channel) (s : State) : KeepsVolumes s (settleWindow c s) := by
  simp only [settleWindow]
  refine ((KeepsVolumes.whenDue ?_ _).trans (KeepsVolumes.whenDue ?_ _)).trans (KeepsVolumes.whenDue ?_ _)
  · exact fun s => KeepsVolumes.setChan _ _ _ (Dispense.closeWindow_switch _ _ _)
  · intro s
    simp only [enterFallback]
    exact (KeepsVolumes.setChan c { s.chan c with source := .fallback, disagreeing := 0, agreeing := 0 } s rfl).trans
      (KeepsVolumes.trans ⟨fun _ => rfl, rfl, rfl, rfl, rfl⟩ (KeepsVolumes.placeNotice _ _ _))
  · intro s
    simp only [restoreFlow]
    exact (KeepsVolumes.setChan c { s.chan c with source := .flowmeter, agreeing := 0 } s rfl).trans
      (KeepsVolumes.placeNotice _ _ _)

/-- What a volume counted on a channel joins: on MAIN the switch's volume, that of an open DI and, in RUNNING, the dose; on ADDITIVE
nothing (R44, R47, R52). -/
def JoinsVolumes (c : Channel) (v : Nat) (s t : State) : Prop :=
  (t.chan .main).switch = (s.chan .main).switch.count (if c = .main then v else 0) ∧
  t.sdu.diVolume = (if s.sdu.di.isOpen = true then s.sdu.diVolume + (if c = .main then v else 0) else s.sdu.diVolume) ∧
  t.sdu.dose = (if c = .main ∧ s.seq.state = .running then s.sdu.dose + v else s.sdu.dose) ∧
  t = { s with sdu := t.sdu, lnk := t.lnk }

theorem countVolume_joins (c : Channel) (v : Nat) (s : State) : JoinsVolumes c v s (countVolume c v s) := by
  cases c
  · refine ⟨by simp [countVolume, State.setChan, State.chan, State.setSdu, PerChannel.set, PerChannel.get], ?_, ?_, ?_⟩
    · show (if s.sdu.di.isOpen = true then _ else _) = _
      split <;> rfl
    · show (if s.seq.state = .running then _ else _) = _
      simp only [true_and]
      rfl
    · rfl
  · simp [JoinsVolumes, countVolume]

theorem JoinsVolumes.between {c : Channel} {v : Nat} {s t u w : State} (a : KeepsVolumes s t) (b : JoinsVolumes c v t u)
    (d : KeepsVolumes u w) : JoinsVolumes c v s w := by
  obtain ⟨a1, a2, a3, a4, a5⟩ := a
  obtain ⟨b1, b2, b3, b4⟩ := b
  obtain ⟨d1, d2, d3, _, d5⟩ := d
  have hs : t.seq = s.seq := by rw [a5]
  exact ⟨by rw [d1, b1, a1], by rw [d2, b2, a2, a4], by rw [d3, b3, a3, hs], by rw [d5, b4, a5]⟩

theorem KeepsVolumes.joins {s t : State} (c : Channel) (a : KeepsVolumes s t) : JoinsVolumes c 0 s t := by
  obtain ⟨a1, a2, a3, _, a5⟩ := a
  exact ⟨by simp [a1], by simp [a2], by simp [a3], a5⟩

/-- A stroke counts the calibrated volume during the warm-up and in FLOW_FALLBACK of a running pump, and nothing else (R51, R53). -/
theorem takeStroke_joins (c : Channel) (s : State) :
    JoinsVolumes c (if (s.chan c).rate ≠ 0 ∧ (s.chan c).strokesCount = true then (s.chan c).calibrated else 0) s (takeStroke c s) := by
  simp only [takeStroke]
  have k := KeepsVolumes.setChan c (s.chan c).countStroke s (Dispense.countStroke_switch _)
  by_cases h0 : (s.chan c).rate = 0
  · simpa [h0] using (KeepsVolumes.refl s).joins c
  · by_cases h1 : (s.chan c).strokesCount = true
    · simpa [h0, h1] using JoinsVolumes.between k (countVolume_joins c (s.chan c).calibrated _) (settleWindow_keepsVolumes c _)
    · simpa [h0, h1] using (k.trans (settleWindow_keepsVolumes c _)).joins c

/-- A flowmeter pulse counts the pulse volume after the warm-up in FLOWMETER of a running pump, and nothing else (R53). -/
theorem takePulse_joins (c : Channel) (s : State) :
    JoinsVolumes c (if (s.chan c).rate ≠ 0 ∧ (s.chan c).pulsesCount = true then s.img.pulseVolume.get c else 0) s
      (takePulse c s) := by
  simp only [takePulse]
  have k := KeepsVolumes.setChan c (s.chan c).countPulse s (Dispense.countPulse_switch _)
  by_cases h0 : (s.chan c).rate = 0
  · simpa [h0] using (KeepsVolumes.refl s).joins c
  · by_cases h1 : (s.chan c).pulsesCount = true
    · rw [if_neg h0, if_pos h1, if_pos ⟨h0, h1⟩]
      exact JoinsVolumes.between k (countVolume_joins c (s.img.pulseVolume.get c) _) (KeepsVolumes.refl _)
    · simpa [h0, h1] using k.joins c

end Sys2Proof.Machine
end

