-- ==== Sys2Proof/WellFormed.lean ====
section
/-! DEFINITION. The operand values that a command can carry on the hardware. `exec` is total and does not consult these
checks: a frame's own defects are judged by the part itself (R3, R181, R184), not here. -/

namespace Sys2Proof

/-- A source number as it stands in an accepted frame: 0 to 14 (R181 check 4, R187). -/
def nodeOk (n : Nat) : Bool := n ≤ 14

/-- An accepted ORDER comes from a node number 0 to 14 (R181, R187). -/
def OrderMeta.ok (m : OrderMeta) : Bool := nodeOk m.source

/-- A frame as the line can carry it: the length field is one byte, so at most 5 + 255 bytes (R187). -/
def frameOk (bytes : List Byte) : Bool := bytes.length ≤ 260

/-- A payload is at most 48 bytes (R187). -/
def payloadOk (bytes : List Byte) : Bool := bytes.length ≤ 48

/-- A motor current sample is 0 to 4095 counts (R147). -/
def countsOk (n : Nat) : Bool := n ≤ 4095

/-- A reading of pressure or of speed is given scaled, in 0.1 kPa or rpm, and fits the two bytes in which it is shown (R189, R192). Table 6-1
scales 0 to 4095 counts and gives no scale: DESIGN CHOICE, log entry 50. -/
def readingOk (n : Nat) : Bool := n ≤ 65535

/-- The DI path belongs to MAIN alone (R38). -/
def pathOk (ch : Channel) (p : Path) : Bool :=
  match ch, p with
  | .additive, .di => false
  | _, _ => true

/-- A command whose operands the hardware can present. -/
def WellFormed (i : Instr) : Bool :=
  match i with
  | .entryStale n | .entryRemoved n => nodeOk n
  | .frameReceived bytes => frameOk bytes
  | .demandReceived n payload => nodeOk n && payloadOk payload
  | .unknownOrder m payload => m.ok && payloadOk payload
  | .load m _ | .unload m | .start m | .hold m | .resume m | .abort m | .clearFault m | .readResult m _
  | .closeRecipe m _ | .eraseRecipe m _ | .eraseStore m | .lockStore m | .readRecipe m _ _ _ | .sumRecipe m _
  | .diskReplaced m | .padReplaced m | .queryStatus m _ | .clearEvents m _ | .restart m => m.ok
  | .writeHeader m _ _ contents | .writeStep m _ _ contents | .writeProfile m _ _ contents =>
    m.ok && contents.length ≤ 45
  | .valveFeedbackFault ch p => pathOk ch p
  | .currentSample n => countsOk n
  | .measuredPressureChange _ v => readingOk v
  | .driveFeedback _ tach estimate => readingOk tach && readingOk estimate
  | .powerOn | .resetLine | .settleEnd | .listenEnd | .refreshTick | .isolationBegun | .derateDecrement _
  | .holdOffExpiry _ | .stopReceived | .eraseStoreTargetDone | .storeOpComplete | .accumulationTimeout
  | .transmitStart | .frameSent | .echoMismatch | .nonOverlapEnd _ | .flushDone | .postRinseWaitEnd
  | .postRinseDone | .warmUpEnd _ | .strokePulse _ | .flowmeterPulse _ | .crossCheckWindow _ | .flowMismatch _
  | .flowRestored _ | .supplyLowRaise _ | .supplyLowClear _ | .supplyPersist | .pumpBlocked _ | .stepStart
  | .minTimeReached | .stepLimitReached | .overpolishEnd | .waitLong | .endingComplete | .abortingComplete
  | .abortTimeout | .rampTick | .rampEnd | .regulationTimeout _ | .overpressure _ | .supplyWarn | .warnRearm
  | .supplyAir | .armArrival | .armParked | .segmentBoundary | .homeFound | .homeTimeout | .armPositionFault
  | .diskStall | .diskLifeIncrement | .padLifeIncrement | .symbolPeriodExpiry | .lineLevelChange _ _
  | .debounceExpiry _ | .modeLinesChange _ _ | .modeDecoded | .atSpeed _ | .tachPulse _ | .tachLost _
  | .tachRestored _ | .driveTrip _ | .driveTripRelease _ | .resetLineActive | .carrierBegins
  | .driveCommandAtSetpoint _ => true

end Sys2Proof
end

