-- ==== Sys2Proof/Tests/Slice0.lean ====
section
/-! SUPPORT. Tests: each check of WellFormed refuses an ill-formed command; the manual's worked cases; and, for every statement with
hypotheses, concrete states that meet them, clause by clause, with what one command does there. -/

namespace Sys2Proof.Tests

open Sys2Proof Sys2Proof.Machine

set_option Elab.async false

/-! ### Fixtures -/

/-- An order from CMDNODE 1. -/
def from1 : OrderMeta := ⟨1, false, 9⟩

/-- The image of node 7: every feed plumbed to MAIN, zones up to 600, D = 150, the limits of a small tool. -/
def img : Image := { readImage [] with
  node := 7, cmdNode := 1, refreshPeriod := 250, capacity := ⟨900, 900, 900, 900⟩, isolatedShare := ⟨100, 100, 100, 100⟩
  plumbedMain := ⟨true, true, true, true⟩, plumbedAdditive := ⟨true, true, true, true⟩, pumpMax := ⟨500, 100⟩
  pulseVolume := ⟨100, 100⟩, strokeVolume := ⟨500, 500⟩, tolerance := 8, threshold := ⟨4, 4⟩, nonOverlap := 500
  flushVolume := 50, clampTimeout := 500, headMax := ⟨480, 480, 480, 480, 480, 800⟩, zoneDiff := 150, zoneHold := 100
  ringHold := 100, overMargin := 20, regTolerance := 10, settleLimit := 2000, airWarn := 5000, airTrip := 4000
  maxDownforce := 25, diskLimit := 1000, padLimit := 1000, acceleration := ⟨5, 5⟩, waitingLimit := 120
  lines := .all ⟨true, .edge, 5, .hold⟩ }

/-- The station in READY with that image, in tool mode RUN. -/
def base : State := { State.reset with
  cfg := { State.reset.cfg with startUp := .ready, image := some img }
  ilk := { State.reset.ilk with mode := .run, decoded := some (true, true) }
  pins := { State.reset.pins with modeFirst := true, modeSecond := true, air := 6000 } }

/-- A step: POLISH on feed A for 10.0 s. -/
def polish : StepRec :=
  { kind := .polish, termination := .time, limit := 100, minTime := 0, doseTarget := 50, sigIndex := some 1
    overpolish := 100, miss := .next, pressure := ⟨350, 520, 300, 280, 450, 400⟩, rampTime := 1, platenSpeed := 60
    headSpeed := 55, mainFeed := some .a, flow := 300, floor := 100, weight := 4, addFeed := none, ratio := 10
    postRinse := 0, inSitu := false, downforce := 30, profile := 0 }

/-- A recipe of the given steps. -/
def recipe (steps : List StepRec) : Recipe :=
  { name := [], threshold := 40, period := 1000, recovery := 2, sum := 0
    sigs := ⟨[⟨.rise, 3, 0⟩], [⟨.fall, 2, 6⟩, ⟨.flat, 4, 0⟩], []⟩, steps := steps }

/-- The station in a sequencer state at step 1 of a recipe. -/
def at_ (q : SeqState) (steps : List StepRec) : State :=
  { base with seq := { base.seq with state := q, copy := some (recipe steps), index := 1 } }

/-- The station in HOLDING with a cause and a resume target. -/
def held (c : Cause) (t : ResumeTarget) (steps : List StepRec) : State :=
  let s := at_ .holding steps
  { s with seq := { s.seq with causes := CauseSet.empty.add c, resume := some t } }

/-- The state after a command; the state itself where the command stops. -/
def after (c : Instr) (s : State) : State :=
  match exec c s with
  | .next t => t
  | _ => s

/-- The last ANSWER's payload. -/
def lastAnswer (s : State) : Option (List Byte) := s.lnk.answers.getLast?.map Frame.payload

/-- The last NOTICE's payload. -/
def lastNotice (s : State) : Option (List Byte) := s.lnk.notices.getLast?.map Frame.payload

/-! ### WellFormed refuses -/

theorem test_wf_entryStale : WellFormed (.entryStale 15) = false := by decide
theorem test_wf_entryRemoved : WellFormed (.entryRemoved 15) = false := by decide
theorem test_wf_frame : WellFormed (.frameReceived (List.replicate 261 0)) = false := by decide +kernel
theorem test_wf_demand_source : WellFormed (.demandReceived 15 []) = false := by decide
theorem test_wf_demand_payload : WellFormed (.demandReceived 2 (List.replicate 49 0)) = false := by decide
theorem test_wf_unknown : WellFormed (.unknownOrder ⟨15, false, 0⟩ []) = false := by decide
theorem test_wf_unknown_payload : WellFormed (.unknownOrder from1 (List.replicate 49 0)) = false := by decide
theorem test_wf_order_source : WellFormed (.start ⟨15, false, 0⟩) = false := by decide
theorem test_wf_header_length : WellFormed (.writeHeader from1 1 0 (List.replicate 46 0)) = false := by decide
theorem test_wf_additive_di : WellFormed (.valveFeedbackFault .additive .di) = false := by decide
theorem test_wf_counts : WellFormed (.currentSample 4096) = false := by decide
theorem test_wf_pressure : WellFormed (.measuredPressureChange .z1 65536) = false := by decide
theorem test_wf_tach : WellFormed (.driveFeedback .platen 65536 0) = false := by decide
theorem test_wf_start : WellFormed (.start from1) = true := by decide

/-! ### The manual's worked cases -/

/-- Table 2-4: nodes 2, 3, 5 and the own item of node 7. -/
def table24 : List Part :=
  [⟨false, 2, 0, 400, 150, 2⟩, ⟨false, 3, 0, 300, 100, 1⟩, ⟨false, 5, 1, 230, 200, 1⟩, ⟨true, 7, 2, 350, 100, 4⟩]

/-- Table 2-5. -/
theorem test_grants_no_shortage : (shareGrants 900 table24).map Grant.grant = [242, 146, 230, 282] := by decide +kernel
/-- Table 2-6. -/
theorem test_grants_shortage : (shareGrants 300 table24).map Grant.grant = [184, 116, 0, 0] := by decide +kernel
/-- Table 2-7: the grants at C′ = 810 and 720. -/
theorem test_grants_derated :
    ownGrant (shareGrants (effectiveCapacity 900 1) table24) = 231 ∧
    ownGrant (shareGrants (effectiveCapacity 900 2) table24) = 185 := by decide +kernel
/-- Table 6-4. -/
theorem test_envelope : fitHead img.headMax 150 polish.pressure = ⟨350, 450, 300, 280, 430, 400⟩ := by decide
/-- Table 6-5. -/
theorem test_ramp_falling : [1, 2, 3, 4, 5].map (fun k => rampValue 300 283 k 5) = [297, 294, 290, 287, 283] := by decide
/-- Table 10-12: the gaps of ORDER, ANSWER, DEMAND and NOTICE. -/
theorem test_gaps :
    gapOf { img with node := 0 } ⟨.order, 0, [], 0⟩ = 26 ∧ gapOf img ⟨.answer, 0, [], 0⟩ = 33 ∧
    gapOf img ⟨.demand, 0, [], 0⟩ = 49 ∧ gapOf { img with node := 2 } ⟨.demand, 0, [], 0⟩ = 44 ∧
    gapOf img ⟨.notice, 0, [], 0⟩ = 65 := by decide +kernel
/-- Table 10-12: an ORDER of one byte lasts 60 bit times, a DEMAND of one item 120. -/
theorem test_lengths :
    Frame.length ⟨.order, 0, [3], 0⟩ = 60 ∧ Frame.length ⟨.demand, 0, List.replicate 7 0, 0⟩ = 120 := by decide
/-- Table 3-5, windows 1, 2 and 5. -/
theorem test_windows :
    windowAgrees 97000 100000 8 = true ∧ boundStroke (97000 / 200) = 485 ∧ windowAgrees 88000 97000 8 = false ∧
    windowAgrees 95500 97000 8 = true ∧ windowAgrees 89000 97000 8 = false := by decide
/-- Table 8-3, periods 31 to 36 for matcher 1 and 35, 36 for matcher 0. -/
theorem test_matchers :
    let sig0 : List Elem := [⟨.rise, 3, 0⟩]
    let sig1 : List Elem := [⟨.fall, 2, 6⟩, ⟨.flat, 4, 0⟩]
    moveMatcher sig1 2 true (some ⟨.fall, 26⟩) 0 ⟨0, 0⟩ = ⟨⟨1, 0⟩, false⟩ ∧
    moveMatcher sig1 2 true none 1 ⟨1, 0⟩ = ⟨⟨1, 0⟩, false⟩ ∧
    moveMatcher sig1 2 true (some ⟨.flat, 2⟩) 0 ⟨1, 0⟩ = ⟨⟨2, 0⟩, false⟩ ∧
    moveMatcher sig1 2 true (some ⟨.rise, 2⟩) 0 ⟨2, 0⟩ = ⟨⟨0, 2⟩, false⟩ ∧
    moveMatcher sig0 2 true (some ⟨.rise, 2⟩) 0 ⟨0, 0⟩ = ⟨⟨1, 0⟩, false⟩ ∧
    moveMatcher sig0 2 true (some ⟨.fall, 1⟩) 0 ⟨1, 0⟩ = ⟨⟨0, 2⟩, false⟩ ∧
    moveMatcher sig1 2 true none 4 ⟨2, 0⟩ = ⟨⟨2, 0⟩, true⟩ := by decide +kernel
/-- Table 8-3: the classes of the deltas +120, −60 and +5 at threshold 40. -/
theorem test_classes :
    classify 1500 1620 40 = .rise ∧ classify 1790 1730 40 = .fall ∧ classify 1785 1790 40 = .flat := by decide

/-! ### Witnesses: time, resets, start-up -/

theorem witness_StepRunsFrontCommand :
    let s := { base with pending := [.stopReceived] }
    s.pending = .stopReceived :: [] := by decide
theorem witness_TimePassesWhenNothingIsDue :
    let idle := { State.reset with epm := { State.reset.epm with sampleTimer := 0 } }
    idle.pending = [] ∧ dueList idle = [] ∧ dueList { State.reset with cfg := { State.reset.cfg with settleTimer := 50000 } } ≠ [] ∧
    base.started = true ∧ (tick (at_ .running [polish])).seq.elapsed = 1 := by decide +kernel
theorem witness_SettleBringsRecordAndFlowUpToDate :
    let s := at_ .waiting [polish]
    s.seq.state ≠ .running ∧ s.seq.state ≠ .holding ∧ s.started = true ∧ (settle s).peer.own.main = some ⟨.a, 300, 100, 4, false⟩ := by
  decide +kernel
theorem witness_FaultLineFollowsItsThreeCauses :
    base.cfg.held = false ∧ base.pins.supplyLow = false ∧ State.reset.started = false ∧ (after .powerOn base).faultLine = false ∧
    { base with seq := { base.seq with first := some .leak } }.faultLine = true := by decide +kernel

/-- 128 bytes of a good image: node 7, CMDNODE 1, and their sum. -/
def goodBytes : List Byte := [7, 1] ++ List.replicate 124 0 ++ [8, 0]

/-- SETTLE about to end with a configuration memory. -/
def settling (m : Option (List Byte)) (retry : Nat) : State := { State.reset with
  cfg := { State.reset.cfg with settleTimer := 50000, retry := retry }, pins := { State.reset.pins with configMemory := m } }

theorem witness_SettleEnd_good :
    let s := settling (some goodBytes) 2
    s.cfg.held = false ∧ s.pins.supplyLow = false ∧ s.cfg.startUp = .settle ∧ 50000 ≤ s.cfg.settleTimer ∧ s.pins.configMemory = some goodBytes ∧
    loadGood goodBytes = true ∧ s.pins.trip = ⟨false, false⟩ ∧ s.seq.state = .empty ∧ s.rcp.inProgress = none ∧
    (after .settleEnd s).cfg.startUp = .listen ∧ (after .settleEnd s).pcc.search = some 0 := by decide +kernel
theorem witness_SettleEnd_fails :
    let s := settling none 1
    s.cfg.held = false ∧ s.pins.supplyLow = false ∧ s.cfg.startUp = .settle ∧ 50000 ≤ s.cfg.settleTimer ∧ s.pins.configMemory = none ∧
    s.cfg.retry < 2 ∧ (after .settleEnd s).cfg.retry = 2 := by decide +kernel
theorem witness_SettleEnd_third :
    let bad := 6 :: goodBytes.tail
    let s := settling (some bad) 2
    s.cfg.held = false ∧ s.pins.supplyLow = false ∧ s.pins.configMemory = some bad ∧ loadGood bad = false ∧ s.cfg.retry = 2 ∧
    (after .settleEnd s).cfg.startUp = .configFault ∧ (after .settleEnd s).faultLine = true := by decide +kernel
theorem witness_ListenEndEntersReady :
    let s := { base with cfg := { base.cfg with startUp := .listen, listenTicks := 2 } }
    s.cfg.held = false ∧ s.pins.supplyLow = false ∧ s.cfg.startUp = .listen ∧ 2 ≤ s.cfg.listenTicks ∧
    lastNotice (after .listenEnd s) = some [1, 0, 0, 0, 0, 0] := by decide +kernel

/-! ### Witnesses: peers and shares -/

/-- A peer entry of node 2 with an item on feed A. -/
def entry2 (presence : Presence) (age : Nat) : PeerEntry := ⟨2, presence, .running, [⟨.a, 400, 150, 2, true⟩], age⟩

/-- The station with one peer. -/
def with2 (e : PeerEntry) : State := { base with peer := { base.peer with table := [e], refresh := some 250000 } }

/-- The station with feed A of SHR replaced. -/
def withA (x : FeedShare) : State := { base with shr := base.shr.set .a x }

theorem witness_RefreshTickAgesTableAndCounts :
    let s := with2 (entry2 .present 7)
    s.started = true ∧ s.peer.refresh = some 250000 ∧ s.period ≤ 250000 ∧ s.seq.state ≠ .running ∧ s.seq.state ≠ .holding ∧
    (after .refreshTick s).peer.table = [entry2 .present 8] ∧ ((after .refreshTick s).shr.get .a).markFree = 1 := by
  decide +kernel
theorem witness_EntriesAge_stale :
    let s := with2 (entry2 .present 3)
    s.started = true ∧ findEntry 2 s.peer.table = some (entry2 .present 3) ∧ s.seq.state ≠ .running ∧
    (after (.entryStale 2) s).peer.table = [entry2 .stale 3] := by decide +kernel
theorem witness_EntriesAge_removed :
    let s := with2 (entry2 .stale 8)
    s.started = true ∧ findEntry 2 s.peer.table = some (entry2 .stale 8) ∧ (after (.entryRemoved 2) s).peer.table = [] := by
  decide +kernel
theorem witness_IsolationBegins :
    let s := { base with peer := { base.peer with quiet := 8 } }
    s.started = true ∧ 8 ≤ s.peer.quiet ∧ s.peer.isolated = false ∧
    (after .isolationBegun s).peer.isolated = true ∧ lastNotice (after .isolationBegun s) = some [2, 0] ∧
    capacityInForce (after .isolationBegun s) .a = 100 := by decide +kernel
theorem witness_DerateFalls :
    let s := withA { FeedShare.reset with k := 1, markFree := 16 }
    s.started = true ∧ 16 ≤ (s.shr.get .a).markFree ∧ 0 < (s.shr.get .a).k ∧
    ((after (.derateDecrement .a) s).shr.get .a).k = 0 := by decide +kernel
theorem witness_HoldOffEnds :
    let s := withA { FeedShare.reset with computed := 282, holdOff := some 0 }
    s.started = true ∧ (s.shr.get .a).holdOff = some 0 ∧ 0 ≤ s.now ∧
    ((after (.holdOffExpiry .a) s).shr.get .a).effective = 282 := by decide +kernel
theorem witness_FallInGrantIsImmediate :
    let s := withA { FeedShare.reset with computed := 282, effective := 231, holdOff := some 250000 }
    s.started = true ∧ computedGrant s .a ≤ (s.shr.get .a).effective ∧ Feed.b ≠ Feed.a := by decide +kernel
theorem witness_FloorsAreGrantedWhenTheyFit : (table24.map Part.m).sum ≤ 550 := by decide
theorem witness_ShareGrantsFitTheCapacity :
    (∀ p ∈ table24, p.m ≤ p.q ∧ 1 ≤ p.w) ∧ (table24.map Part.q).sum ≤ 1280 ∧
    (shareGrants 0 table24).map Grant.denied = [true, true, true, true] := by decide +kernel

/-! ### Witnesses: the Station Link -/

/-- A DEMAND of node 2 with one item on feed A. -/
def demand2 : List Byte := OwnRecord.payload ⟨.running, some ⟨.a, 400, 150, 2, true⟩, none⟩

/-- The frame that carries a payload of a kind from node 2 to a destination. -/
def frame2 (dest : Nat) (k : FrameKind) (payload : List Byte) : List Byte := frameBytes 2 dest (numKindOf k) 0 payload

theorem witness_FramesAndDemandsReadBack :
    let r : OwnRecord := ⟨.running, some ⟨.a, 1000, 1000, 8, true⟩, some ⟨.d, 0, 0, 1, false⟩⟩
    (14 : Nat) ≤ 14 ∧ (List.replicate 48 (255 : Byte)).length ≤ 48 ∧ (∀ i ∈ r.items, i.q ≤ 1000 ∧ i.m ≤ i.q ∧ 1 ≤ i.w ∧ i.w ≤ 8) ∧
    (r.items.map Item.feed).Nodup ∧ (r.summary = .idle → r.items = []) ∧
    entryOf 14 r.payload = ⟨14, .present, .running, r.items, 0⟩ := by decide +kernel
theorem witness_Frame_notTaken : takesFrame { base with lnk := { base.lnk with carrier := some false } } = false := by decide +kernel
theorem witness_Frame_badCheck :
    takesFrame base = true ∧ lengthGood [1, 2, 3] = false ∧ sumGood [0, 1, 0, 0, 0] = false ∧
    (after (.frameReceived [0, 1, 0, 0, 0]) base).lnk.checkErrorSeen = true := by decide +kernel
theorem witness_Frame_badKind :
    let b := frameBytes 2 7 6 0 []
    takesFrame base = true ∧ lengthGood b = true ∧ sumGood b = true ∧ kindOf (rd b 1) = none ∧
    (after (.frameReceived b) base).lnk.malformedSeen = true := by decide +kernel
theorem witness_Frame_source15 :
    let b := frameBytes 15 7 4 0 []
    base.peer.isolated = false ∧ lengthGood b = true ∧ sumGood b = true ∧ kindOf (rd b 1) = some .demand ∧
    sourceOf b ≠ base.img.node ∧ sourceOf b = 15 := by decide +kernel
theorem witness_Frame_heardOnly :
    let b := frame2 3 .order [2]
    let n := frame2 7 .notice [1, 0]
    sourceOf b ≠ base.img.node ∧ sourceOf b ≠ 15 ∧ targetNode b ≠ base.img.node ∧ targetNode b ≠ 15 ∧
    kindOf (rd n 1) = some .notice ∧ lengthGood n = true ∧ sumGood n = true := by decide +kernel
theorem witness_Frame_duplicate :
    let b := frameBytes 7 15 4 0 []
    let s := at_ .running [polish]
    takesFrame s = true ∧ lengthGood b = true ∧ sumGood b = true ∧ kindOf (rd b 1) = some .demand ∧
    s.cfg.restartPending = false ∧ sourceOf b = s.img.node ∧ (after (.frameReceived b) s).cfg.startUp = .duplicateNode ∧
    (after (.frameReceived b) s).seq.state = .aborting := by decide +kernel
theorem witness_Frame_demand :
    let b := frame2 15 .demand demand2
    sourceOf b ≠ base.img.node ∧ kindOf (rd b 1) = some .demand ∧ targetNode b = 15 ∧
    demandOk (sourceOf b) (payloadOf b) = true ∧ (after (.frameReceived b) base).peer.table = [entry2 .present 0] := by
  decide +kernel
theorem witness_DemandReceivedGivesAnEntry :
    base.started = true ∧ 7 = base.img.node ∧ 2 ≠ base.img.node ∧ demandOk 2 [] = false ∧ demandOk 2 demand2 = true ∧
    base.seq.state ≠ .running ∧ (after (.demandReceived 2 demand2) base).peer.table = [entry2 .present 0] ∧
    ((after (.demandReceived 2 demand2) base).shr.get .a).k = 1 := by decide +kernel

/-- The station with STOP reaction ABORT. -/
def stopAborts (s : State) : State := { s with cfg := { s.cfg with image := some { img with stopReaction := .abort } } }

theorem witness_StopReceived_holds :
    base.img.stopReaction = .hold ∧ (after .stopReceived (at_ .waiting [polish])).seq.resume = some .waiting ∧
    (after .stopReceived (at_ .running [polish])).seq.causes.stop = true ∧
    (after .stopReceived (held .ordered .running [polish])).seq.causes.bits = [true, false, true, false, false, false, false, false] ∧
    (after .stopReceived (at_ .ending [polish])).seq.deferred.stop = true ∧ base.seq.state.inRun = false := by decide +kernel
theorem witness_StopReceived_aborts :
    let s := stopAborts (at_ .running [polish])
    s.started = true ∧ s.img.stopReaction = .abort ∧ s.seq.state.inRun = true ∧ (stopAborts base).seq.state.inRun = false ∧
    (after .stopReceived s).seq.result = .stopped := by decide +kernel

/-- A frame of a kind that has collided some times. -/
def frameOf (k : FrameKind) (collisions : Nat) : Frame := ⟨k, 0, [1, 0], collisions⟩

/-- A quiet line with a frame of each kind waiting, from a class on. -/
def waitingFrom (cls : Nat) (quiet : Nat) : State := { base with lnk := { base.lnk with
  stopSlot := if cls = 0 then some (frameOf .stop 0) else none
  answers := if cls ≤ 1 then [frameOf .answer 1] else []
  demandSlot := if cls ≤ 2 then some (frameOf .demand 0) else none
  notices := [frameOf .notice 0], lost := 3, quiet := quiet } }

/-- A frame of a kind on the line, and at the head of its queue or slot. -/
def sendingOf (k : FrameKind) (collisions timer : Nat) : State := { base with lnk := { base.lnk with
  stopSlot := some (frameOf .stop collisions), answers := [frameOf .answer collisions]
  demandSlot := some (frameOf .demand collisions), notices := [frameOf .notice collisions], lost := 255
  sending := some ⟨frameOf k collisions, timer, 3, false⟩ } }

theorem witness_TransmitStart :
    (waitingFrom 0 17).pins.supplyLow = false ∧ (waitingFrom 0 17).lnk.stopSlot = some (frameOf .stop 0) ∧ gapOf img (frameOf .stop 0) = 17 ∧
    (waitingFrom 1 37).lnk.answers.head? = some (frameOf .answer 1) ∧ gapOf img (frameOf .answer 1) = 37 ∧
    (waitingFrom 2 49).lnk.demandSlot = some (frameOf .demand 0) ∧ (waitingFrom 3 65).lnk.notices.head? = some (frameOf .notice 0) ∧
    (after .transmitStart (waitingFrom 0 17)).lnk.sending.isSome = true ∧
    (after .transmitStart (waitingFrom 1 36)).lnk.sending.isSome = false ∧
    (after .transmitStart (waitingFrom 3 65)).lnk.sending = some ⟨⟨.notice, 0, [1, 3], 0⟩, 0, 3, false⟩ := by decide +kernel
theorem witness_FrameSent :
    let s := sendingOf .notice 0 70
    s.started = true ∧ s.lnk.sending = some ⟨frameOf .notice 0, 70, 3, false⟩ ∧ (after .frameSent s).lnk.notices = [] ∧
    (after .frameSent s).lnk.lost = 252 ∧ (after .frameSent (sendingOf .stop 0 70)).lnk.stopSlot = none := by decide +kernel
theorem witness_EchoMismatch :
    (sendingOf .notice 15 9).lnk.notices = frameOf .notice 15 :: [] ∧ (sendingOf .notice 15 9).cfg.restartPending = false ∧
    (after .echoMismatch (sendingOf .notice 15 9)).lnk.notices = [] ∧ (after .echoMismatch (sendingOf .notice 15 9)).lnk.lost = 255 ∧
    (after .echoMismatch (sendingOf .answer 0 9)).lnk.answers = [frameOf .answer 1] ∧
    (after .echoMismatch (sendingOf .demand 15 9)).lnk.demandSlot = none ∧
    (after .echoMismatch (sendingOf .stop 0 9)).lnk.stopSlot = some (frameOf .stop 1) ∧ base.lnk.carrier = none ∧
    (after .carrierBegins base).lnk.carrier = some true := by decide +kernel

/-! ### Witnesses: orders -/

/-- The station in tool mode LOCKOUT. -/
def lockedOut : State := { base with ilk := { base.ilk with mode := .lockout } }

/-- Four answers waiting. -/
def fullAnswers : State := { base with lnk := { base.lnk with answers := List.replicate 4 (frameOf .answer 0) } }

theorem witness_OrdersTurnedAway :
    State.reset.started = false ∧ (2 : Nat) ≠ base.img.cmdNode ∧ 4 ≤ fullAnswers.lnk.answers.length ∧
    fullAnswers.cfg.startUp ≠ .duplicateNode ∧ from1.toAll = false ∧ takesOrder from1 fullAnswers = false ∧
    takesOrder from1 lockedOut = true ∧ lockedOut.ilk.mode = .lockout ∧
    lastAnswer (after (.load from1 1) lockedOut) = some [11] ∧ lastAnswer (after (.resume from1) lockedOut) = some [11, 0] := by
  decide +kernel
theorem witness_UnknownAndMalformedOrders :
    takesOrder from1 base = true ∧ 21 < (22 : Byte).toNat ∧ lastAnswer (after (.unknownOrder from1 [22]) base) = some [12] ∧
    lastAnswer (after (.unknownOrder from1 [0]) base) = some [4] ∧
    lastAnswer (after (.unknownOrder from1 [2, 0]) base) = some [4] ∧
    lastAnswer (after (.unknownOrder from1 [3]) base) = some [2] := by decide +kernel

/-- A CLOSED slot of no steps, whose sum agrees. -/
def closedSlot : Slot := { Slot.erased with state := .closed, markPart0 := true }

/-- The station with slot 16 replaced. -/
def with16 (sl : Slot) : State := { base with rcp := { base.rcp with slots := base.rcp.slots.set 15 sl } }

theorem witness_LoadTakesTheCopy :
    let s := with16 closedSlot
    takesOrder from1 s = true ∧ s.ilk.mode ≠ .lockout ∧ s.seq.state = .empty ∧ 1 ≤ (16 : Byte).toNat ∧ (16 : Byte).toNat ≤ 16 ∧
    s.rcp.op = none ∧ (s.slot 16).state = .closed ∧ (s.slot 16).sumOf (s.slot 16).stepCount = (s.slot 16).sum ∧
    (after (.load from1 16) s).seq.state = .loaded := by decide +kernel
theorem witness_Load_corrupt :
    let s := with16 { closedSlot with sum := 1 }
    (s.slot 16).state = .closed ∧ (s.slot 16).sumOf (s.slot 16).stepCount ≠ (s.slot 16).sum ∧
    lastAnswer (after (.load from1 16) s) = some [8] ∧ ((after (.load from1 16) s).slot 16).state = .corrupt := by decide +kernel
theorem witness_UnloadKeepsTheRecord :
    let s := at_ .done [polish]
    takesOrder from1 s = true ∧ s.ilk.mode ≠ .lockout ∧ s.seq.state = .done ∧ base.seq.state ≠ .loaded ∧ base.seq.state ≠ .done ∧
    (after (.unload from1) s).seq.copy = none ∧ lastAnswer (after (.unload from1) base) = some [2] := by decide +kernel

/-- The station LOADED with a recipe. -/
def loaded (st : StepRec) : State := at_ .loaded [st]

/-- The station with both life counters set. -/
def lives (disk pad : Nat) (s : State) : State := { s with pcc := { s.pcc with diskLife := disk, padLife := pad } }

/-- The same station with COND_LOST set. -/
def condLost (s : State) : State := { s with pcc := { s.pcc with condLost := true, arm := .lost } }

theorem witness_StartEntersWaiting :
    let s := lives 999 999 (loaded polish)
    takesOrder from1 s = true ∧ s.ilk.mode = .run ∧ s.seq.copy = some (recipe [polish]) ∧ (recipe [polish]).steps[0]? = some polish ∧
    s.seq.state = .loaded ∧ s.pcc.diskLife < s.img.diskLimit ∧ s.pcc.padLife < s.img.padLimit ∧ s.pins.trip = ⟨false, false⟩ ∧
    s.seq.deferred = CauseSet.empty ∧ switchFault .main (targetOf .main polish) s = false ∧
    switchFault .additive (targetOf .additive polish) s = false ∧ s.pcc.condLost = false ∧
    (after (.start from1) s).seq.state = .waiting := by decide +kernel
theorem witness_Start_condLost :
    let st := { polish with inSitu := true }
    let s := condLost (loaded st)
    s.pcc.condLost = true ∧ st.inSitu = true ∧ switchFault .main (targetOf .main st) s = false ∧
    (after (.start from1) s).seq.state = .holding ∧ (after (.start from1) s).seq.causes.conditioner = true := by decide +kernel
theorem witness_Start_condition :
    let st := { polish with kind := .condition, mainFeed := none, inSitu := true }
    st.kind = .condition ∧ (after (.start from1) (loaded st)).seq.state = .waiting := by decide +kernel
theorem witness_Start_refused :
    let s := { loaded polish with ilk := { base.ilk with mode := .service } }
    base.seq.state ≠ .loaded ∧ base.seq.state ≠ .done ∧ s.ilk.mode = .service ∧ s.ilk.mode ≠ .lockout ∧
    lastAnswer (after (.start from1) base) = some [2] ∧ lastAnswer (after (.start from1) s) = some [11] ∧
    lastAnswer (after (.start from1) (lives 1000 0 (loaded polish))) = some [10] := by decide +kernel
theorem witness_HoldAndAbort :
    takesOrder from1 (at_ .waiting [polish]) = true ∧ (at_ .waiting [polish]).ilk.mode ≠ .lockout ∧
    (after (.hold from1) (at_ .waiting [polish])).seq.resume = some .waiting ∧
    (after (.hold from1) (at_ .running [polish])).seq.causes.ordered = true ∧
    (after (.hold from1) (at_ .ending [polish])).seq.deferred.ordered = true ∧
    lastAnswer (after (.hold from1) (held .ordered .running [polish])) = some [2] ∧
    (at_ .running [polish]).seq.state.inRun = true ∧ (after (.abort from1) (at_ .running [polish])).seq.state = .aborting ∧
    lastAnswer (after (.abort from1) (at_ .aborting [polish])) = some [0] ∧ base.seq.state.atRest = true := by decide +kernel

/-- The station in HOLDING with cause MODE in tool mode SERVICE. -/
def heldService : State := { held .mode .running [polish] with ilk := { base.ilk with mode := .service } }

theorem witness_ResumeClearsItsCauses :
    takesOrder from1 heldService = true ∧ heldService.ilk.mode = .service ∧ heldService.seq.state = .holding ∧
    heldService.pcc.condLost = false ∧ heldService.seq.causes.mode = true ∧
    lastAnswer (after (.resume from1) heldService) = some [0, 8] := by decide +kernel
theorem witness_Resume_waiting :
    let s := held .ordered .waiting [polish]
    s.seq.causes.interlock = false ∧ s.seq.causes.mode = false ∧ s.seq.causes.share = false ∧ s.seq.causes.supply = false ∧
    s.seq.resume = some .waiting ∧ s.seq.disposition = .normal ∧ (after (.resume from1) s).seq.state = .waiting := by decide +kernel
theorem witness_Resume_running :
    let s := held .ordered .running [polish]
    s.seq.resume = some .running ∧ s.sdu.share = false ∧ (after (.resume from1) s).seq.state = .holding ∧
    (after (.resume from1) s).seq.causes.share = true := by decide +kernel
theorem witness_Resume_concluded :
    let s := held .endpoint .running [polish]
    let s := { s with seq := { s.seq with disposition := .concluded } }
    s.seq.disposition = .concluded ∧ postRinseFault s = false ∧ (after (.resume from1) s).seq.state = .ending ∧
    base.seq.state ≠ .holding := by decide +kernel

/-- The station FAULTED. -/
def faulted (k : FaultKind) : State := { base with seq := { base.seq with state := .faulted, first := some k } }

theorem witness_ClearFaultEntersDone :
    let s := faulted .leak
    takesOrder from1 s = true ∧ s.ilk.mode ≠ .lockout ∧ s.seq.state = .faulted ∧ s.seq.first ≠ some .duplicateNode ∧
    s.seq.later.duplicateNode = false ∧ faultLineActive s = false ∧ (after (.clearFault from1) s).seq.state = .done ∧
    lastAnswer (after (.clearFault from1) (faulted .duplicateNode)) = some [2] := by decide +kernel
theorem witness_QueryStatusChangesNothing :
    takesOrder from1 base = true ∧ lastAnswer (after (.queryStatus from1 2) base) = some [4] ∧
    (lastAnswer (after (.queryStatus from1 0) base)).map List.head? = some (some 0) ∧
    (lastAnswer (after (.queryStatus from1 1) base)).map List.head? = some (some 0) := by decide +kernel

/-- The station with a store operation in flight. -/
def storing (o : StoreOp) (now : Nat) : State :=
  { base with rcp := { base.rcp with op := some (o, 0), inProgress := some o }, now := now }

theorem witness_ReadingsOnlyAnswer :
    let sl := { closedSlot with markSteps := closedSlot.markSteps.set 23 true }
    takesOrder from1 (with16 sl) = true ∧ (with16 sl).rcp.op = none ∧ ((with16 sl).slot 16).markStep 24 = true ∧
    ((with16 sl).slot 16).markStep 1 = false ∧ ((with16 sl).slot 16).state = .closed ∧ (storing (.eraseStore 0) 0).rcp.op.isSome = true ∧
    lastAnswer (after (.readResult from1 0) base) = some [0, 0, 0, 1] ∧
    lastAnswer (after (.sumRecipe from1 16) (with16 sl)) = some [0, 0, 0, 0, 0, 1] ∧
    lastAnswer (after (.readRecipe from1 16 1 1) (with16 sl)) = some [6, 2] := by decide +kernel

/-! ### Witnesses: the recipe store -/

/-- Header part 0: twelve blanks, threshold 1, period code 0, no recovery. -/
def part0 : List Byte := List.replicate 12 32 ++ [1, 0, 0, 0]

/-- A signature of one element, RISE. -/
def sigBytes : List Byte := [1, 1, 0, 0] ++ List.replicate 21 0

/-- A RINSE step record: TIME 0.1 s, weight 1, no signature, no feeds, ratio 1. -/
def stepBytes : List Byte :=
  [0x11, 0x03, 0x3F, 1] ++ List.replicate 22 0 ++ [1] ++ List.replicate 5 0

theorem witness_StoreOrders_parts :
    takesOrder from1 base = true ∧ base.ilk.mode ≠ .lockout ∧ base.rcp.op = none ∧ base.rcp.lock = false ∧
    (base.slot 16).state = .erased ∧ part0.length = 16 ∧ (base.slot 16).markPart0 = false ∧ part0Ok part0 = true ∧
    sigBytes.length = 25 ∧ (base.slot 16).markSigs.get 2 = false ∧ sigOk sigBytes = true ∧ stepBytes.length = 32 ∧
    (base.slot 16).markStep 24 = false ∧ stepOk stepBytes = true ∧
    lastAnswer (after (.writeHeader from1 16 3 sigBytes) base) = some [1] ∧
    lastAnswer (after (.writeStep from1 16 24 stepBytes) base) = some [1] := by decide +kernel

/-- A slot with part 0 and step 1 written. -/
def openSlot : Slot := { Slot.erased with
  state := .opened, part0 := part0, markPart0 := true, steps := Slot.erased.steps.set 0 stepBytes
  markSteps := Slot.erased.markSteps.set 0 true }

theorem witness_StoreOrders_close :
    let s := with16 openSlot
    (s.slot 16).state = .opened ∧ (s.slot 16).markPart0 = true ∧ 0 < (s.slot 16).highestStep ∧
    (s.slot 16).stepsWritten (s.slot 16).highestStep = true ∧ lastAnswer (after (.closeRecipe from1 16) s) = some [1] := by
  decide +kernel
theorem witness_StoreOrders_profile :
    let data : List Byte := [124, 1, 200]
    (3 : Byte).toNat ≤ 3 ∧ data.length = 3 * (1 : Byte).toNat ∧ (base.profile 3).state = .unwritten ∧
    segmentsOk (readSegments data 1) = true ∧ lastAnswer (after (.writeProfile from1 3 1 data) base) = some [1] ∧
    lastAnswer (after (.eraseRecipe from1 1) base) = some [1] ∧ lastAnswer (after (.eraseStore from1) base) = some [1] := by
  decide +kernel
theorem witness_StoreOrders_refused :
    let locked := { base with rcp := { base.rcp with lock := true } }
    let gap := with16 { openSlot with markSteps := Slot.erased.markSteps.set 1 true }
    lastAnswer (after (.lockStore from1) (storing (.eraseStore 0) 0)) = some [3] ∧ (0 : Byte).toNat = 0 ∧ 16 < (17 : Byte).toNat ∧
    lastAnswer (after (.closeRecipe from1 17) base) = some [4] ∧ lastAnswer (after (.eraseRecipe from1 1) locked) = some [9] ∧
    lastAnswer (after (.writeStep from1 16 24 stepBytes) locked) = some [9] ∧
    lastAnswer (after (.closeRecipe from1 16) (with16 { openSlot with state := .corrupt })) = some [8] ∧
    lastAnswer (after (.closeRecipe from1 16) (with16 closedSlot)) = some [5] ∧
    lastAnswer (after (.closeRecipe from1 16) (with16 { openSlot with markPart0 := false })) = some [6] ∧
    (gap.slot 16).stepsWritten (gap.slot 16).highestStep = false ∧ lastAnswer (after (.closeRecipe from1 16) gap) = some [7] := by
  decide +kernel
theorem witness_StoreOperationCompletes :
    base.started = true ∧
    ((after .storeOpComplete (storing (.writeHeader 16 0 part0) 2000)).slot 16).state = .opened ∧
    ((after .storeOpComplete (storing (.writeHeader 16 3 sigBytes) 2000)).slot 16).sigs.s2 = sigBytes ∧
    ((after .storeOpComplete (storing (.writeStep 1 24 stepBytes) 2000)).slot 1).markStep 24 = true ∧
    ((after .storeOpComplete (storing (.writeStep 1 24 stepBytes) 1999)).slot 1).markStep 24 = false := by decide +kernel
theorem witness_Store_close_erase_profile :
    let c := { with16 openSlot with rcp := { (with16 openSlot).rcp with op := some (.closeRecipe 16 1, 0) }, now := 30000 }
    let e := { with16 openSlot with rcp := { (with16 openSlot).rcp with op := some (.eraseRecipe 16, 0) }, now := 30000 }
    ((after .storeOpComplete c).slot 16).state = .closed ∧ ((after .storeOpComplete e).slot 16).state = .erased ∧
    ((after .storeOpComplete (storing (.writeProfile 3 [⟨380, 200⟩]) 4000)).profile 3).state = .written := by decide +kernel
theorem witness_EraseStoreTargetByTarget :
    (storing (.eraseStore 3) 16000).rcp.op = some (.eraseStore 3, 0) ∧
    (after .eraseStoreTargetDone (storing (.eraseStore 0) 4000)).rcp.op = some (.eraseStore 1, 0) ∧
    (after .eraseStoreTargetDone (storing (.eraseStore 3) 16000)).rcp.op = some (.eraseStore 4, 0) ∧
    (after .eraseStoreTargetDone (storing (.eraseStore 4) 40000)).rcp.op = some (.eraseStore 5, 0) ∧
    (after .eraseStoreTargetDone (storing (.eraseStore 19) 400000)).rcp.op = some (.eraseStore 20, 0) ∧
    (after .storeOpComplete (storing (.eraseStore 20) 400000)).rcp.op = none := by decide +kernel
theorem witness_LockAndLifeCounters :
    let s := { base with rcp := { base.rcp with accumulation := 60000000 }, pcc := { base.pcc with diskLife := 5, padLife := 6 } }
    takesOrder from1 s = true ∧ s.ilk.mode ≠ .lockout ∧ s.rcp.op = none ∧ s.seq.state.atRest = true ∧
    (at_ .running [polish]).seq.state.atRest = false ∧ (after (.lockStore from1) s).rcp.lock = true ∧
    (after (.diskReplaced from1) s).pcc.diskLife = 0 ∧ (after (.padReplaced from1) s).rcp.diskStored = 5 ∧
    (after .accumulationTimeout s).rcp.padStored = 6 := by decide +kernel
theorem witness_ClearEventsAndRestart :
    let s := { base with lnk := { base.lnk with collisionSeen := true, checkErrorSeen := true } }
    takesOrder from1 s = true ∧ s.seq.state ≠ .running ∧ s.seq.state ≠ .holding ∧ s.seq.state.atRest = true ∧ s.silent = false ∧
    (after (.clearEvents from1 0x100) s).lnk.collisionSeen = false ∧ (after (.clearEvents from1 0x100) s).lnk.checkErrorSeen = true ∧
    (after (.clearEvents from1 0x2000) (condLost base)).pcc.search = some 0 ∧ (condLost base).pcc.arm = .lost ∧
    (after (.restart from1) s).cfg.restartPending = true ∧ (after (.restart ⟨1, true, 0⟩) s).cfg.cause = .restartOrder ∧
    lastAnswer (after (.restart from1) (at_ .running [polish])) = some [2] := by decide +kernel

/-! ### Witnesses: the dispense unit -/

/-- The station with the MAIN channel replaced. -/
def withMain (d : Dispense) (s : State) : State := { s with sdu := { s.sdu with ch := { s.sdu.ch with main := d } } }

/-- A channel with feed A open. -/
def openA : Dispense := { Dispense.reset with
  valves := { Dispense.reset.valves with a := ⟨.opened, 500000, 0⟩ }, lineFeed := .feed .a, target := .feed .a }

/-- A running pump with feed A open. -/
def runningA : Dispense := { openA with rate := 100, warmTimer := 2000000, warm := true, calibrated := 500 }

theorem witness_DispenseFaults :
    let a := withMain { openA with valves := { openA.valves with a := ⟨.opened, 500000, 500000⟩ } } (at_ .running [polish])
    let d := { base with sdu := { base.sdu with di := ⟨.closed, 500000, 500000⟩ } }
    let p := withMain { runningA with clampTimer := 500000 } (at_ .running [polish])
    a.started = true ∧ plumbedTo a.img .main .a = true ∧ ((a.chan .main).valves.get .a).state ≠ .faultClosed ∧
    500000 ≤ ((a.chan .main).valves.get .a).disagree ∧ (after (.valveFeedbackFault .main (.feed .a)) a).seq.first = some .valve ∧
    (after (.valveFeedbackFault .main .di) d).seq.state = .faulted ∧ 0 < (p.chan .main).rate ∧
    (after (.pumpBlocked .main) p).seq.first = some .pumpBlocked := by decide +kernel
theorem witness_Switch_flush :
    let s := withMain { Dispense.reset with switch := .nonOverlap 0, target := .feed .a, lineFeed := .feed .b } (at_ .waiting [polish])
    s.started = true ∧ (s.chan .main).switch = .nonOverlap 0 ∧ 0 ≤ s.now ∧ (s.chan .main).target = .feed .a ∧
    ((s.chan .main).valves.get .a).state = .closed ∧ (s.chan .main).lineFeed ≠ .none ∧ (s.chan .main).lineFeed ≠ .feed .a ∧
    0 < s.img.flushVolume ∧ ((after (.nonOverlapEnd .main) s).chan .main).switch = .flush 0 ∧
    ((after (.nonOverlapEnd .main) s).chan .main).rate = 200 := by decide +kernel
theorem witness_Switch_open :
    let s := withMain { Dispense.reset with switch := .nonOverlap 0, target := .feed .a, lineFeed := .none } (at_ .waiting [polish])
    (s.chan .main).lineFeed = .none ∧ ((after (.nonOverlapEnd .main) s).chan .main).lineFeed = .feed .a := by decide +kernel
theorem witness_FlushDone :
    let s := withMain { Dispense.reset with switch := .flush 5000, target := .feed .a } (at_ .waiting [polish])
    100 * s.img.flushVolume ≤ 5000 ∧ (s.chan .main).switch = .flush 5000 ∧ ((s.chan .main).valves.get .a).state = .closed ∧
    ((after .flushDone s).chan .main).switch = .idle := by decide +kernel
theorem witness_PostRinse :
    let w := withMain { Dispense.reset with switch := .postRinseWait 0 } (at_ .ending [{ polish with postRinse := 100 }])
    let r := withMain { Dispense.reset with switch := .postRinse 10000, rate := 200 } (at_ .ending [{ polish with postRinse := 100 }])
    let r := { r with sdu := { r.sdu with di := ⟨.opened, 0, 0⟩, diVolume := 5000 } }
    w.sdu.di.state = .closed ∧ (after .postRinseWaitEnd w).sdu.di.state = .opened ∧ 100 * r.postRinse ≤ 10000 ∧
    r.sdu.di.isOpen = true ∧ (after .postRinseDone r).sdu.rinseDone = true ∧
    ((after .postRinseDone r).chan .main).lineFeed = .none := by decide +kernel
theorem witness_VolumesAreCounted :
    let w := withMain { runningA with warm := false } base
    let f := withMain { runningA with source := .fallback } base
    let m := withMain runningA base
    w.started = true ∧ 0 < (w.chan .main).rate ∧ (w.chan .main).warm = false ∧ 2000000 ≤ (w.chan .main).warmTimer ∧
    ((after (.warmUpEnd .main) w).chan .main).warm = true ∧ base.seq.state ≠ .running ∧ (base.chan .main).rate = 0 ∧
    (w.chan .main).windowOpen = false ∧ (w.chan .main).disagreeing < 3 ∧ (w.chan .main).agreeing < 3 ∧
    (f.chan .main).source = .fallback ∧ (m.chan .main).source = .flowmeter ∧ (after (.strokePulse .main) m).sdu.dose = 0 := by
  decide +kernel
theorem witness_Dose :
    let s := at_ .running [polish]
    let s := { (withMain runningA s) with shr := base.shr.set .a { FeedShare.reset with computed := 300, effective := 300 } }
    s.seq.state = .running ∧ (after (.flowmeterPulse .main) s).sdu.dose = 100 := by decide +kernel
theorem witness_CrossCheck :
    let d := { runningA with windowOpen := true, strokes := 200, pulses := 970 }
    let s := withMain d base
    s.started = true ∧ (s.chan .main).windowOpen = true ∧ 200 ≤ (s.chan .main).strokes ∧ (s.chan .main).source = .flowmeter ∧
    (97000 - 100000 + (100000 - 97000)) * 100 ≤ 100000 * s.img.tolerance ∧
    ((after (.crossCheckWindow .main) s).chan .main).calibrated = 485 ∧
    ((after (.crossCheckWindow .main) (withMain { d with pulses := 880, calibrated := 485 } base)).chan .main).disagreeing = 1 ∧
    ((after (.crossCheckWindow .main) (withMain { d with source := .fallback, agreeing := 2 } base)).chan .main).agreeing = 3 := by
  decide +kernel
theorem witness_FlowMismatch :
    let s := withMain { runningA with disagreeing := 3, vf := 86000, vs := 97000 } base
    let r := withMain { runningA with source := .fallback, agreeing := 3 } base
    (s.chan .main).source = .flowmeter ∧ 3 ≤ (s.chan .main).disagreeing ∧ (after (.flowMismatch .main) s).sdu.mismatch = true ∧
    (r.chan .main).source = .fallback ∧ 3 ≤ (r.chan .main).agreeing ∧ lastNotice (after (.flowRestored .main) r) = some [12, 0, 0] := by
  decide +kernel
theorem witness_Starvation :
    let s := withMain { openA with lowTimer := 500000 } base
    let c := withMain { openA with supplyLow := true, recoveryTimer := 2000000 } base
    let p := withMain { openA with supplyLow := true } (at_ .running [polish])
    let p := { p with sdu := { p.sdu with persist := 5000000 } }
    s.started = true ∧ (s.chan .main).openFeed = some .a ∧ 0 < s.img.threshold.get .main ∧ (s.chan .main).supplyLow = false ∧
    ((after (.supplyLowRaise .main) s).shr.get .a).k = 1 ∧ (after (.supplyLowRaise .main) s).peer.lowFeeds.a = true ∧
    ((after (.supplyLowClear .main) c).chan .main).supplyLow = false ∧ p.seq.state = .running ∧ (p.chan .main).openFeed = some .a ∧
    (after .supplyPersist p).seq.causes.supply = true := by decide +kernel

/-! ### Witnesses: the sequencer -/

/-- The station WAITING for a RINSE step with every start condition met, MAIN switched to DI. -/
def ready (st : StepRec) : State :=
  let s := at_ .waiting [st]
  let d := { DriveState.reset with atSpeed := true }
  { s with
    sdu := { s.sdu with di := ⟨.opened, 0, 0⟩, ch := { s.sdu.ch with main := { Dispense.reset with target := .di } } }
    ilk := { s.ilk with lines := s.ilk.lines.set .il1 ⟨.active, 0, false, false⟩ }
    drv := { s.drv with drive := ⟨d, d⟩ }
    pcc := { s.pcc with homeFound := true }
    rcp := { s.rcp with profiles := s.rcp.profiles.set 0 ⟨.written, [⟨100, 50⟩]⟩ } }

/-- A RINSE step. -/
def rinse : StepRec := { polish with kind := .rinse, mainFeed := none }

theorem witness_StepStarts :
    let s := ready rinse
    s.started = true ∧ s.seq.state = .waiting ∧ s.seq.copy = some (recipe [rinse]) ∧
    (recipe [rinse]).steps[s.seq.index - 1]? = some rinse ∧ 1 ≤ s.seq.index ∧ switchComplete .main s = true ∧
    switchComplete .additive s = true ∧ rinse.kind ≠ .polish ∧ (s.line .il1).level = .active ∧
    (s.drive .platen).atSpeed = true ∧ (s.drive .head).atSpeed = true ∧ rinse.inSitu = false ∧ 0 < rinse.rampTime ∧
    (after .stepStart s).seq.state = .running ∧ lastNotice (after .stepStart s) = some [3, 0, 1] := by decide +kernel
theorem witness_StepStarts_now :
    let st := { rinse with rampTime := 0 }
    (ready st).stepNow = some st ∧ st.rampTime = 0 ∧ ((after .stepStart (ready st)).head .z2).applied = 450 := by decide +kernel
theorem witness_StepStarts_condition :
    let st := { rinse with kind := .condition, inSitu := true }
    let s := { ready st with sdu := base.sdu }
    switchComplete .main s = true ∧ s.seq.disposition = .normal ∧ s.pcc.withdrawn = false ∧ (s.profile 0).state = .written ∧
    s.pcc.arm = .parked ∧ (after .stepStart s).pcc.arm = .movingIn ∧ ((after .stepStart s).head .z1).applied = 0 := by decide +kernel

/-- The station RUNNING a step, with elapsed time and dose. -/
def running (st : StepRec) (elapsed dose : Nat) : State :=
  let s := at_ .running [st]
  { s with seq := { s.seq with elapsed := elapsed, minReached := false }, sdu := { s.sdu with dose := dose } }

theorem witness_TimeStep :
    let s := running polish 10000000 4000
    let f := { running { polish with postRinse := 1 } 10000000 0 with sdu := { base.sdu with di := ⟨.faultClosed, 0, 0⟩ } }
    s.started = true ∧ s.seq.state = .running ∧ s.stepNow = some polish ∧ 100000 * polish.limit ≤ s.seq.elapsed ∧
    (after .stepLimitReached s).seq.state = .ending ∧
    (after .stepLimitReached s).seq.record = [⟨1, .doneTime, 100, 0, 40, none, StepFlags.empty⟩] ∧
    f.sdu.di.state = .faultClosed ∧ (after .stepLimitReached f).seq.state = .aborting ∧
    (after .stepLimitReached f).seq.first = some .valve := by decide +kernel
theorem witness_DoseStep :
    let st := { polish with termination := .dose, minTime := 50 }
    (running st 5000000 4999).stepNow = some st ∧ 100000 * st.minTime ≤ 5000000 ∧
    (after .minTimeReached (running st 5000000 4999)).seq.minReached = true ∧
    ((after .minTimeReached (running st 5000000 5000)).seq.record.map RunEntry.result) = [.doneDose] ∧
    ((after .stepLimitReached (running st 10000000 5000)).seq.record.map RunEntry.result) = [.doneDose] ∧
    ((after .stepLimitReached (running st 10000000 4999)).seq.record.map RunEntry.result) = [.doseShort] := by decide +kernel
theorem witness_EndpointStep :
    let st := { polish with termination := .endpoint }
    let m := { running st 10000000 0 with seq := { (running st 10000000 0).seq with endpoint := some 20, overEnd := some 99 } }
    m.stepNow = some st ∧ m.seq.overEnd = some 99 ∧ 100000 * 99 ≤ m.seq.elapsed ∧
    ((after .overpolishEnd m).seq.record.map RunEntry.endpoint) = [some 20] ∧
    ((after .stepLimitReached m).seq.record.map RunEntry.result) = [.doneEndpoint] ∧
    (after .stepLimitReached (running st 10000000 0)).seq.state = .ending ∧
    (after .stepLimitReached (running { st with miss := .hold } 10000000 0)).seq.causes.endpoint = true ∧
    (after .stepLimitReached (running { st with miss := .abort } 10000000 0)).seq.result = .aborted := by decide +kernel
theorem witness_WaitLongIsSentOnce :
    let s := at_ .waiting [polish]
    let s := { s with seq := { s.seq with waiting := 120000000 } }
    s.started = true ∧ s.seq.state = .waiting ∧ 1000000 * s.img.waitingLimit ≤ s.seq.waiting ∧ s.seq.waitLongSent = false ∧
    (after .waitLong s).seq.waitLongSent = true ∧ (lastNotice (after .waitLong s)).isSome = true := by decide +kernel

/-- The station at the completion of ENDING with causes deferred. -/
def endingAt (steps : List StepRec) (deferred : CauseSet) : State :=
  let s := at_ .ending steps
  { s with seq := { s.seq with deferred := deferred }, sdu := { s.sdu with rinseDone := true }, hpc := { s.hpc with atTarget := true } }

theorem witness_EndingCompletes :
    let s := endingAt [polish, rinse] CauseSet.empty
    let h := endingAt [polish, rinse] (CauseSet.empty.add .mode)
    s.started = true ∧ s.seq.state = .ending ∧ s.sdu.rinseDone = true ∧ s.hpc.atTarget = true ∧
    s.seq.copy = some (recipe [polish, rinse]) ∧ (recipe [polish]).steps.length ≤ 1 ∧
    (after .endingComplete (endingAt [polish] CauseSet.empty)).seq.result = .completed ∧
    (recipe [polish, rinse]).steps[1]? = some rinse ∧ s.pcc.condLost = false ∧ switchFault .main (targetOf .main rinse) s = false ∧
    switchFault .additive (targetOf .additive rinse) s = false ∧ (after .endingComplete s).seq.state = .waiting ∧
    h.seq.deferred.notForSlurry = true ∧ (after .endingComplete h).seq.causes.mode = true := by decide +kernel
theorem witness_AbortingCompletes :
    let s := at_ .aborting [polish]
    let s := { s with seq := { s.seq with abortTimer := some 10000000 } }
    s.started = true ∧ s.seq.state = .aborting ∧ atZero s .platen = true ∧ atZero s .head = true ∧ s.pcc.arm = .parked ∧
    s.seq.abortTimer = some 10000000 ∧ (after .abortingComplete s).seq.state = .done ∧
    lastNotice (after .abortTimeout s) = some [9, 0, 0, 0, 0, 1] := by decide +kernel

/-! ### Witnesses: the head -/

/-- The station with every head channel the same, and a ramp. -/
def withHead (h : HeadChan) (r : Option Ramp) : State := { base with hpc := { base.hpc with ch := .all h, ramp := r } }

/-- A channel RAMPING from 300 to 283. -/
def rampingChan : HeadChan := { HeadChan.reset 300 with state := .ramping, target := 283, applied := 300 }

theorem witness_RampTick :
    let r : Ramp := ⟨.all 300, 5, 4, 20000⟩
    let s := withHead rampingChan (some r)
    s.started = true ∧ s.hpc.ramp = some r ∧ r.k < r.n ∧ 20000 ≤ r.timer ∧ (s.head .z1).state = .ramping ∧ r.k + 1 = r.n ∧
    (r.starts.z1 ≤ s.img.headMax.z1 ∧ r.starts.z1 ≤ r.starts.z2 + s.img.zoneDiff ∧ s.targets.z1 ≤ s.img.headMax.z1) ∧
    ((after .rampTick s).head .z1).applied = 283 := by decide +kernel
theorem witness_RampEnd :
    let s := withHead rampingChan (some ⟨.all 300, 5, 5, 0⟩)
    s.hpc.ramp = some ⟨.all 300, 5, 5, 0⟩ ∧ ((after .rampEnd s).head .rr).state = .regulating ∧
    ((HeadChan.reset 0).state ≠ .ramping) := by decide +kernel

/-- A channel REGULATING at 300 with its timer at the settle limit. -/
def regulating (measured : Nat) (high : Bool) : State :=
  withHead { HeadChan.reset measured with
    state := .regulating, target := 300, applied := 300, regTimer := 2000000, highReported := high } none

theorem witness_RegulationIsJudged :
    (regulating 289 false).started = true ∧ ((regulating 289 false).head .z1).state = .regulating ∧
    1000 * img.settleLimit ≤ 2000000 ∧ 289 + img.regTolerance < 300 ∧ 300 + img.regTolerance < 311 ∧
    (after (.regulationTimeout .z1) (regulating 289 false)).seq.first = some .leak ∧
    lastNotice (after (.regulationTimeout .z1) (regulating 311 false)) = some [13, 0, 0, 44, 1, 55, 1] ∧
    (after (.regulationTimeout .z1) (regulating 311 true)).lnk.notices = [] ∧
    ((after (.measuredPressureChange .z1 310) (regulating 311 true)).head .z1).highReported = false := by decide +kernel
theorem witness_Overpressure :
    let s := withHead { HeadChan.reset 700 with overTimer := 100000 } none
    (s.head .z3).state ≠ .channelFault ∧ 100000 ≤ (s.head .z3).overTimer ∧
    ((after (.overpressure .z3) s).head .z3).state = .channelFault ∧ (after (.overpressure .z3) s).seq.first = some .overpressure := by
  decide +kernel
theorem witness_AirSupply :
    let s := regulating 300 false
    let t := { s with hpc := { s.hpc with tripTimer := 50000 } }
    let w := { base with pins := { base.pins with air := 4999 } }
    let r := { base with hpc := { base.hpc with armed := false, rearmTimer := 1000000 } }
    50000 ≤ t.hpc.tripTimer ∧ (t.head .z1).state = .regulating ∧ (after .supplyAir t).seq.first = some .supplyAir ∧
    w.hpc.armed = true ∧ w.pins.air < w.img.airWarn ∧ (after .supplyWarn w).hpc.warn = true ∧ r.hpc.armed = false ∧
    (after .warnRearm r).hpc.armed = true := by decide +kernel

/-! ### Witnesses: the pad conditioner and the endpoint monitor -/

/-- The station with an arm, its feedback at the commanded radius. -/
def withArm (p : Pcc) (s : State) : State := { s with pcc := p, pins := { s.pins with armFeedback := p.radius } }

/-- An arm SWEEPING in a profile of two segments. -/
def sweepingArm : Pcc := { base.pcc with
  arm := .sweeping, radius := 100000000, segments := [⟨100, 50⟩, ⟨200, 60⟩], segment := 1, downforce := 25 }

theorem witness_ArmMoves :
    let a := withArm { base.pcc with arm := .movingIn, radius := 40000000, destination := 40000000 } (at_ .running [polish])
    let p := withArm { base.pcc with arm := .lifting, radius := 420000000 } base
    let h := { withArm { base.pcc with search := some 1 } base with pins := { base.pins with homeSwitch := true } }
    a.started = true ∧ a.pcc.arm = .movingIn ∧ a.pcc.radius = a.pcc.destination ∧ a.stepNow = some polish ∧
    (after .armArrival a).pcc.downforce = 25 ∧ (after .armParked p).pcc.arm = .parked ∧ h.pcc.search.isSome = true ∧
    (after .homeFound h).pcc.homeFound = true := by decide +kernel
theorem witness_SegmentBoundary :
    let s := withArm sweepingArm base
    let last := withArm { sweepingArm with segment := 2, radius := 200000000 } base
    let inner := withArm { sweepingArm with segment := 1, radius := 40000000, direction := .inward } base
    let mid := withArm { sweepingArm with segment := 2, direction := .inward } base
    40000000 < lastOuter s.pcc.segments ∧ outerOf s.pcc.segments s.pcc.segment ≤ s.pcc.radius ∧
    (after .segmentBoundary s).pcc.segment = 2 ∧ (after .segmentBoundary last).pcc.direction = .inward ∧
    innerOf inner.pcc.segments 1 = 40000000 ∧ (after .segmentBoundary inner).pcc.direction = .outward ∧
    (after .segmentBoundary mid).pcc.segment = 1 := by decide +kernel
theorem witness_ArmFaults :
    let h := { base with pcc := { base.pcc with search := some 15000000 } }
    let p := { base with pcc := { base.pcc with homeFound := true, positionTimer := 200000 } }
    let st := { polish with inSitu := true }
    let r := { at_ .running [st] with pcc := { sweepingArm with stallTimer := 200000 } }
    let w := { at_ .waiting [st] with pcc := p.pcc }
    let k := { held .ordered .waiting [st] with pcc := p.pcc }
    h.started = true ∧ lastNotice (after .homeTimeout h) = some [16, 0, 3, 0, 0] ∧ (after .armPositionFault p).pcc.arm = .lost ∧
    r.seq.state = .running ∧ (after .diskStall r).seq.flags.condLost = true ∧ (after .diskStall r).pcc.withdrawn = true ∧
    conditionsPad w = true ∧ (after .armPositionFault w).seq.causes.conditioner = true ∧
    (after .armPositionFault k).seq.causes.bits = [true, false, false, false, false, false, true, false] := by decide +kernel
theorem witness_LifeCountersRise :
    let s := { base with pcc := { base.pcc with diskLife := 899, diskRemainder := 1000024, padRemainder := 1000000, padLife := 4294967295 } }
    s.started = true ∧ 1000000 ≤ s.pcc.diskRemainder ∧ 1000000 ≤ s.pcc.padRemainder ∧
    lastNotice (after .diskLifeIncrement s) = some ([15, 0, 0] ++ le4 900 ++ le4 1000) ∧
    (after .diskLifeIncrement s).pcc.diskRemainder = 24 ∧ (after .padLifeIncrement s).pcc.padLife = 4294967295 := by decide +kernel

/-- The station RUNNING an ENDPOINT step, its symbol period expired, matcher 1 pending on its last element. -/
def matching : State :=
  let st := { polish with termination := .endpoint, sigIndex := some 1 }
  let s := running st 4960000 0
  { s with epm := { s.epm with
      window := [1346], periodTimer := 1000000, state := .classifying, count := 48, previous := 1344, current := some (.flat, 45)
      matchers := ⟨⟨0, 0⟩, ⟨2, 0⟩, ⟨0, 0⟩⟩, settings := some (settingsOf (recipe [st]) st) } }

theorem witness_Samples :
    let s := { base with epm := { base.epm with window := List.replicate 16 7 } }
    s.cfg.held = false ∧ s.pins.supplyLow = false ∧ s.cfg.startUp ≠ .configFault ∧ base.epm.window.length < 16 ∧ s.epm.window.length = 16 ∧
    (after (.currentSample 9) s).epm.window = List.replicate 15 7 ++ [9] := by decide +kernel
/-- Table 8-3, period 49: matcher 1 completes and all reset. -/
theorem witness_Symbols :
    let e := settingsOf (recipe [{ polish with termination := .endpoint }]) { polish with termination := .endpoint }
    matching.started = true ∧ matching.epm.settings = some e ∧ matching.epm.state = .classifying ∧
    1000 * e.period ≤ matching.epm.periodTimer ∧ e.sigIndex = some 1 ∧ ((moveAll matching e).get 1).complete = true ∧
    matching.seq.endpoint = none ∧ (after .symbolPeriodExpiry matching).epm.matchers = ⟨⟨0, 0⟩, ⟨0, 0⟩, ⟨0, 0⟩⟩ ∧
    (after .symbolPeriodExpiry matching).seq.endpoint = some 49 ∧ (after .symbolPeriodExpiry matching).seq.overEnd = some 149 := by
  decide +kernel
theorem witness_Symbols_reference :
    let s := { matching with epm := { matching.epm with state := .reference, matchers := .all ⟨0, 0⟩ } }
    let e := settingsOf (recipe [{ polish with termination := .endpoint }]) { polish with termination := .endpoint }
    s.epm.state = .reference ∧ ((moveAll s e).s0.complete = false ∧ (moveAll s e).s1.complete = false) ∧
    (after .symbolPeriodExpiry s).epm.current = s.epm.current ∧ (after .symbolPeriodExpiry s).seq = s.seq := by decide +kernel

/-! ### Witnesses: the tool -/

/-- The station in a sequencer state with a line whose raw level and settings are given, its debounce timer run out. -/
def withLine (l : Line) (set : LineSettings) (level : Level) (armed high : Bool) (q : SeqState) : State :=
  let s := at_ q [polish]
  { s with
    cfg := { s.cfg with image := some { img with lines := img.lines.set l set } }
    ilk := { s.ilk with lines := s.ilk.lines.set l ⟨level, 5000, armed, false⟩ }
    pins := { s.pins with lines := s.pins.lines.set l high } }

theorem witness_InterlockLines_levels :
    let s := withLine .il2 ⟨true, .level, 5, .hold⟩ .active false false .done
    let u := withLine .il2 ⟨true, .edge, 5, .hold⟩ .unknown false true .done
    s.started = true ∧ 1000 * (s.img.lines.get .il2).debounce ≤ (s.line .il2).timer ∧
    s.pins.lines.get .il2 ≠ (s.img.lines.get .il2).activeHigh ∧ (s.line .il2).level ≠ .inactive ∧
    (after (.debounceExpiry .il2) s).line .il2 = ⟨.inactive, 0, true, false⟩ ∧
    (after (.debounceExpiry .il2) u).line .il2 = ⟨.active, 0, false, false⟩ ∧
    (after (.debounceExpiry .il1) (withLine .il1 ⟨true, .edge, 5, .hold⟩ .inactive false true .done)).line .il1
      = ⟨.active, 0, false, false⟩ ∧
    ((after (.lineLevelChange .il2 true) s).line .il2).timer = 0 := by decide +kernel
theorem witness_InterlockLines_events :
    let edge := fun r => withLine .il3 ⟨true, .edge, 5, r⟩ .inactive false true
    lastNotice (after (.debounceExpiry .il3) (edge .note .done)) = some [18, 0, 3, 0, 7] ∧
    (after (.debounceExpiry .il3) (edge .hold .waiting)).seq.causes.interlock = true ∧
    (after (.debounceExpiry .il3) (edge .hold .running)).seq.resume = some .running ∧
    (after (.debounceExpiry .il3) (edge .hold .ending)).seq.deferred.interlock = true ∧
    (after (.debounceExpiry .il3) (edge .hold .done)).seq.state = .done ∧
    (after (.debounceExpiry .il3) (edge .abort .running)).seq.first = some .interlock ∧
    (after (.debounceExpiry .il3) (withLine .il3 ⟨true, .level, 5, .abort⟩ .unknown true true .done)).seq.state = .faulted ∧
    (after (.debounceExpiry .il0) (withLine .il0 ⟨true, .edge, 5, .note⟩ .inactive false true .done)).lnk.stopSlot
      = some ⟨.stop, 0, [0], 0⟩ := by decide +kernel

/-- The station with the mode lines at a new combination for 20 ms. -/
def newMode (first second : Bool) (q : SeqState) : State :=
  let s := at_ q [polish]
  { s with ilk := { s.ilk with modeTimer := 20000 }, pins := { s.pins with modeFirst := first, modeSecond := second } }

theorem witness_ToolModeIsDecoded :
    let s := newMode false true .waiting
    let same := { newMode true false .done with ilk := { base.ilk with mode := .lockout, modeTimer := 20000 } }
    let run := { base with ilk := { base.ilk with mode := .service, decoded := some (false, true), modeTimer := 20000 } }
    s.cfg.held = false ∧ s.pins.supplyLow = false ∧ s.cfg.startUp ≠ .configFault ∧ 20000 ≤ s.ilk.modeTimer ∧
    s.ilk.decoded ≠ some (s.pins.modeFirst, s.pins.modeSecond) ∧ (after .modeDecoded s).seq.causes.mode = true ∧
    (after .modeDecoded (newMode false true .ending)).seq.deferred.mode = true ∧
    (after .modeDecoded (newMode false true .done)).ilk.mode = .service ∧ (after .modeDecoded same).ilk.modeIllegal = true ∧
    lastNotice (after .modeDecoded run) = some [19, 0, 0, 0] ∧ (after .modeDecoded (newMode false false .running)).seq.result = .lockedOut ∧
    (after .modeDecoded (newMode false false .done)).ilk.mode = .lockout ∧ (after (.modeLinesChange false true) s).ilk.modeTimer = 20000 := by
  decide +kernel

/-- The station with the platen drive replaced, its tach at a speed. -/
def withPlaten (x : DriveState) (tach estimate : Nat) : State := { base with
  drv := { base.drv with drive := { base.drv.drive with platen := x } }
  pins := { base.pins with tachSpeed := ⟨tach, 0⟩, estimate := ⟨estimate, 0⟩ } }

/-- A drive at its setpoint of 60 rpm. -/
def at60 : DriveState := { DriveState.reset with setpoint := 60, command := 60 }

theorem witness_DrivesReachTheirSpeed :
    let s := withPlaten { at60 with atSpeedTimer := 1000000 } 61 61
    let r := withPlaten { at60 with ramp := some (0, 1), atSpeed := true } 58 58
    s.started = true ∧ (s.drive .platen).atSpeed = false ∧ speedRuns s .platen = true ∧
    ((after (.atSpeed .platen) s).drive .platen).atSpeed = true ∧ (r.drive .platen).ramp.isSome = true ∧
    ((after (.driveCommandAtSetpoint .platen) r).drive .platen).atSpeed = false ∧
    ((after (.driveFeedback .platen 58 58) s).drive .platen).atSpeedTimer = 0 := by decide +kernel
theorem witness_TachFallbackAndTrips :
    let l := withPlaten { at60 with tachLoss := 500000 } 0 60
    let b := withPlaten { at60 with source := .estimate, agreement := 2000000 } 60 60
    let t := { base with pins := { base.pins with trip := ⟨true, false⟩ } }
    l.started = true ∧ (l.drive .platen).source = .tach ∧ ((after (.tachLost .platen) l).drive .platen).source = .estimate ∧
    (b.drive .platen).source = .estimate ∧ lastNotice (after (.tachRestored .platen) b) = some [21, 0, 0] ∧
    base.pins.trip.get .platen = false ∧ (after (.driveTrip .platen) base).seq.first = some .driveTrip ∧
    State.reset.started = false ∧ (after (.driveTrip .head) State.reset).seq.first = none ∧ t.pins.trip.get .platen = true ∧
    (after (.driveTripRelease .platen) t).pins.trip = ⟨false, false⟩ := by decide +kernel

/-! ### Witnesses: the wider clauses, resets and start-up -/

/-- The part with its supply low. -/
def low (s : State) : State := { s with pins := { s.pins with supplyLow := true } }

theorem witness_Resets_low :
    let h := { base with cfg := { base.cfg with held := true } }
    base.cfg.held = false ∧ (low base).pins.supplyLow = true ∧ (after .resetLineActive (low base)).cfg.held = true ∧
    (after .resetLineActive (low base)).cfg.image = some img ∧ after .resetLine (low base) = low base ∧
    (after .resetLine h).cfg.held = false ∧ (after .resetLineActive base).cfg.cause = .resetLine ∧ (low base).pending = [] ∧
    (match step (low base) with | .next t => t.now == base.now + 1 && t.cfg == base.cfg | _ => false) = true := by decide +kernel
/-- R181, R193: a frame heard while the line holds the part in reset leaves the receive buffer empty, and the release finds it so. -/
theorem witness_Resets_held :
    let b := frame2 3 .order [2]
    let h := after .resetLineActive (after (.frameReceived b) base)
    let t := after (.frameReceived b) (after .carrierBegins h)
    (after (.frameReceived b) base).lnk.received = b ∧ h.cfg.held = true ∧ AfterReset h ∧ t.lnk.carrier = none ∧ t.lnk.received = [] ∧
    (after .resetLine t).cfg.held = false ∧ AfterReset (after .resetLine t) := by
  unfold AfterReset; decide +kernel
theorem witness_Resets_restart :
    let all : OrderMeta := ⟨1, true, 0⟩
    let s := { base with rcp := { base.rcp with diskStored := 7, lock := true } }
    takesOrder all s = true ∧ s.ilk.mode ≠ .lockout ∧ s.seq.state.atRest = true ∧ all.toAll = true ∧
    (after (.restart all) s).pcc.diskLife = 7 ∧ (after (.restart all) s).rcp.lock = true ∧
    (after (.restart all) s).cfg.startUp = .settle ∧ (after (.restart all) s).pins.air = 6000 := by decide +kernel
theorem witness_FaultLine_released :
    let f := { base with seq := { base.seq with first := some .leak } }
    f.faultLine = true ∧ base.pins.supplyLow = false ∧ (low f).faultLine = false ∧ (doReset .powerOn false f).faultLine = false ∧
    (after .resetLine f).faultLine = false ∧ State.reset.started = false ∧ takeFault .leak State.reset = State.reset := by
  decide +kernel
theorem witness_SettleEnd_trip :
    let s := settling (some goodBytes) 0
    let t := { s with pins := { s.pins with trip := ⟨true, true⟩ } }
    t.pins.trip.platen = true ∧ t.seq.state = .empty ∧ (after .settleEnd t).seq.state = .faulted ∧
    (after .settleEnd t).seq.first = some .driveTrip ∧ (after .settleEnd t).seq.later.driveTrip = true ∧
    (after .settleEnd t).faultLine = true := by decide +kernel

/-- SETTLE about to end well, with a store operation that a reset cut. -/
def cutShort (o : StoreOp) : State :=
  let s := settling (some goodBytes) 0
  { s with rcp := { s.rcp with inProgress := some o } }

theorem witness_SettleEnd_cutShort :
    StoreSized (cutShort (.eraseStore 5)) ∧ (cutShort (.eraseStore 5)).rcp.inProgress = some (.eraseStore 5) ∧
    ((after .settleEnd (cutShort (.writeStep 16 24 []))).slot 16).state = .corrupt ∧
    ((after .settleEnd (cutShort (.writeStep 16 24 []))).slot 15).state = .erased ∧
    ((after .settleEnd (cutShort (.writeProfile 3 []))).profile 3).state = .corrupt ∧
    ((after .settleEnd (cutShort (.eraseStore 5))).profile 3).state = .unwritten ∧
    ((after .settleEnd (cutShort (.eraseStore 5))).slot 1).state = .erased ∧
    ((after .settleEnd (cutShort (.eraseStore 5))).slot 2).state = .corrupt ∧
    (after .settleEnd (cutShort (.eraseStore 5))).rcp.inProgress = none := by
  unfold StoreSized; decide +kernel

/-! ### Witnesses: the wider clauses, peers and the link -/

theorem witness_RefreshTick_ready :
    let s := with2 (entry2 .present 7)
    let s := { s with
      peer := { s.peer with lowFeeds := ⟨false, true, false, false⟩, quiet := 8 }
      shr := (s.shr.set .b { FeedShare.reset with markFree := 9 }).set .c { FeedShare.reset with markSeen := true, markFree := 4 } }
    let l := { s with cfg := { s.cfg with startUp := .listen, listenTicks := 1 } }
    s.cfg.startUp = .ready ∧ (after .refreshTick s).peer.quiet = 8 ∧ ((after .refreshTick s).shr.get .b).markFree = 0 ∧
    ((after .refreshTick s).shr.get .b).k = 1 ∧ ((after .refreshTick s).shr.get .c).markFree = 0 ∧
    ((after .refreshTick s).shr.get .c).markSeen = false ∧
    (after .refreshTick s).lnk.demandSlot = some ⟨.demand, 0, (after .refreshTick s).peer.own.payload, 0⟩ ∧
    l.started = true ∧ l.cfg.startUp ≠ .ready ∧ (after .refreshTick l).cfg.listenTicks = 2 ∧
    (after .refreshTick l).lnk.demandSlot = none := by decide +kernel
theorem witness_Isolation_waits :
    let s := with2 (entry2 .stale 8)
    let s := { s with peer := { s.peer with quiet := 8 } }
    s.started = true ∧ 8 ≤ s.peer.quiet ∧ s.peer.isolated = false ∧ (∃ e ∈ s.peer.table, 8 ≤ e.age) ∧
    (after .isolationBegun s).peer.isolated = false ∧
    (after .isolationBegun (after (.entryRemoved 2) s)).peer.isolated = true := by decide +kernel
theorem witness_Derate_waits :
    let s := withA { FeedShare.reset with k := 1, markFree := 16 }
    let m := { s with pending := [.demandReceived 2 []] }
    markWaits s = false ∧ 16 ≤ (m.shr.get .a).markFree ∧ markWaits m = true ∧ ((after (.derateDecrement .a) m).shr.get .a).k = 1 := by
  decide +kernel
theorem witness_Frame_stop_order :
    let iso := { base with peer := { base.peer with isolated := true, quiet := 8 } }
    let st := frameBytes 2 15 (numKindOf .stop) 0 [0]
    let o := frameBytes 1 7 (numKindOf .order) 9 [19, 2]
    takesFrame iso = true ∧ kindOf (rd st 1) = some .stop ∧ targetNode st = 15 ∧ sourceOf st ≠ 15 ∧
    (after (.frameReceived st) (at_ .running [polish])).seq.causes.stop = true ∧ kindOf (rd o 1) = some .order ∧
    targetNode o = base.img.node ∧ lastAnswer (after (.frameReceived o) iso) = some [4] ∧
    (after (.frameReceived o) iso).peer.isolated = false ∧ (after (.frameReceived o) iso).peer.quiet = 0 ∧
    (after (.frameReceived (frame2 3 .order [2])) iso).peer.isolated = false := by decide +kernel
theorem witness_Frame_malformed :
    let b := frame2 7 .demand [9]
    takesFrame base = true ∧ lengthGood b = true ∧ sumGood b = true ∧ kindOf (rd b 1) = some .demand ∧ targetNode b = 7 ∧
    demandOk (sourceOf b) (payloadOf b) = false ∧ (after (.frameReceived b) base).lnk.malformedSeen = true := by decide +kernel
theorem witness_Frame_duplicate_restart :
    let b := frameBytes 7 15 4 0 []
    let s := { base with cfg := { base.cfg with restartPending := true } }
    takesFrame s = true ∧ sourceOf b = s.img.node ∧ (after (.frameReceived b) s).cfg.cause = .restartOrder ∧
    (after (.frameReceived b) (faulted .leak)).seq.state = .faulted ∧
    (after (.frameReceived b) base).seq.first = some .duplicateNode := by decide +kernel
theorem witness_Sending_bits :
    let f : Frame := ⟨.stop, 0, [0], 0⟩
    (f.wire img)[0]? = some 0x7F#8 ∧ (f.bits img)[0]? = some false ∧ (f.bits img)[1]? = some true ∧ (f.bits img)[8]? = some false ∧
    (f.bits img)[9]? = some true ∧ (f.bits img).length = 60 := by decide +kernel
theorem witness_Echo_dominant :
    let r := fun k => { sendingOf k 15 9 with lnk := { (sendingOf k 15 9).lnk with sending := some ⟨frameOf k 15, 9, 3, true⟩ } }
    let p := { sendingOf .answer 15 9 with cfg := { base.cfg with restartPending := true } }
    ((frameOf .notice 0).bits img)[0]? ≠ some true ∧ after .echoMismatch (sendingOf .notice 0 0) = sendingOf .notice 0 0 ∧
    (after .echoMismatch (r .demand)).lnk.demandSlot = some (frameOf .demand 15) ∧
    (after .echoMismatch (r .stop)).lnk.stopSlot = some (frameOf .stop 15) ∧ p.lnk.answers = frameOf .answer 15 :: [] ∧
    (after .echoMismatch p).cfg.cause = .restartOrder ∧
    (after .frameSent { p with lnk := { p.lnk with sending := some ⟨frameOf .answer 0, 70, 0, false⟩ } }).cfg.cause
      = .restartOrder := by decide +kernel

/-! ### Witnesses: the wider clauses, orders -/

theorem witness_Malformed_lengths :
    let bad := fun (p : List Byte) => lastAnswer (after (.unknownOrder from1 p) heldService)
    bad [4, 0] = some [4, 8] ∧ bad [8, 1, 0] = some [4] ∧ bad [9, 1] = some [4] ∧ bad [15, 1, 1] = some [4] ∧
    bad [16, 0, 1] = some [4] ∧ bad [20, 1] = some [4] ∧ bad [21, 0] = some [4] ∧ bad [] = some [12] ∧
    bad [4] = some [0, 8] ∧ bad [19, 9] = some [4] := by decide +kernel
theorem witness_Load_refused :
    let busy := storing (.eraseStore 0) 0
    let load := fun n s => lastAnswer (after (.load from1 n) s)
    (at_ .running [polish]).seq.state ∉ [SeqState.empty, .loaded, .done] ∧ load 1 (at_ .running [polish]) = some [2] ∧
    (17 : Byte).toNat = 17 ∧ load 0 base = some [4] ∧ load 17 base = some [4] ∧ busy.rcp.op.isSome = true ∧ load 1 busy = some [3] ∧
    (base.slot 1).state = .erased ∧ load 1 base = some [6] ∧
    ((with16 { closedSlot with state := .corrupt }).slot 16).state = .corrupt ∧
    load 16 (with16 { closedSlot with state := .corrupt }) = some [8] := by decide +kernel
theorem witness_Start_trip :
    let s := loaded polish
    let t := { s with pins := { s.pins with trip := ⟨true, true⟩ } }
    let f := withMain { Dispense.reset with
      valves := { Dispense.reset.valves with a := ⟨.faultClosed, 0, 0⟩ }, lineFeed := .none } s
    takesOrder from1 t = true ∧ t.ilk.mode = .run ∧ t.pins.trip = ⟨true, true⟩ ∧ (after (.start from1) t).seq.state = .aborting ∧
    (after (.start from1) t).seq.first = some .driveTrip ∧ (after (.start from1) t).seq.later.driveTrip = true ∧
    switchFault .main (targetOf .main polish) f = true ∧ (after (.start from1) f).seq.first = some .valve ∧
    (after (.start from1) f).seq.record.map RunEntry.result = [.cut] ∧
    (after (.start from1) f).lnk.demandSlot = some ⟨.demand, 0, [0, 0], 0⟩ := by decide +kernel
theorem witness_Start_empty :
    let s := { base with seq := { base.seq with state := .done } }
    s.seq.copy = none ∧ lastAnswer (after (.start from1) s) = some [2] := by decide +kernel
theorem witness_Resume_condLost :
    let st := { polish with inSitu := true }
    let w := condLost (held .conditioner .waiting [st])
    let k := condLost (held .conditioner .waiting [{ st with kind := .condition }])
    w.seq.state = .holding ∧ w.pcc.condLost = true ∧ w.seq.causes.conditioner = true ∧ w.seq.causes.share = false ∧
    w.seq.causes.supply = false ∧ w.seq.resume = some .waiting ∧ w.stepKind ≠ some .condition ∧
    (after (.resume from1) w).seq.disposition = .conditioningOff ∧ (after (.resume from1) w).seq.state = .waiting ∧
    k.stepKind = some .condition ∧ postRinseFault k = false ∧ (after (.resume from1) k).seq.state = .ending ∧
    (after (.resume from1) k).seq.record.map RunEntry.result = [.skipped] := by decide +kernel
theorem witness_Resume_profile_share :
    let s := held .ordered .running [{ polish with inSitu := true, kind := .rinse, mainFeed := none }]
    let s := { s with pcc := { s.pcc with resume := some ⟨100000000, 1, .outward⟩ } }
    let c := { s with sdu := { s.sdu with share := true } }
    s.seq.resume = some .running ∧ s.seq.disposition ≠ .concluded ∧ s.sdu.share = false ∧ s.pcc.resume.isSome = true ∧
    s.pcc.withdrawn = false ∧ (stepProfile s).state ≠ .written ∧ (after (.resume from1) s).pcc.arm = .lost ∧
    (after (.resume from1) s).seq.flags.condLost = true ∧ c.sdu.share = true ∧
    (lastAnswer (after (.resume from1) c)).isSome = true := by decide +kernel
theorem witness_ClearEvents_running :
    let s := condLost (running polish 0 0)
    s.seq.state = .running ∧ takesOrder from1 s = true ∧ (after (.clearEvents from1 0x2000) s).pcc.condLost = false ∧
    (lastAnswer (after (.clearEvents from1 0x2000) s)) = some [0, 0, 0] := by decide +kernel

/-! ### Witnesses: the wider clauses, the recipe store -/

theorem witness_StoreOrders_lengths :
    let busy := storing (.eraseStore 0) 0
    let ans := fun c s => lastAnswer (after c s)
    ([] : List Byte).length ≠ 16 ∧ ans (.writeHeader from1 1 0 []) busy = some [4] ∧ ans (.writeStep from1 1 1 []) busy = some [4] ∧
    ans (.writeProfile from1 1 1 []) busy = some [4] ∧ ans (.writeHeader from1 1 0 part0) busy = some [3] ∧
    ans (.writeStep from1 1 1 stepBytes) busy = some [3] ∧ ans (.writeProfile from1 1 1 [124, 1, 200]) busy = some [3] ∧
    ans (.writeHeader from1 1 4 sigBytes) base = some [4] ∧ ans (.writeStep from1 1 25 stepBytes) base = some [4] ∧
    ans (.writeProfile from1 4 1 [124, 1, 200]) base = some [4] := by decide +kernel
theorem witness_StoreOrders_written :
    let marked := with16 { openSlot with markSteps := Slot.erased.markSteps.set 23 true, markSigs := ⟨false, false, true⟩ }
    let corrupt := with16 { openSlot with state := .corrupt }
    let w := { base with rcp := { base.rcp with profiles := base.rcp.profiles.set 3 ⟨.written, []⟩ } }
    let c := { base with rcp := { base.rcp with profiles := base.rcp.profiles.set 3 ⟨.corrupt, []⟩ } }
    let locked := { base with rcp := { base.rcp with lock := true } }
    let ans := fun c s => lastAnswer (after c s)
    (marked.slot 16).markStep 24 = true ∧ ans (.writeStep from1 16 24 stepBytes) marked = some [5] ∧
    ans (.writeHeader from1 16 0 part0) marked = some [5] ∧ ans (.writeHeader from1 16 3 sigBytes) marked = some [5] ∧
    ans (.writeHeader from1 16 0 part0) corrupt = some [8] ∧ ans (.writeStep from1 16 24 stepBytes) corrupt = some [8] ∧
    ans (.writeStep from1 16 24 stepBytes) (with16 closedSlot) = some [5] ∧
    part0Ok (List.replicate 16 0) = false ∧ ans (.writeHeader from1 16 0 (List.replicate 16 0)) base = some [4] ∧
    stepOk (List.replicate 32 0) = false ∧ ans (.writeStep from1 16 24 (List.replicate 32 0)) base = some [4] ∧
    ans (.writeProfile from1 3 1 [124, 1, 200]) w = some [5] ∧ ans (.writeProfile from1 3 1 [124, 1, 200]) c = some [8] ∧
    segmentsOk (readSegments [0, 0, 0] 1) = false ∧ ans (.writeProfile from1 3 1 [0, 0, 0]) base = some [4] ∧
    ans (.writeProfile from1 3 1 [124, 1, 200]) locked = some [9] ∧ ans (.writeHeader from1 1 0 part0) locked = some [9] ∧
    ans (.closeRecipe from1 1) base = some [6] := by decide +kernel
theorem witness_Store_erased :
    let e := { with16 openSlot with rcp := { (with16 openSlot).rcp with op := some (.eraseRecipe 16, 0) }, now := 30000 }
    e.rcp.op = some (.eraseRecipe 16, 0) ∧ ((after .storeOpComplete e).slot 16).markStep 1 = false ∧
    ((after .storeOpComplete e).slot 16).stepCount = 0 ∧ lastNotice (after .storeOpComplete e) = some [10, 0, 11, 16] := by
  decide +kernel

/-! ### Witnesses: the wider clauses, the dispense unit -/

theorem witness_PumpStops :
    let p := fun q => withMain { runningA with clampTimer := 500000 } (at_ q [polish])
    0 < ((p .running).chan .main).rate ∧ ((after (.pumpBlocked .main) (p .running)).chan .main).rate = 0 ∧
    ((after (.pumpBlocked .main) (p .aborting)).chan .main).clampTimer = 0 ∧ ((p .faulted).chan .main).switch = .idle ∧
    ((after (.pumpBlocked .main) (p .faulted)).chan .main).rate = 0 := by decide +kernel
theorem witness_Switch_di :
    let s := withMain { Dispense.reset with switch := .nonOverlap 0, target := .di, lineFeed := .feed .b } (at_ .waiting [rinse])
    s.started = true ∧ (s.chan .main).target = .di ∧ s.sdu.di.state = .closed ∧ (after (.nonOverlapEnd .main) s).sdu.di.state = .opened ∧
    ((after (.nonOverlapEnd .main) s).chan .main).lineFeed = .feed .b := by decide +kernel
theorem witness_Volumes_flush :
    let f := withMain { runningA with switch := .flush 40, valves := Dispense.reset.valves } (at_ .waiting [polish])
    let f := { f with sdu := { f.sdu with di := ⟨.opened, 500000, 0⟩, diVolume := 40 } }
    let r := withMain { runningA with switch := .postRinse 10, valves := Dispense.reset.valves, source := .fallback }
      (at_ .ending [{ polish with postRinse := 100 }])
    f.seq.state ≠ .running ∧ ((after (.flowmeterPulse .main) f).chan .main).switch = .flush 140 ∧
    (after (.flowmeterPulse .main) f).sdu.diVolume = 140 ∧
    ((after (.strokePulse .main) r).chan .main).switch = .postRinse 510 := by decide +kernel
theorem witness_Dose_ends :
    let st := { polish with termination := .dose, minTime := 0 }
    let p := withMain runningA (running st 1000000 4900)
    let w := withMain { runningA with windowOpen := true, strokes := 199, pulses := 100, disagreeing := 2 }
      (running st 1000000 5000)
    p.started = true ∧ p.seq.state = .running ∧ p.stepNow = some st ∧ st.termination = .dose ∧ (p.chan .main).rate ≠ 0 ∧
    st.doseTarget ≤ min 65535 ((p.sdu.dose + p.img.pulseVolume.main) / 100) ∧ st.postRinse = 0 ∧
    (after (.flowmeterPulse .main) p).seq.record.map RunEntry.result = [.doneDose] ∧
    (after (.strokePulse .main) (withMain { runningA with source := .fallback } p)).seq.record.map RunEntry.dose = [54] ∧
    (after (.strokePulse .main) w).seq.record.map (fun e => e.flags.flowFallback) = [true] := by decide +kernel
theorem witness_CrossCheck_stroke :
    let d := { runningA with windowOpen := true, strokes := 199, pulses := 970 }
    let t := fun d => (after (.strokePulse .main) (withMain d base)).chan .main
    (t d).calibrated = 485 ∧ (t d).strokes = 0 ∧ (t { d with pulses := 100 }).disagreeing = 1 ∧
    (t { d with pulses := 100, disagreeing := 2 }).source = .fallback ∧
    (t { d with source := .fallback, agreeing := 2 }).source = .flowmeter ∧ 0 < d.calibrated ∧
    d.strokeRate * (d.calibrated : Rat) = 1000 * (d.rate : Rat) := by decide +kernel

/-! ### Witnesses: the wider clauses, the sequencer -/

theorem witness_StepStarts_profile :
    let st := { rinse with inSitu := true }
    let s := { ready st with rcp := base.rcp }
    s.seq.disposition = .normal ∧ s.pcc.withdrawn = false ∧ (s.profile 0).state ≠ .written ∧
    (after .stepStart s).seq.state = .running ∧ (after .stepStart s).pcc.arm = .lost ∧
    (after .stepStart s).seq.flags.condLost = true ∧
    (after .stepStart s).lnk.notices.map (fun f => f.payload.head?) = [some 3, some 16] := by decide +kernel
theorem witness_DoseStep_waits :
    let st := { polish with termination := .dose }
    let s := running st 10000000 4999
    let w := { s with pending := [.flowmeterPulse .main] }
    st.termination = .dose ∧ min 65535 (s.sdu.dose / 100) < st.doseTarget ∧ w.pending.any mainPulse = true ∧
    after .stepLimitReached w = w ∧ s.pending.any mainPulse = false := by decide +kernel
theorem witness_Ending_condLost :
    let st := { rinse with inSitu := true }
    let s := condLost (endingAt [polish, st] CauseSet.empty)
    s.pcc.condLost = true ∧ st.inSitu = true ∧ switchFault .main (targetOf .main st) s = false ∧
    (after .endingComplete s).seq.state = .holding ∧ (after .endingComplete s).seq.causes.conditioner = true := by decide +kernel
theorem witness_Ending_switchFault :
    let s := endingAt [rinse, polish] CauseSet.empty
    let s := withMain { Dispense.reset with valves := { Dispense.reset.valves with a := ⟨.faultClosed, 0, 0⟩ }, lineFeed := .none } s
    (recipe [rinse, polish]).steps[s.seq.index]? = some polish ∧ switchFault .main (targetOf .main polish) s = true ∧
    s.seq.record = [] ∧ s.cfg.startUp = .ready ∧ s.ilk.mode ≠ .lockout ∧ (after .endingComplete s).seq.state = .aborting ∧
    (after .endingComplete s).seq.first = some .valve ∧ (after .endingComplete s).seq.record.map RunEntry.index = [2] ∧
    (after .endingComplete s).lnk.demandSlot = some ⟨.demand, 0, [0, 0], 0⟩ := by decide +kernel

/-! ### Witnesses: the wider clauses, the head, the arm, the monitor and the tool -/

theorem witness_HeadWithin :
    HeadWithin base ∧ StoreSized base ∧ HeadWithin (withHead rampingChan (some ⟨.all 300, 5, 0, 20000⟩)) := by
  refine ⟨⟨?_, ?_, ?_, ?_, ?_⟩, ?_, ⟨?_, ?_, ?_, ?_, ?_⟩⟩
  all_goals first
    | (unfold ZonesWithin; decide +kernel)
    | (unfold StoreSized; decide +kernel)
    | (intro c; cases c <;> decide +kernel)
    | (intro h; revert h; decide +kernel)
    | (intro r h
       cases h <;> (unfold RampWithin ZonesWithin
                    refine ⟨?_, ?_, ?_, ?_⟩ <;> first | decide +kernel | (intro c; cases c <;> decide +kernel)))
theorem witness_AirTrip_vented :
    let s := regulating 300 false
    let t := { s with hpc := { s.hpc with tripTimer := 50000 } }
    (∃ c ∈ [HeadCh.z1], (t.head c).state = .ramping ∨ (t.head c).state = .regulating) ∧ (after .supplyAir t).hpc.tripTimer = 0 ∧
    (∀ c ∈ [HeadCh.z1, .rr], ((after .supplyAir t).head c).target = 0) := by decide +kernel
theorem witness_Arm_40mm :
    let p : Pcc := { base.pcc with segments := [⟨40, 50⟩], segment := 1, radius := 40000000, destination := 40000000, direction := .inward }
    let a := withArm { p with arm := .movingIn } (at_ .running [polish])
    let s := withArm { p with arm := .sweeping } base
    lastOuter p.segments = 40000000 ∧ (after .armArrival a).pcc.direction = .outward ∧
    after .segmentBoundary s = s := by decide +kernel
theorem witness_Remainders :
    let t := fun s => match step s with | .next t => t | _ => s
    let idle := fun (s : State) => { s with epm := { s.epm with sampleTimer := 0 }, pcc := { s.pcc with homeFound := true } }
    let s := idle (withArm { sweepingArm with segment := 2 } base)
    let r := idle (withMain runningA (running polish 1000 0))
    let r := { r with seq := { r.seq with minReached := true, sinceStart := true }, hpc := { r.hpc with stepTargets := .all 100 }, sdu := { r.sdu with share := true } }
    let b := { r with seq := { r.seq with sinceStart := false } }
    s.started = true ∧ s.pending = [] ∧ dueList s = [] ∧ (t s).pcc.diskRemainder = 25 ∧ dueList r = [] ∧
    r.stepKind = some .polish ∧ (t r).pcc.padRemainder = 1 ∧ (t b).pcc.padRemainder = 0 := by decide +kernel
theorem witness_Matcher :
    let two : List Elem := [⟨.fall, 2, 6⟩, ⟨.flat, 0, 3⟩]
    let one : List Elem := [⟨.rise, 0, 0⟩]
    moveMatcher [] 2 true none 0 ⟨1, 1⟩ = ⟨⟨1, 1⟩, false⟩ ∧ moveMatcher two 2 true none 9 ⟨0, 2⟩ = ⟨⟨0, 1⟩, false⟩ ∧
    moveMatcher two 2 false (some ⟨.fall, 1⟩) 0 ⟨0, 0⟩ = ⟨⟨0, 0⟩, false⟩ ∧
    moveMatcher one 2 true (some ⟨.rise, 1⟩) 0 ⟨0, 0⟩ = ⟨⟨1, 0⟩, true⟩ ∧
    moveMatcher two 2 true (some ⟨.flat, 1⟩) 0 ⟨0, 0⟩ = ⟨⟨0, 0⟩, false⟩ ∧
    moveMatcher two 2 true (some ⟨.flat, 2⟩) 0 ⟨1, 0⟩ = ⟨⟨2, 0⟩, true⟩ ∧
    moveMatcher two 2 true (some ⟨.flat, 7⟩) 0 ⟨1, 0⟩ = ⟨⟨0, 2⟩, false⟩ ∧
    moveMatcher two 2 true (some ⟨.rise, 2⟩) 0 ⟨1, 0⟩ = ⟨⟨0, 2⟩, false⟩ ∧
    moveMatcher two 2 true none 7 ⟨1, 0⟩ = ⟨⟨0, 2⟩, false⟩ ∧ moveMatcher two 2 true none 6 ⟨1, 0⟩ = ⟨⟨1, 0⟩, false⟩ := by
  decide +kernel
theorem witness_Debounce_zero :
    let s := withLine .il2 ⟨true, .edge, 0, .hold⟩ .inactive false false .waiting
    let o := withLine .il2 ⟨true, .edge, 0, .hold⟩ .inactive false true .waiting
    s.started = true ∧ (s.img.lines.get .il2).debounce = 0 ∧ (s.line .il2).level = .inactive ∧
    (after (.lineLevelChange .il2 true) s).seq.state = .holding ∧
    ((after (.lineLevelChange .il2 true) s).line .il2).level = .active ∧
    (after (.lineLevelChange .il2 false) s).seq.state = .waiting ∧ (o.line .il2).level ≠ .active ∧
    ((after (.lineLevelChange .il2 false) o).line .il2).level = .inactive ∧
    (after (.lineLevelChange .il2 false) o).seq.state = .holding := by decide +kernel
theorem witness_DriveRamp :
    let t := fun s => match step s with | .next t => t | _ => s
    let idle := fun (s : State) => { s with epm := { s.epm with sampleTimer := 0 }, pcc := { s.pcc with homeFound := true } }
    let u := idle (withPlaten { at60 with command := 4, ramp := some (0, 999999), setpoint := 60 } 4 4)
    let d := idle (withPlaten { at60 with command := 57, ramp := some (60, 799999), setpoint := 0 } 57 57)
    (at60.take 60) = at60 ∧ (at60.take 0).ramp = some (60, 0) ∧ u.pending = [] ∧ dueList u = [] ∧ u.pins.trip.get .platen = false ∧
    ((t u).drive .platen).command = 5 ∧ dueList d = [] ∧ ((t d).drive .platen).command = 56 ∧
    ((t { u with pins := { u.pins with trip := ⟨true, false⟩ } }).drive .platen).command = 0 := by decide +kernel
theorem witness_Tach_slow :
    let s := withPlaten { at60 with command := 4, tachLoss := 500000 } 0 60
    (s.drive .platen).command < 5 ∧ after (.tachLost .platen) s = s ∧
    ((after (.driveTrip .platen) (withPlaten { at60 with tachLoss := 500000 } 0 60)).drive .platen).tachLoss = 0 := by decide +kernel

/-! ### Witnesses: the carrying through, RESUME and the readings, clause by clause -/

/-- The station RUNNING a step on feeds A and B, both open, with effective grants of 250 and 20. -/
def blending : State :=
  let s := at_ .running [{ polish with addFeed := some .b }]
  { s with
    shr := (s.shr.set .a { s.shr.a with effective := 250 }).set .b { s.shr.b with effective := 20 }
    sdu := { s.sdu with ch := ⟨openA, { Dispense.reset with
      valves := { Dispense.reset.valves with b := ⟨.opened, 500000, 0⟩ }, lineFeed := .feed .b, target := .feed .b }⟩ } }

/-- R48: u = min(300, 250, 20 × 100 / 10) = 200, the blend rate 200 × 10 / 100 = 20. -/
theorem witness_Settle_rates :
    blending.started = true ∧ (settle blending).seq.state = .running ∧ (settle blending).stepKind = some .polish ∧
    (settle blending).peer.own.main = some ⟨.a, 300, 100, 4, false⟩ ∧ (settle blending).peer.own.additive = some ⟨.b, 30, 10, 4, false⟩ ∧
    ((settle blending).chan .main).switch = .idle ∧ ((settle blending).chan .main).rate = 200 ∧
    ((settle blending).chan .additive).rate = 20 := by decide +kernel
/-- R9 lowers a held request to its floor; Table 3-3 gives the other rates. -/
theorem witness_Settle_records :
    let di := fun (s : State) => { s with sdu := { s.sdu with di := ⟨.opened, 0, 0⟩ } }
    buildRecord (held .ordered .running [polish]) = ⟨.holding, some ⟨.a, 100, 100, 4, false⟩, none⟩ ∧
    buildRecord (held .share .running [polish]) = ⟨.holding, some ⟨.a, 300, 100, 4, false⟩, none⟩ ∧
    buildRecord (at_ .running [rinse]) = ⟨.idle, none, none⟩ ∧ buildRecord (at_ .ending [polish]) = ⟨.idle, none, none⟩ ∧
    mainRate (di (withMain { openA with switch := .flush 0 } base)) = 200 ∧ mainRate (withMain { openA with switch := .flush 0 } base) = 0 ∧
    mainRate (di (at_ .running [rinse])) = 300 ∧ mainRate (at_ .running [{ polish with kind := .condition }]) = 0 ∧
    mainRate (at_ .waiting [polish]) = 0 ∧ additiveRate (at_ .running [polish]) = 0 := by decide +kernel
theorem witness_Settle_holding :
    let s := withMain { openA with supplyLow := true } (held .supply .running [polish])
    (held .ordered .running [polish]).seq.causes.notForSlurry = true ∧ (settle (held .ordered .running [polish])).seq.causes.ordered = true ∧
    s.seq.causes.supply = true ∧ (s.chan .main).supplyLow = true ∧ (settle s).seq.state = .holding ∧ (settle s).seq.causes.supply = true := by
  decide +kernel
theorem witness_Grants_of_a_run :
    let own := fun (s : State) => { s with peer := { s.peer with own := ⟨.waiting, some ⟨.a, 350, 100, 4, false⟩, none⟩ } }
    let alone := { own base with peer := { (own base).peer with isolated := true } }
    (own (with2 (entry2 .stale 3))).peer.own.items = [⟨.a, 350, 100, 4, false⟩] ∧
    participants 7 (own (with2 (entry2 .stale 3))).peer .a = [⟨true, 7, 2, 350, 100, 4⟩, ⟨false, 2, 2, 400, 150, 2⟩] ∧
    computedGrant (own (with2 (entry2 .stale 3))) .a = 350 ∧ computedGrant alone .a = 100 ∧ computedGrant base .a = 0 := by decide +kernel
theorem witness_Resume_kept :
    let line := fun (s : State) => { s with ilk := { s.ilk with lines := s.ilk.lines.set .il2 ⟨.active, 0, false, true⟩ } }
    let i := line (held .interlock .running [polish])
    let w := withMain { openA with supplyLow := true } (held .supply .running [polish])
    i.seq.causes.interlock = true ∧ holdLineActive i = true ∧ lastAnswer (after (.resume from1) i) = some [0, 2] ∧
    (after (.resume from1) i).seq.state = .holding ∧ lastAnswer (after (.resume from1) w) = some [0, 32] ∧
    (after (.resume from1) w).seq.state = .holding ∧ (carry (held .share .running [polish])).sdu.share = true ∧
    lastAnswer (after (.resume from1) (held .share .running [polish])) = some [0, 16] := by decide +kernel
theorem witness_Resume_dispositions :
    let skip := held .ordered .waiting [polish]
    let skip := { skip with seq := { skip.seq with disposition := .skip } }
    let off := { skip with seq := { skip.seq with disposition := .conditioningOff } }
    let kept := condLost heldService
    let kept := { kept with seq := { kept.seq with causes := kept.seq.causes.add .conditioner } }
    postRinseFault skip = false ∧ (after (.resume from1) skip).seq.state = .ending ∧
    (after (.resume from1) skip).seq.record.map RunEntry.result = [.skipped] ∧ (after (.resume from1) off).seq.state = .waiting ∧
    kept.seq.causes.conditioner = true ∧ kept.pcc.condLost = true ∧ (after (.resume from1) kept).seq.disposition = .conditioningOff ∧
    lastAnswer (after (.resume from1) kept) = some [0, 8] := by decide +kernel
theorem witness_Readings_parts :
    let s := with16 { closedSlot with part0 := part0, sum := 300, stepCount := 24 }
    let ans := fun c => lastAnswer (after c s)
    takesOrder from1 s = true ∧ s.rcp.op = none ∧ (s.slot 16).markPart0 = true ∧ (s.slot 16).markSigs.get 2 = false ∧
    ans (.readRecipe from1 16 0 0) = some ([0, 2, 1] ++ List.replicate 12 32 ++ [24, 1, 0, 0, 0] ++ [44, 1]) ∧
    ans (.readRecipe from1 16 0 3) = some [6, 2] ∧ ans (.readRecipe from1 16 0 4) = some [4] ∧ ans (.readRecipe from1 16 1 25) = some [4] ∧
    ans (.readRecipe from1 16 1 0) = some [4] ∧ ans (.readRecipe from1 16 2 1) = some [4] ∧ ans (.readRecipe from1 17 1 1) = some [4] ∧
    ans (.readRecipe from1 0 1 1) = some [4] := by decide +kernel
theorem witness_Readings_sums :
    let ans := fun c s => lastAnswer (after c s)
    ans (.sumRecipe from1 0) base = some [4] ∧ ans (.sumRecipe from1 17) base = some [4] ∧ ans (.sumRecipe from1 16) base = some [6] ∧
    ans (.sumRecipe from1 16) (with16 { closedSlot with state := .opened }) = some [6] ∧
    ans (.sumRecipe from1 16) (with16 { closedSlot with state := .corrupt }) = some [8] ∧
    ans (.sumRecipe from1 16) (storing (.eraseStore 0) 0) = some [3] ∧
    ans (.readRecipe from1 16 2 1) (storing (.eraseStore 0) 0) = some [3] := by decide +kernel
theorem witness_ClearEvents_holding :
    let s := condLost (held .ordered .running [polish])
    s.pcc.resume = none ∧ s.pcc.arm = .lost ∧ (after (.clearEvents from1 0x2000) s).pcc.arm = .parked ∧
    (after (.clearEvents from1 0x2000) s).pcc.condLost = false ∧ (after (.clearEvents from1 0x2000) s).pcc.search = some 0 ∧
    (after (.clearEvents from1 0x2000) s).seq.state = .holding := by decide +kernel
theorem witness_Starvation_running :
    let s := withMain { openA with lowTimer := 500000 } (at_ .running [polish])
    let h := withMain { openA with lowTimer := 500000 } (held .ordered .running [polish])
    let t := after (.supplyLowRaise .main) s
    s.seq.state = .running ∧ (s.chan .main).openFeed = some .a ∧ (t.chan .main).supplyLow = true ∧ t.peer.lowFeeds.a = true ∧
    ((after (.supplyLowRaise .main) blending).chan .main).supplyLow = false ∧ h.seq.causes.notForSlurry = true ∧
    ((after (.supplyLowRaise .main) h).chan .main).supplyLow = true := by decide +kernel
theorem witness_Match_notice :
    (moveAll matching (settingsOf (recipe [polish]) polish)).s0.complete = false ∧
    lastNotice (after .symbolPeriodExpiry matching) = some [17, 0, 1, 1, 49, 0, 1] ∧
    (after .symbolPeriodExpiry matching).lnk.notices.length = 1 := by decide +kernel
theorem witness_Hold_in_holding :
    let q := (held .ordered .running [polish]).seq
    let l := { withLine .il3 ⟨true, .edge, 5, .hold⟩ .inactive false true .holding with seq := q }
    let m := { newMode false true .holding with seq := q }
    l.seq.state = .holding ∧ (after (.debounceExpiry .il3) l).seq.causes.bits = [true, true, false, false, false, false, false, false] ∧
    (after (.debounceExpiry .il3) l).lnk.notices.map Frame.payload = [[18, 0, 3, 1, 4]] ∧
    (after .modeDecoded m).seq.causes.bits = [true, false, false, true, false, false, false, false] ∧
    (after .modeDecoded m).lnk.notices.map Frame.payload = [[19, 0, 1, 0]] := by decide +kernel

/-! ### Witnesses: the invariants -/

theorem witness_Invariants_step :
    let s := { at_ .running [polish] with pending := [.stopReceived] }
    QueuesFit base ∧ s.pending = .stopReceived :: [] ∧ (after .stopReceived s).seq.state = .holding ∧
    (after .stopReceived s).seq.causes.isEmpty = false := by
  refine ⟨⟨?_, ?_, ?_⟩, ?_, ?_, ?_⟩ <;> decide +kernel
theorem witness_FaultedAndRest :
    (faulted .leak).seq.state = .faulted ∧ (after (.clearFault from1) (faulted .leak)).seq.state ≠ .faulted ∧
    (loaded polish).seq.state.inRun = false ∧ (after (.start from1) (loaded polish)).seq.state.inRun = true := by decide +kernel

/-! ### Witnesses: cut steps, runs of SHR, the division, the image, the status record, the return to RUNNING -/

/-- The bodies of the notices queued, each without its header. -/
def bodies (s : State) : List (List Byte) := s.lnk.notices.map (fun f => f.payload.eraseIdx 1)

/-- The STEP_ENDED of a CUT entry: step 1 after 1.0 s. -/
def cutBody : List Byte := [4, 1, 6, 10, 0, 0, 0, 0, 0, 255, 255, 0]

theorem witness_CutSteps :
    let s := running polish 1000000 0
    let stops := stopAborts s
    let mode := { newMode false false .running with seq := s.seq }
    cutOf s = [⟨1, .cut, 10, 0, 0, none, StepFlags.empty⟩] ∧ cutOf (at_ .ending [polish]) = [] ∧
    (after (.abort from1) s).seq.record = cutOf s ∧ bodies (after (.abort from1) s) = [cutBody] ∧
    (after .stopReceived stops).seq.record = cutOf s ∧ bodies (after .stopReceived stops) = [cutBody] ∧
    (after .modeDecoded mode).seq.record = cutOf s ∧ bodies (after .modeDecoded mode) = [[19, 2, 0], cutBody] ∧
    cutOf { s with seq := { s.seq with record := cutOf s } } = [] := by decide +kernel
theorem witness_FaultReported_notices :
    let p := withMain { runningA with clampTimer := 500000 }
    let first := p (running polish 1000000 0)
    let none_ := p { at_ .aborting [polish] with seq := { (at_ .aborting [polish]).seq with abortTimer := some 0 } }
    let later := p (faulted .leak)
    bodies (after (.pumpBlocked .main) first) = [[8, 4, 0, 3], cutBody] ∧
    (after (.pumpBlocked .main) none_).seq.first = some .pumpBlocked ∧ bodies (after (.pumpBlocked .main) none_) = [[8, 4, 0, 6]] ∧
    (after (.pumpBlocked .main) later).seq.later.pumpBlocked = true ∧ bodies (after (.pumpBlocked .main) later) = [[8, 4, 1, 8]] := by
  decide +kernel
theorem witness_LinkStop :
    let s := withLine .il5 ⟨true, .edge, 5, .linkStop⟩ .inactive false true .done
    let t := after (.debounceExpiry .il5) s
    (s.img.lines.get .il5).routing = .linkStop ∧ s.silent = false ∧ t.lnk.stopSlot = some ⟨.stop, 0, [5], 0⟩ ∧
    t.seq.first = some .interlock ∧ bodies t = [[18, 5, 3, 7], [8, 6, 0, 7]] := by decide +kernel

theorem witness_Entries_run :
    let item : OwnRecord := ⟨.waiting, some ⟨.a, 300, 100, 4, false⟩, none⟩
    let s := fun e => let u := { with2 e with seq := (at_ .waiting [polish]).seq }; { u with peer := { u.peer with own := item } }
    ((entry2 .stale 8).names .a, (entry2 .stale 8).names .b) = (true, false) ∧
    ((after (.entryRemoved 2) (s (entry2 .stale 8))).shr.get .a).computed = 300 ∧
    ((after (.entryStale 2) (s (entry2 .present 3))).shr.get .a).computed = 300 ∧
    ((after (.entryStale 2) (s (entry2 .present 3))).shr.get .a).holdOff = some 250000 := by decide +kernel
theorem witness_RiseInGrant :
    let item : OwnRecord := ⟨.waiting, some ⟨.a, 300, 100, 4, false⟩, none⟩
    let s := fun x => let u := withA x; { u with peer := { u.peer with own := item } }
    let stopped := s FeedShare.reset
    let runs := s { FeedShare.reset with computed := 200, holdOff := some 9 }
    (stopped.shr.get .a).effective < computedGrant stopped .a ∧ ((shrRun .a stopped).shr.get .a).holdOff = some 250000 ∧
    (runs.shr.get .a).effective < computedGrant runs .a ∧ ((shrRun .a runs).shr.get .a).holdOff = some 9 ∧
    ((shrRun .a runs).shr.get .a).computed = 300 := by decide +kernel
/-- The scan of Table 2-6's shortage; then two equal members that share 5 with a leftover of one unit, or fill with 30. -/
theorem witness_Division_order :
    300 < (table24.map Part.m).sum ∧ (floorStage 300 table24).map Grant.grant = [150, 100, 0, 0] ∧
    (floorStage 300 table24).map Grant.denied = [false, false, true, true] ∧
    (let gs : List Grant := [⟨⟨false, 2, 0, 10, 0, 1⟩, 0, false⟩, ⟨⟨false, 3, 0, 9, 9, 1⟩, 9, false⟩, ⟨⟨true, 7, 0, 10, 0, 1⟩, 0, false⟩]
     (remainderStage 4 5 gs).map Grant.grant = [3, 9, 2] ∧ (remainderStage 9 5 gs).map Grant.grant = [3, 9, 2] ∧
     (remainderStage 4 30 gs).map Grant.grant = [10, 9, 10] ∧ remainderStage 4 0 gs = gs) := by decide +kernel
theorem witness_Frame_demand_isolated :
    let b := frame2 15 .demand demand2
    let s := { base with peer := { base.peer with isolated := true, quiet := 8 } }
    let t := after (.frameReceived b) s
    s.peer.isolated = true ∧ takesFrame s = true ∧ lengthGood b = true ∧ sumGood b = true ∧ demandOk (sourceOf b) (payloadOf b) = true ∧
    t.peer.isolated = false ∧ t.peer.quiet = 0 ∧ t.peer.table = [entry2 .present 0] ∧ (t.shr.get .a).k = 1 ∧
    (t.shr.get .a).markSeen = true ∧ (t.shr.get .b).k = 0 := by decide +kernel

/-- An image of node 7 with a refresh period of 260 ms, a CMDNODE of 15 and every other byte 0. -/
def roughBytes : List Byte := [7, 15, 4, 1] ++ List.replicate 122 0 ++ [27, 0]

theorem witness_Image :
    let i := readImage roughBytes
    i.cmdNode = 14 ∧ i.refreshPeriod = 250 ∧ i.tolerance = 8 ∧ i.waitingLimit = 120 ∧ i.regTolerance = 10 ∧ i.settleLimit = 2000 ∧
    i.pulseVolume = ⟨10, 10⟩ ∧ i.zoneDiff = 10 ∧ clampCountOf roughBytes = 10 ∧ loadGood roughBytes = true ∧
    (readImage goodBytes).refreshPeriod = 250 ∧ loadGood (15 :: goodBytes.tail) = false := by decide +kernel
theorem witness_StatusPages :
    let s := { running polish 1000000 0 with shr := base.shr.set .b { FeedShare.reset with k := 3 } }
    statusPage0 s = [0, 3, 1, 0, 0, 0, 7, 0, 0, 0, 0, 7, 0, 0, 0, 0, 48, 0, 0, 0, 0, 0, 255, 0, 0, 0, 0, 0] ∧
    (statusPage0 { s with peer := { s.peer with own := ⟨.running, some ⟨.c, 300, 100, 4, false⟩, none⟩ } }).drop 6
      = [2, 44, 1, 0, 0, 7, 0, 0, 0, 0, 48, 0, 0, 0, 0, 0, 255, 0, 0, 0, 0, 0] ∧
    (∀ f ∈ [Feed.a, .b, .c, .d], (s.shr.get f).k ≤ 4) ∧
    statusPage1 { s with hpc := { s.hpc with ch := s.hpc.ch.set .z2 { (s.head .z2) with state := .regulating, applied := 258, measured := 3 } } }
      = [1, 0, 0, 2, 1] ++ List.replicate 10 0 ++ [3] ++ List.replicate 9 0 ++ [8, 0] := by decide +kernel
theorem witness_Resume_returns :
    let s := held .ordered .running [{ rinse with inSitu := true }]
    let s := { s with
      pcc := { s.pcc with resume := some ⟨200000000, 1, .outward⟩, homeFound := true }
      epm := { s.epm with state := .suspended, periodTimer := 7 }
      hpc := { s.hpc with stepTargets := .all 100 }
      rcp := { s.rcp with profiles := s.rcp.profiles.set 0 ⟨.written, [⟨60, 50⟩, ⟨100, 50⟩]⟩ } }
    let t := after (.resume from1) s
    s.pcc.resume = some ⟨200000000, 1, .outward⟩ ∧ s.pcc.withdrawn = false ∧ (stepProfile s).state = .written ∧
    t.seq.state = .running ∧ t.seq.flags.clamped = true ∧ t.seq.sinceStart = false ∧ t.epm.state = .reference ∧
    t.pcc.arm = .movingIn ∧ t.pcc.segment = 2 ∧ t.pcc.direction = .inward ∧ t.pcc.destination = 100000000 ∧
    t.pcc.resume = some ⟨100000000, 2, .inward⟩ ∧ t.hpc.ramp = some ⟨.all 0, 5, 0, 0⟩ ∧ bodies t = [[6, 1, 3, 0, 0]] := by
  decide +kernel

theorem witness_LinkStop_silent_and_aborting :
    let e : LineSettings := ⟨true, .edge, 5, .linkStop⟩
    let s := withLine .il5 e .inactive false true .faulted
    let s := { s with cfg := { s.cfg with startUp := .duplicateNode } }
    let a := withLine .il0 e .inactive false true .aborting
    let a := { a with seq := { a.seq with first := some .leak, abortTimer := some 0 } }
    s.started = true ∧ s.silent = true ∧ (after (.debounceExpiry .il5) s).lnk.stopSlot = none ∧
    a.seq.state = .aborting ∧ a.seq.first ≠ none ∧ (after (.debounceExpiry .il0) a).seq.later.interlock = true ∧
    bodies (after (.debounceExpiry .il0) a) = [[18, 0, 3, 6], [8, 6, 1, 6]] := by decide +kernel
theorem witness_Resume_returns_at_once :
    let now := held .ordered .running [{ rinse with rampTime := 0 }]
    let now := { now with hpc := { now.hpc with stepTargets := .all 100 } }
    let vents := held .ordered .running [{ rinse with kind := .condition, inSitu := true }]
    let off := { vents with pcc := { vents.pcc with resume := some ⟨60000000, 1, .inward⟩, withdrawn := true } }
    now.seq.resume = some .running ∧ now.pcc.resume = none ∧ (after (.resume from1) now).applied = .all 100 ∧
    (after (.resume from1) now).hpc.ramp = none ∧ (after (.resume from1) vents).seq.state = .running ∧
    (after (.resume from1) vents).hpc.inForce = false ∧ off.pcc.withdrawn = true ∧ (after (.resume from1) off).pcc = off.pcc := by
  decide +kernel

end Sys2Proof.Tests
end

section
/-! The bounds of LNK's NOTICE queue and lost count (R178, R186): placing a notice keeps them, so every operation that queues notices does.

The lemmas are conditional rewriting rules. `-implicitDefEqProofs` lets simp discharge their hypothesis through the rules of
Laws/State.lean, which hold by `rfl`. -/

namespace Sys2Proof.Machine

open Sys2Proof

/-- The NOTICE queue keeps to its eight places and the notices-lost count to its byte (R178, R186). -/
def NoticesFit (l : Lnk) : Prop := l.notices.length ≤ 8 ∧ l.lost ≤ 255

theorem queuesFit_iff (s : State) : QueuesFit s ↔ s.lnk.answers.length ≤ 4 ∧ NoticesFit s.lnk := Iff.rfl

/-- The bound turns on the notices and the count alone. -/
theorem NoticesFit.congr {l l' : Lnk} (h : NoticesFit l) (hn : l'.notices = l.notices) (hl : l'.lost = l.lost) :
    NoticesFit l' := by
  simpa [NoticesFit, hn, hl] using h

@[simp] theorem NoticesFit.ite {c : Prop} [Decidable c] {l l' : Lnk} (h : NoticesFit l) (h' : NoticesFit l') :
    NoticesFit (if c then l else l') := by
  split
  · exact h
  · exact h'

/-- A state chosen between two whose bounds hold. -/
theorem ite_fits {c : Prop} [Decidable c] {s t : State} (h : NoticesFit s.lnk) (h' : NoticesFit t.lnk) :
    NoticesFit (if c then s else t).lnk := by
  split
  · exact h
  · exact h'

/-! ### Placing frames -/

@[simp] theorem placeNotice_fits (kind : Nat) (body : List Byte) {s : State} (h : NoticesFit s.lnk) :
    NoticesFit (placeNotice kind body s).lnk := by
  obtain ⟨hn, hl⟩ := h
  unfold placeNotice
  split
  · exact ⟨hn, hl⟩
  · split
    · exact ⟨hn, by simp [lostMore]⟩
    · exact ⟨by simp; omega, hl⟩

@[simp] theorem placeAnswer_fits (tag : Byte) (payload : List Byte) {s : State} (h : NoticesFit s.lnk) :
    NoticesFit (placeAnswer tag payload s).lnk := h.congr (by simp) (by simp)

@[simp] theorem placeDemand_fits {s : State} (h : NoticesFit s.lnk) : NoticesFit (placeDemand s).lnk :=
  h.congr (by simp) (by simp)

@[simp] theorem placeStopFrame_fits (line : Nat) {s : State} (h : NoticesFit s.lnk) : NoticesFit (placeStopFrame line s).lnk :=
  h.congr (by simp) (by simp)

@[simp] theorem rebuildRecord_fits {s : State} (h : NoticesFit s.lnk) : NoticesFit (rebuildRecord s).lnk :=
  h.congr (by simp) (by simp)

@[simp] theorem carry_fits {s : State} (h : NoticesFit s.lnk) : NoticesFit (carry s).lnk := h.congr (by simp) (by simp)

@[simp] theorem refresh_fits {s : State} (h : NoticesFit s.lnk) : NoticesFit (refresh s).lnk := h.congr (by simp) (by simp)

@[simp] theorem raiseLow_fits (c : Channel) {s : State} (h : NoticesFit s.lnk) : NoticesFit (raiseLow c s).lnk :=
  h.congr (by simp) (by simp)

@[simp] theorem startFrame_fits {s : State} (h : NoticesFit s.lnk) : NoticesFit (startFrame s).lnk :=
  h.congr (by simp) (by simp)

@[simp] theorem beginCarrier_fits {s : State} (h : NoticesFit s.lnk) : NoticesFit (beginCarrier s).lnk :=
  h.congr (by simp) (by simp)

@[simp] theorem clearLinkFlags_fits (mask : BitVec 16) {s : State} (h : NoticesFit s.lnk) :
    NoticesFit (clearLinkFlags mask s).lnk := h.congr (by simp) (by simp)

/-! ### The blocks that queue notices of their own -/

@[simp] theorem beginIsolation_fits {s : State} (h : NoticesFit s.lnk) : NoticesFit (beginIsolation s).lnk := by
  simp -implicitDefEqProofs [beginIsolation, h]

@[simp] theorem enterFallback_fits (c : Channel) {s : State} (h : NoticesFit s.lnk) : NoticesFit (enterFallback c s).lnk := by
  simp -implicitDefEqProofs [enterFallback, h]

@[simp] theorem restoreFlow_fits (c : Channel) {s : State} (h : NoticesFit s.lnk) : NoticesFit (restoreFlow c s).lnk := by
  simp -implicitDefEqProofs [restoreFlow, h]

@[simp] theorem reportHigh_fits (c : HeadCh) {s : State} (h : NoticesFit s.lnk) : NoticesFit (reportHigh c s).lnk := by
  simp -implicitDefEqProofs [reportHigh, h]

@[simp] theorem airWarn_fits {s : State} (h : NoticesFit s.lnk) : NoticesFit (airWarn s).lnk := by
  simp -implicitDefEqProofs [airWarn, h]

@[simp] theorem loseArm_fits (cause : ArmCause) {s : State} (h : NoticesFit s.lnk) : NoticesFit (loseArm cause s).lnk := by
  simp -implicitDefEqProofs [loseArm, h]

@[simp] theorem diskIncrement_fits {s : State} (h : NoticesFit s.lnk) : NoticesFit (diskIncrement s).lnk := by
  simp -implicitDefEqProofs [diskIncrement, h]

@[simp] theorem padIncrement_fits {s : State} (h : NoticesFit s.lnk) : NoticesFit (padIncrement s).lnk := by
  simp -implicitDefEqProofs [padIncrement, h]

@[simp] theorem matchNotices_fits (v : PerSig Moved) (e : EpmSettings) {s : State} (h : NoticesFit s.lnk) :
    NoticesFit (matchNotices v e s).lnk := by
  have one : ∀ (b : Bool) (i : Nat) (s : State), NoticesFit s.lnk → NoticesFit (if b then matchNotice i e s else s).lnk :=
    fun _ _ _ h => ite_fits (placeNotice_fits _ _ h) h
  exact one _ 2 _ (one _ 1 _ (one _ 0 _ h))

@[simp] theorem loseTach_fits (d : Drive) {s : State} (h : NoticesFit s.lnk) : NoticesFit (loseTach d s).lnk := by
  simp -implicitDefEqProofs [loseTach, h]

@[simp] theorem restoreTach_fits (d : Drive) {s : State} (h : NoticesFit s.lnk) : NoticesFit (restoreTach d s).lnk := by
  simp -implicitDefEqProofs [restoreTach, h]

@[simp] theorem completeOp_fits {s : State} (h : NoticesFit s.lnk) : NoticesFit (completeOp s).lnk := by
  unfold completeOp
  split <;> simp -implicitDefEqProofs [h]

/-! ### The notices of the sequencer -/

@[simp] theorem noticeBegun_fits {s : State} (h : NoticesFit s.lnk) : NoticesFit (noticeBegun s).lnk := placeNotice_fits _ _ h

@[simp] theorem noticeEnded_fits (e : RunEntry) {s : State} (h : NoticesFit s.lnk) : NoticesFit (noticeEnded e s).lnk :=
  placeNotice_fits _ _ h

@[simp] theorem noticeHeld_fits (t : ResumeTarget) {s : State} (h : NoticesFit s.lnk) : NoticesFit (noticeHeld t s).lnk :=
  placeNotice_fits _ _ h

@[simp] theorem noticeLeft_fits (x : SeqState) {s : State} (h : NoticesFit s.lnk) : NoticesFit (noticeLeft x s).lnk :=
  placeNotice_fits _ _ h

@[simp] theorem noticeFault_fits (k : FaultKind) (later : Bool) {s : State} (h : NoticesFit s.lnk) :
    NoticesFit (noticeFault k later s).lnk := placeNotice_fits _ _ h

@[simp] theorem noticeRunEnded_fits (timeout : Bool) {s : State} (h : NoticesFit s.lnk) :
    NoticesFit (noticeRunEnded timeout s).lnk := placeNotice_fits _ _ h

@[simp] theorem noticeStarted_fits {s : State} (h : NoticesFit s.lnk) : NoticesFit (noticeStarted s).lnk :=
  placeNotice_fits _ _ h

@[simp] theorem sendWaitLong_fits {s : State} (h : NoticesFit s.lnk) : NoticesFit (sendWaitLong s).lnk := placeNotice_fits _ _ h

@[simp] theorem appendEntry_fits (e : RunEntry) {s : State} (h : NoticesFit s.lnk) : NoticesFit (appendEntry e s).lnk :=
  placeNotice_fits _ _ h

/-! ### The sequencer's entries and exits -/

@[simp] theorem enterAborting_fits (r : RunResult) {s : State} (h : NoticesFit s.lnk) : NoticesFit (enterAborting r s).lnk := by
  simp -implicitDefEqProofs [enterAborting, h]

@[simp] theorem takeFault_fits (k : FaultKind) {s : State} (h : NoticesFit s.lnk) : NoticesFit (takeFault k s).lnk := by
  unfold takeFault
  (repeat' split) <;> simp -implicitDefEqProofs [h]

@[simp] theorem enterHolding_fits (t : ResumeTarget) (c : CauseSet) {s : State} (h : NoticesFit s.lnk) :
    NoticesFit (enterHolding t c s).lnk := by
  simp -implicitDefEqProofs [enterHolding, h]

@[simp] theorem holdFor_fits (c : Cause) {s : State} (h : NoticesFit s.lnk) : NoticesFit (holdFor c s).lnk := by
  unfold holdFor
  split <;> simp -implicitDefEqProofs [h]

@[simp] theorem abortRun_fits (r : RunResult) {s : State} (h : NoticesFit s.lnk) : NoticesFit (abortRun r s).lnk := by
  simp [abortRun, h]

@[simp] theorem armFault_fits (cause : ArmCause) {s : State} (h : NoticesFit s.lnk) : NoticesFit (armFault cause s).lnk := by
  have lost := loseArm_fits cause h
  unfold armFault
  dsimp only
  split
  · simpa using lost
  · simpa using lost
  · exact ite_fits (enterHolding_fits _ _ lost) lost
  all_goals exact lost

@[simp] theorem enterEnding_fits {s : State} (h : NoticesFit s.lnk) : NoticesFit (enterEnding s).lnk := by
  simp -implicitDefEqProofs [enterEnding, h]

@[simp] theorem endStep_fits (r : StepResult) {s : State} (h : NoticesFit s.lnk) : NoticesFit (endStep r s).lnk := by
  simp [endStep, h]

@[simp] theorem checkDose_fits {s : State} (h : NoticesFit s.lnk) : NoticesFit (checkDose s).lnk := by
  simp [checkDose, h]

@[simp] theorem missEndpoint_fits {s : State} (h : NoticesFit s.lnk) : NoticesFit (missEndpoint s).lnk := by
  unfold missEndpoint
  dsimp only
  split <;> simp -implicitDefEqProofs [h]

@[simp] theorem reachLimit_fits {s : State} (h : NoticesFit s.lnk) : NoticesFit (reachLimit s).lnk := by
  unfold reachLimit
  split <;> simp [h]

@[simp] theorem startSwitches_fits (st : StepRec) {s : State} (h : NoticesFit s.lnk) : NoticesFit (startSwitches st s).lnk := by
  have main : NoticesFit (startSwitch .main (targetOf .main st) s).lnk := by simpa using h
  unfold startSwitches
  split
  · exact takeFault_fits _ h
  · exact ite_fits (takeFault_fits _ main) (by simpa using h)

@[simp] theorem reportTrips_fits {s : State} (h : NoticesFit s.lnk) : NoticesFit (reportTrips s).lnk := by
  have platen : NoticesFit (if s.pins.trip.platen then takeFault .driveTrip s else s).lnk := ite_fits (takeFault_fits _ h) h
  exact ite_fits (takeFault_fits _ platen) platen

@[simp] theorem enterWaiting_fits (k : Nat) (fromStart : Bool) {s : State} (h : NoticesFit s.lnk) :
    NoticesFit (enterWaiting k fromStart s).lnk := by
  have early : NoticesFit (takeStepSpeeds (takeHoldOrVent (rebuildRecord (s.setSeq (s.seq.newStep k))))).lnk := by
    simp -implicitDefEqProofs [h]
  have last : ∀ u : State, NoticesFit u.lnk → NoticesFit (if u.seq.state = .waiting ∧
      (entryCauses s.seq.deferred u).isEmpty = false then enterHolding .waiting (entryCauses s.seq.deferred u) u else u).lnk :=
    fun u hu => ite_fits (enterHolding_fits _ _ hu) hu
  unfold enterWaiting
  dsimp only
  cases (takeStepSpeeds (takeHoldOrVent (rebuildRecord (s.setSeq (s.seq.newStep k))))).stepNow with
  | none => exact last _ (ite_fits (reportTrips_fits early) early)
  | some st =>
    have switched := startSwitches_fits st early
    exact last _ (ite_fits (reportTrips_fits switched) switched)

@[simp] theorem startSweep_fits {s : State} (h : NoticesFit s.lnk) : NoticesFit (startSweep s).lnk := by
  exact ite_fits (ite_fits (by simpa using h) (armFault_fits _ h)) h

@[simp] theorem beginStep_fits {s : State} (h : NoticesFit s.lnk) : NoticesFit (beginStep s).lnk := by
  unfold beginStep
  split <;> simp -implicitDefEqProofs [h]

@[simp] theorem returnSweep_fits {s : State} (h : NoticesFit s.lnk) : NoticesFit (returnSweep s).lnk := by
  unfold returnSweep
  split
  · exact h
  · exact ite_fits h (ite_fits (by simpa using h) (armFault_fits _ h))

@[simp] theorem returnToRunning_fits {s : State} (h : NoticesFit s.lnk) : NoticesFit (returnToRunning s).lnk := by
  simp -implicitDefEqProofs [returnToRunning, h]

@[simp] theorem leaveHolding_fits {s : State} (h : NoticesFit s.lnk) : NoticesFit (leaveHolding s).lnk := by
  unfold leaveHolding
  split
  · exact ite_fits (enterEnding_fits (noticeLeft_fits _ h)) (ite_fits h (returnToRunning_fits h))
  · exact ite_fits (enterEnding_fits (noticeLeft_fits _ (appendEntry_fits _ h))) (noticeLeft_fits _ h)

@[simp] theorem resumeHold_fits {s : State} (h : NoticesFit s.lnk) : NoticesFit (resumeHold s).lnk := by
  simp -implicitDefEqProofs [resumeHold, h]

@[simp] theorem completeEnding_fits {s : State} (h : NoticesFit s.lnk) : NoticesFit (completeEnding s).lnk := by
  simp -implicitDefEqProofs [completeEnding, h]

@[simp] theorem completeAbort_fits (timeout : Bool) {s : State} (h : NoticesFit s.lnk) :
    NoticesFit (completeAbort timeout s).lnk := by
  simp -implicitDefEqProofs [completeAbort, h]

@[simp] theorem takeReports_fits {s : State} (h : NoticesFit s.lnk) : NoticesFit (takeReports s).lnk := by
  unfold takeReports
  split
  case h_1 => exact ite_fits (enterHolding_fits _ _ h) h
  case h_2 => exact ite_fits h (ite_fits (leaveHolding_fits h) h)
  all_goals exact h

@[simp] theorem settle_fits {s : State} (h : NoticesFit s.lnk) : NoticesFit (settle s).lnk := by
  have rounds := carry_fits (takeReports_fits (carry_fits (takeReports_fits (carry_fits h))))
  exact ite_fits (by simpa using rounds) h

/-! ### The meanings of the commands -/

@[simp] theorem judgeRegulation_fits (c : HeadCh) {s : State} (h : NoticesFit s.lnk) : NoticesFit (judgeRegulation c s).lnk := by
  have cleared : NoticesFit (clearRegTimer c s).lnk := by simpa using h
  exact ite_fits (takeFault_fits _ cleared) (ite_fits (by simpa using reportHigh_fits c h) cleared)

@[simp] theorem expirePeriod_fits {s : State} (h : NoticesFit s.lnk) : NoticesFit (expirePeriod s).lnk := by
  unfold expirePeriod
  split <;> simp [h]

@[simp] theorem route_fits (r : Routing) (l : Line) {s : State} (h : NoticesFit s.lnk) : NoticesFit (route r l s).lnk := by
  cases r <;> simp [route, h]

@[simp] theorem takeLine_fits (l : Line) {s : State} (h : NoticesFit s.lnk) : NoticesFit (takeLine l s).lnk := by
  have taken : ∀ x : LineState, NoticesFit (s.setLine l x).lnk := fun _ => h
  unfold takeLine
  dsimp only
  split
  · exact taken _
  · exact ite_fits (route_fits _ l (placeNotice_fits _ _ (taken _))) (taken _)

@[simp] theorem takeStop_fits {s : State} (h : NoticesFit s.lnk) : NoticesFit (takeStop s).lnk := by
  unfold takeStop
  split <;> simp [h]

@[simp] theorem modeChanged_fits (m : ToolMode) {s : State} (h : NoticesFit s.lnk) : NoticesFit (modeChanged m s).lnk := by
  cases m <;> simp [modeChanged, h]

@[simp] theorem decodeMode_fits {s : State} (h : NoticesFit s.lnk) : NoticesFit (decodeMode s).lnk := by
  exact ite_fits h (modeChanged_fits _ (placeNotice_fits _ _ h))

/-- A silenced link holds no notice, and its count stands (R180). -/
@[simp] theorem silenceLnk_fits {l : Lnk} (h : NoticesFit l) : NoticesFit (silenceLnk l) := ⟨by simp [silenceLnk], h.2⟩

/-- A reset empties LNK's queues (R193). -/
@[simp] theorem doReset_fits (cause : ResetCause) (held : Bool) (s : State) : NoticesFit (doReset cause held s).lnk := by
  simp [doReset, Lnk.reset, NoticesFit]

end Sys2Proof.Machine
end

section
/-! The peer table and the recipe store through the operations that change them (R1 to R5, R93). -/

namespace Sys2Proof.Machine

open Sys2Proof

/-! ### The peer table as a list -/

/-- A table with strictly rising node numbers and every entry in its ranges (R1). -/
def TableOk (l : List PeerEntry) : Prop := l.Pairwise (fun x y => x.node < y.node) ∧ ∀ e ∈ l, e.InRange

theorem mem_putEntry {e x : PeerEntry} {l : List PeerEntry} (h : x ∈ putEntry e l) : x = e ∨ x ∈ l := by
  induction l with
  | nil => simpa [putEntry] using h
  | cons y r ih =>
    unfold putEntry at h
    split at h
    · simpa using h
    · split at h <;> simp only [List.mem_cons] at h ⊢ <;> tauto

theorem putEntry_rising (e : PeerEntry) {l : List PeerEntry} (h : l.Pairwise (fun x y => x.node < y.node)) :
    (putEntry e l).Pairwise (fun x y => x.node < y.node) := by
  induction l with
  | nil => simp [putEntry]
  | cons y r ih =>
    obtain ⟨hy, hr⟩ := List.pairwise_cons.1 h
    unfold putEntry
    split
    · next lt =>
      refine List.pairwise_cons.2 ⟨fun z hz => ?_, h⟩
      rcases List.mem_cons.1 hz with rfl | hz
      · exact lt
      · exact lt.trans (hy z hz)
    · split
      · next eq => exact List.pairwise_cons.2 ⟨fun z hz => eq ▸ hy z hz, hr⟩
      · refine List.pairwise_cons.2 ⟨fun z hz => ?_, ih hr⟩
        rcases mem_putEntry hz with rfl | hz
        · omega
        · exact hy z hz

/-- An entry in range put into a table (R2). -/
theorem TableOk.put {e : PeerEntry} {l : List PeerEntry} (h : TableOk l) (he : e.InRange) : TableOk (putEntry e l) := by
  refine ⟨putEntry_rising e h.1, fun x hx => ?_⟩
  rcases mem_putEntry hx with rfl | hx
  · exact he
  · exact h.2 x hx

/-- An entry taken out of a table (R5). -/
theorem TableOk.drop {l : List PeerEntry} (h : TableOk l) (n : Nat) : TableOk (dropEntry n l) :=
  ⟨h.1.filter _, fun e he => h.2 e (List.mem_of_mem_filter he)⟩

/-- A table whose entries grow older (R5). -/
theorem TableOk.age {l : List PeerEntry} (h : TableOk l) : TableOk (l.map ageEntry) := by
  refine ⟨h.1.map _ (fun _ _ hab => hab), fun e he => ?_⟩
  obtain ⟨x, hx, rfl⟩ := List.mem_map.1 he
  obtain ⟨hlen, hfeeds, hitems, -⟩ := h.2 x hx
  exact ⟨hlen, hfeeds, hitems, by simp [ageEntry]⟩

/-- A cleaned item is in its ranges (R3). -/
theorem cleanItem_inRange (p : List Byte) (i : Nat) : (cleanItem p i).InRange := by
  simp only [Item.InRange, cleanItem]
  omega

/-- Two different feed indices up to 3 name different feeds. -/
theorem feedOf_inj {m n : Nat} (hm : m ≤ 3) (hn : n ≤ 3) (h : (feedOf m).getD .a = (feedOf n).getD .a) : m = n := by
  interval_cases m <;> interval_cases n <;> first | rfl | exact absurd h (by decide)

/-- The checks of R3 one by one. -/
theorem demandOk_iff (n : Nat) (p : List Byte) : demandOk n p = true ↔
    n ≠ 15 ∧ p.length = 2 + 5 * itemCount p ∧ itemCount p ≤ 2 ∧ rd p 0 ≤ 3 ∧ (rd p 0 = 0 → itemCount p = 0) ∧
    (∀ i < itemCount p, itemFeed p i ≤ 3) ∧ (itemCount p = 2 → itemFeed p 0 ≠ itemFeed p 1) := by
  simp [demandOk, and_assoc, imp_iff_not_or]

/-- The entry of an accepted DEMAND is in its ranges (R1 to R3). -/
theorem entryOf_inRange {n : Nat} {p : List Byte} (h : demandOk n p = true) : (entryOf n p).InRange := by
  obtain ⟨-, -, hcount, -, -, hfeeds, hdiff⟩ := (demandOk_iff n p).1 h
  refine ⟨by simpa [entryOf] using hcount, ?_, ?_, by simp [entryOf]⟩
  · have nodup : ((List.range (itemCount p)).map (fun i => (feedOf (itemFeed p i)).getD .a)).Nodup := by
      interval_cases hc : itemCount p
      · simp
      · simp
      · simpa [List.range_succ] using fun e => hdiff rfl (feedOf_inj (hfeeds 0 (by omega)) (hfeeds 1 (by omega)) e)
    simpa [entryOf, List.map_map, Function.comp_def, cleanItem] using nodup
  · intro i hi
    obtain ⟨j, -, rfl⟩ := List.mem_map.1 hi
    exact cleanItem_inRange p j

/-! ### PEER's operations on the table -/

@[simp] theorem refresh_table (s : State) : (refresh s).peer.table = s.peer.table.map ageEntry := by simp [refresh]

theorem makeStale_tableOk (n : Nat) {s : State} (h : TableOk s.peer.table) : TableOk (makeStale n s).peer.table := by
  unfold makeStale
  split
  · exact h
  · next e he =>
    obtain ⟨hlen, hfeeds, hitems, hage⟩ := h.2 e (List.mem_of_find?_eq_some he)
    have stale : PeerEntry.InRange { e with presence := .stale } := ⟨hlen, hfeeds, hitems, hage⟩
    simpa using h.put stale

theorem removeEntry_tableOk (n : Nat) {s : State} (h : TableOk s.peer.table) : TableOk (removeEntry n s).peer.table := by
  unfold removeEntry
  split
  · exact h
  · simpa using h.drop n

end Sys2Proof.Machine
end

section
/-! Every step keeps the bounds of LNK's queues, of the peer table and of the recipe store (R1, R93, R178, R186). -/

namespace Sys2Proof.Machine

open Sys2Proof

/-! ### The recipe store's sizes -/

/-- The store has as many slots and profiles as before. -/
def SameSizes (r r' : Rcp) : Prop := r'.slots.length = r.slots.length ∧ r'.profiles.length = r.profiles.length

theorem SameSizes.refl (r : Rcp) : SameSizes r r := ⟨rfl, rfl⟩

theorem SameSizes.trans {r r' r'' : Rcp} (h : SameSizes r r') (h' : SameSizes r' r'') : SameSizes r r'' :=
  ⟨h'.1.trans h.1, h'.2.trans h.2⟩

theorem setSlot_sizes (r : Rcp) (n : Nat) (x : Slot) : SameSizes r (r.setSlot n x) := ⟨by simp [Rcp.setSlot], rfl⟩

theorem setProfile_sizes (r : Rcp) (n : Nat) (x : Profile) : SameSizes r (r.setProfile n x) := ⟨rfl, by simp [Rcp.setProfile]⟩

theorem apply_sizes (r : Rcp) (o : StoreOp) : SameSizes r (r.apply o) := by
  cases o
  case eraseStore => exact .refl r
  case writeProfile => exact setProfile_sizes ..
  all_goals exact setSlot_sizes ..

theorem corruptProfiles_length (l : List Profile) (done : Nat) : (corruptProfiles l done).length = l.length := by
  simp [corruptProfiles]; omega

theorem corruptSlots_length (l : List Slot) (erased : Nat) (under : Bool) (k : Nat) :
    (corruptSlots l erased under k).length = l.length := by
  have cut := congrArg List.length (List.take_append_drop erased l)
  unfold corruptSlots
  split <;> simp_all

theorem scan_sizes (r : Rcp) (k : Nat) : SameSizes r (r.scan k) := by
  unfold Rcp.scan
  split
  · exact .refl r
  · exact setSlot_sizes ..
  · exact setSlot_sizes ..
  · exact setSlot_sizes ..
  · exact setSlot_sizes ..
  · exact setProfile_sizes r _ .corrupted
  · exact ⟨corruptSlots_length .., corruptProfiles_length ..⟩

theorem scanStore_sizes (s : State) : SameSizes s.rcp (scanStore s).rcp := by
  unfold scanStore
  split
  · exact scan_sizes s.rcp _
  · exact .refl _

theorem completeOp_sizes (s : State) : SameSizes s.rcp (completeOp s).rcp := by
  unfold completeOp
  split
  · next o _ _ => simpa [SameSizes] using apply_sizes s.rcp o
  · exact .refl _

theorem eraseTarget_sizes (s : State) : SameSizes s.rcp (eraseTarget s).rcp := by
  unfold eraseTarget
  split
  · next done t _ =>
    show SameSizes s.rcp (s.rcp.eraseTarget done)
    unfold Rcp.eraseTarget
    split
    · exact setProfile_sizes ..
    · exact setSlot_sizes ..
  · exact .refl _

/-! ### The three bounds together -/

/-- A change of state keeps the bounds: of LNK's queues, of the peer table and of the recipe store. -/
structure KeepsBounds (s t : State) : Prop where
  queues : QueuesFit s → QueuesFit t
  table : TableInRange s → TableInRange t
  store : SameSizes s.rcp t.rcp

theorem KeepsBounds.refl (s : State) : KeepsBounds s s := ⟨id, id, .refl _⟩

theorem KeepsBounds.trans {s t u : State} (h : KeepsBounds s t) (h' : KeepsBounds t u) : KeepsBounds s u :=
  ⟨fun q => h'.queues (h.queues q), fun q => h'.table (h.table q), h.store.trans h'.store⟩

/-- A change that leaves the answers, the peer table and the store's sizes, and queues nothing but notices. -/
theorem KeepsBounds.of_frame {s t : State} (ha : t.lnk.answers = s.lnk.answers)
    (hn : NoticesFit s.lnk → NoticesFit t.lnk) (ht : t.peer.table = s.peer.table) (hr : SameSizes s.rcp t.rcp) :
    KeepsBounds s t where
  queues h := ⟨ha ▸ h.1, hn h.2⟩
  table h := by simpa only [TableInRange, ht] using h
  store := hr

/-- The same, for a change that leaves the store whole. -/
theorem KeepsBounds.of_events {s t : State} (ha : t.lnk.answers = s.lnk.answers)
    (hn : NoticesFit s.lnk → NoticesFit t.lnk) (ht : t.peer.table = s.peer.table) (hr : t.rcp = s.rcp) :
    KeepsBounds s t := .of_frame ha hn ht (hr ▸ .refl _)

/-- Carrying a change through keeps the bounds. -/
theorem settle_keepsBounds (s : State) : KeepsBounds s (settle s) := .of_events (by simp) (fun h => settle_fits h) (by simp) (by simp)

theorem KeepsBounds.settle {s t : State} (h : KeepsBounds s t) : KeepsBounds s (settle t) := h.trans (settle_keepsBounds t)

theorem KeepsBounds.ite {c : Prop} [Decidable c] {s t u : State} (h : KeepsBounds s t) (h' : KeepsBounds s u) :
    KeepsBounds s (if c then t else u) := by
  split
  · exact h
  · exact h'

/-- A fold of changes that each keep the bounds. -/
theorem KeepsBounds.foldl {α : Type} {f : State → α → State} (h : ∀ u x, KeepsBounds u (f u x)) (l : List α) (s : State) :
    KeepsBounds s (l.foldl f s) := by
  induction l generalizing s with
  | nil => exact .refl s
  | cons x r ih => exact (h s x).trans (ih _)

/-- An event keeps the bounds where its meaning does. -/
theorem KeepsBounds.whenDue {s u : State} (due : Bool) {f : State → State} (h : KeepsBounds s u) (hf : KeepsBounds u (f u)) :
    KeepsBounds s (whenDue due u f) := by
  cases due
  · exact h
  · exact h.trans hf

/-- A reset empties LNK and the peer table and keeps the store's contents (R93, R199). -/
theorem doReset_keepsBounds (cause : ResetCause) (held : Bool) (s : State) : KeepsBounds s (doReset cause held s) where
  queues _ := ⟨by simp [doReset, Lnk.reset], doReset_fits cause held s⟩
  table _ := ⟨List.Pairwise.nil, by simp [doReset, Peer.reset]⟩
  store := .refl _

end Sys2Proof.Machine
end

section
/-! Every command and every step keeps the bounds (R1, R93, R178, R186). -/

namespace Sys2Proof.Machine

open Sys2Proof

/-! ### The orders -/

/-- An order's reply keeps the bounds and adds no ANSWER of its own. -/
def Reply.KeepsBounds (s : State) (r : Reply) : Prop :=
  Machine.KeepsBounds s r.st ∧ r.st.lnk.answers.length ≤ s.lnk.answers.length

theorem Reply.KeepsBounds.refused (s : State) (c : Code) (d : List Byte) : Reply.KeepsBounds s ⟨s, c, d⟩ :=
  ⟨.refl s, le_rfl⟩

theorem Reply.KeepsBounds.of {s t : State} {c : Code} {d : List Byte} (h : Machine.KeepsBounds s t)
    (ha : t.lnk.answers = s.lnk.answers) : Reply.KeepsBounds s ⟨t, c, d⟩ := ⟨h, ha ▸ le_rfl⟩

/-- An accepted store operation (R101). -/
theorem accept_keepsBounds (o : StoreOp) (s : State) : (accept o s).KeepsBounds s :=
  .of (.of_frame rfl id rfl (.refl _)) rfl

theorem orderLoad_keepsBounds (slot : Byte) (s : State) : (orderLoad slot s).KeepsBounds s := by
  have copied : Reply.KeepsBounds s (.bare (settle (takeCopy (s.slot slot.toNat) s)) .ok) :=
    .of (KeepsBounds.settle (.of_events (by simp) (fun h => by simpa using h) (by simp) (by simp))) (by simp)
  have corrupted : ∀ x, Reply.KeepsBounds s (.bare (s.setRcp (s.rcp.setSlot slot.toNat x)) .corrupt) :=
    fun x => .of (.of_frame rfl id rfl (setSlot_sizes ..)) rfl
  unfold orderLoad
  dsimp only
  (repeat' split) <;> first | exact .refused .. | exact copied | exact corrupted _

theorem orderUnload_keepsBounds (s : State) : (orderUnload s).KeepsBounds s := by
  unfold orderUnload
  split
  · exact .refused ..
  · split
    · exact .of (KeepsBounds.settle (.of_events (by simp) (fun h => by simpa using h) (by simp) (by simp))) (by simp)
    · exact .refused ..

theorem orderStart_keepsBounds (s : State) : (orderStart s).KeepsBounds s := by
  have started : ∀ q, KeepsBounds s (enterWaiting 1 true (s.setSeq q)) := fun q =>
    .of_events (by simp) (fun h => enterWaiting_fits 1 true h) (by simp) (by simp)
  unfold orderStart
  (repeat' split) <;> first | exact .refused .. | exact .of (started _).settle (by simp)

theorem orderHold_keepsBounds (s : State) : (orderHold s).KeepsBounds s := by
  unfold orderHold
  split
  · exact .refused ..
  · split
    · exact .of (KeepsBounds.settle (.of_events (by simp) (holdFor_fits .ordered) (by simp) (by simp))) (by simp)
    · exact .refused ..

theorem orderResume_keepsBounds (s : State) : (orderResume s).KeepsBounds s := by
  unfold orderResume
  split
  · exact .refused ..
  · split
    · exact .of (KeepsBounds.settle (.of_events (by simp) resumeHold_fits (by simp) (by simp))) (by simp)
    · exact .refused ..

theorem orderAbort_keepsBounds (s : State) : (orderAbort s).KeepsBounds s := by
  have aborted : KeepsBounds s (abortRun .aborted s) := .of_events (by simp) (abortRun_fits .aborted) (by simp) (by simp)
  unfold orderAbort
  (repeat' split) <;> first | exact .refused .. | exact .of aborted.settle (by simp)

theorem orderClearFault_keepsBounds (s : State) : (orderClearFault s).KeepsBounds s := by
  have cleared : ∀ q, KeepsBounds s (enterRest .done (clearChannelFaults (s.setSeq q))) := fun q =>
    .of_events (by simp) (fun h => by simpa using h) (by simp) (by simp)
  unfold orderClearFault
  (repeat' split) <;> first | exact .refused .. | exact .of (cleared _).settle (by simp)

theorem orderLockStore_keepsBounds (s : State) : (orderLockStore s).KeepsBounds s := by
  unfold orderLockStore
  (repeat' split) <;> first | exact .refused .. | exact .of (.of_frame rfl id rfl (.refl _)) rfl

theorem orderDiskReplaced_keepsBounds (s : State) : (orderDiskReplaced s).KeepsBounds s := by
  unfold orderDiskReplaced
  (repeat' split) <;> first | exact .refused .. | exact .of (.of_frame rfl id rfl (.refl _)) rfl

theorem orderPadReplaced_keepsBounds (s : State) : (orderPadReplaced s).KeepsBounds s := by
  unfold orderPadReplaced
  (repeat' split) <;> first | exact .refused .. | exact .of (.of_frame rfl id rfl (.refl _)) rfl

/-- What CLEAR_EVENTS clears stands in no bound (R201). -/
theorem clearFlags_keeps_link (mask : BitVec 16) (s : State) :
    (clearFlags mask s).lnk.answers = s.lnk.answers ∧ (clearFlags mask s).lnk.notices = s.lnk.notices ∧
    (clearFlags mask s).lnk.lost = s.lnk.lost ∧ (clearFlags mask s).peer = s.peer ∧ (clearFlags mask s).rcp = s.rcp := by
  have lines : ∀ (ls : List Line) (u : State), let v := ls.foldl (fun s l => if mask.getLsbD (numLine l) then clearLine l s else s) u
      v.lnk = u.lnk ∧ v.peer = u.peer ∧ v.rcp = u.rcp := by
    intro ls
    induction ls with
    | nil => exact fun u => ⟨rfl, rfl, rfl⟩
    | cons l r ih => intro u; simpa using ih (if mask.getLsbD (numLine l) then clearLine l u else u)
  obtain ⟨hl, hp, hr⟩ := lines PerLine.indices s
  have el : (clearLines mask s).lnk = s.lnk := hl
  have ep : (clearLines mask s).peer = s.peer := hp
  have er : (clearLines mask s).rcp = s.rcp := hr
  simp [clearFlags, el, ep, er]

theorem orderClearEvents_keepsBounds (mask : BitVec 16) (s : State) : (orderClearEvents mask s).KeepsBounds s := by
  obtain ⟨ha, hn, hl, hp, hr⟩ := clearFlags_keeps_link mask s
  have cleared : KeepsBounds s (clearFlags mask s) := .of_events ha (fun h => h.congr hn hl) (by rw [hp]) hr
  exact .of cleared.settle (by simpa using ha)

/-- RESTART sets its mark, or resets at once and so empties the queues (R202). -/
theorem orderRestart_keepsBounds (toAll : Bool) (s : State) : (orderRestart toAll s).KeepsBounds s := by
  unfold orderRestart
  split
  · exact .refused ..
  · split
    · exact .refused ..
    · split
      · exact ⟨doReset_keepsBounds .restartOrder false s, Nat.zero_le _⟩
      · exact .of (.of_frame rfl id rfl (.refl _)) rfl

/-- The owner of every order keeps the bounds. -/
theorem carryOut_keepsBounds (toAll : Bool) (o : Order) (s : State) : (carryOut toAll o s).KeepsBounds s := by
  cases o with
  | load slot => exact orderLoad_keepsBounds slot s
  | unload => exact orderUnload_keepsBounds s
  | start => exact orderStart_keepsBounds s
  | hold => exact orderHold_keepsBounds s
  | resume => exact orderResume_keepsBounds s
  | abort => exact orderAbort_keepsBounds s
  | clearFault => exact orderClearFault_keepsBounds s
  | readResult position => exact .refused ..
  | lockStore => exact orderLockStore_keepsBounds s
  | diskReplaced => exact orderDiskReplaced_keepsBounds s
  | padReplaced => exact orderPadReplaced_keepsBounds s
  | clearEvents mask => exact orderClearEvents_keepsBounds mask s
  | restart => exact orderRestart_keepsBounds toAll s
  | writeHeader slot part contents =>
    simp only [carryOut, orderWriteHeader]
    (repeat' split) <;> first | exact .refused .. | exact accept_keepsBounds ..
  | writeStep slot index contents =>
    simp only [carryOut, orderWriteStep]
    (repeat' split) <;> first | exact .refused .. | exact accept_keepsBounds ..
  | closeRecipe slot =>
    simp only [carryOut, orderCloseRecipe]
    (repeat' split) <;> first | exact .refused .. | exact accept_keepsBounds ..
  | eraseRecipe slot =>
    simp only [carryOut, orderEraseRecipe]
    (repeat' split) <;> first | exact .refused .. | exact accept_keepsBounds ..
  | eraseStore =>
    simp only [carryOut, orderEraseStore]
    (repeat' split) <;> first | exact .refused .. | exact accept_keepsBounds ..
  | writeProfile profile count contents =>
    simp only [carryOut, orderWriteProfile]
    (repeat' split) <;> first | exact .refused .. | exact accept_keepsBounds ..
  | sumRecipe slot =>
    simp only [carryOut, orderSumRecipe]
    (repeat' split) <;> exact .refused ..
  | readRecipe slot kind part =>
    simp only [carryOut, orderReadRecipe, readReply]
    (repeat' split) <;> exact .refused ..
  | queryStatus page =>
    simp only [carryOut, orderQueryStatus]
    (repeat' split) <;> exact .refused ..

/-- An ANSWER joins the queue only where it has a place: LNK takes no other ORDER that it answers (R184). -/
theorem answer_has_place {m : OrderMeta} {s : State} (h : takesOrder m s = true) (ht : m.toAll = false)
    (hs : s.silent = false) : s.lnk.answers.length < 4 := by
  simp only [takesOrder, Bool.and_eq_true, Bool.or_eq_true, ht, decide_eq_true_eq] at h
  simp only [State.silent, Bool.or_eq_false_iff] at hs
  simpa [hs.2] using h.2

theorem placeAnswer_length (tag : Byte) (payload : List Byte) (s : State) :
    (placeAnswer tag payload s).lnk.answers.length ≤ s.lnk.answers.length + 1 := by
  unfold placeAnswer
  split <;> simp

/-- An ORDER as LNK takes it. -/
theorem serve_keepsBounds (m : OrderMeta) {owner : State → Reply} {s : State} (h : (owner s).KeepsBounds s) :
    KeepsBounds s (serve m owner s) := by
  obtain ⟨kept, answers⟩ := h
  unfold serve
  split
  · next takes =>
    split
    · exact kept
    · next answered =>
      obtain ⟨ht, hs⟩ : m.toAll = false ∧ s.silent = false := by simpa using answered
      refine ⟨fun q => ⟨?_, placeAnswer_fits _ _ (kept.queues q).2⟩, fun h => ?_, ?_⟩
      · exact (placeAnswer_length ..).trans (by have := answer_has_place takes ht hs; omega)
      · simpa [TableInRange] using kept.table h
      · simpa using kept.store
  · exact .refl s

/-- An ORDER payload, well formed or not (R184). -/
theorem takeOrder_keepsBounds (m : OrderMeta) (payload : List Byte) (s : State) : KeepsBounds s (takeOrder m payload s) := by
  unfold takeOrder
  split
  · exact serve_keepsBounds m (.refused ..)
  · exact serve_keepsBounds m (by unfold refuseLength; split <;> exact .refused ..)
  · exact serve_keepsBounds m (carryOut_keepsBounds ..)

/-- An order's owner behind the check of its length. -/
theorem ofLength_keepsBounds (good : Bool) {owner : State → Reply} {s : State} (h : (owner s).KeepsBounds s) :
    (ofLength good owner s).KeepsBounds s := by
  cases good
  · exact .refused ..
  · exact h

/-! ### The link -/

theorem removeSent_keeps (t : Sending) (l : Lnk) : (removeSent t l).answers.length ≤ l.answers.length ∧
    (NoticesFit l → NoticesFit (removeSent t l)) := by
  unfold removeSent
  split
  · split <;> exact ⟨le_rfl, id⟩
  · exact ⟨by simp, id⟩
  · exact ⟨by simp, id⟩
  · split <;> exact ⟨le_rfl, id⟩
  · exact ⟨le_rfl, fun h => ⟨(by simp : (l.notices.drop 1).length ≤ l.notices.length).trans h.1, h.2⟩⟩

theorem collideHead_length (l : List Frame) : (collideHead l).length = l.length := by cases l <;> rfl

theorem countCollision_keeps (t : Sending) (l : Lnk) : (countCollision t l).answers.length = l.answers.length ∧
    (NoticesFit l → NoticesFit (countCollision t l)) := by
  unfold countCollision
  split
  · exact ⟨rfl, id⟩
  · exact ⟨collideHead_length _, id⟩
  · exact ⟨collideHead_length _, id⟩
  · exact ⟨rfl, id⟩
  · exact ⟨rfl, fun h => ⟨(collideHead_length _).trans_le h.1, h.2⟩⟩

theorem discardWorn_keeps (t : Sending) (l : Lnk) : (discardWorn t l).answers.length ≤ l.answers.length ∧
    (NoticesFit l → NoticesFit (discardWorn t l)) := by
  obtain ⟨ha, hn⟩ := removeSent_keeps t l
  unfold discardWorn
  split
  · exact ⟨le_rfl, id⟩
  · dsimp only
    split
    · exact ⟨ha, fun h => ⟨(hn h).1, by simp [lostMore]⟩⟩
    · exact ⟨ha, hn⟩

/-- A change of LNK's own that adds no ANSWER and keeps the notices in bound. -/
theorem setLnk_keepsBounds {s : State} {l : Lnk} (ha : l.answers.length ≤ s.lnk.answers.length)
    (hn : NoticesFit s.lnk → NoticesFit l) : KeepsBounds s (s.setLnk l) :=
  ⟨fun q => ⟨ha.trans q.1, hn q.2⟩, id, .refl _⟩

theorem restartIfSent_keepsBounds (s : State) : KeepsBounds s (restartIfSent s) :=
  .ite (doReset_keepsBounds ..) (.refl s)

theorem finishFrame_keepsBounds (s : State) : KeepsBounds s (finishFrame s) := by
  unfold finishFrame
  split
  · exact .refl s
  · next t _ =>
    obtain ⟨ha, hn⟩ := removeSent_keeps t s.lnk
    refine .trans (setLnk_keepsBounds ?_ fun h => ?_) (restartIfSent_keepsBounds _)
    · exact ha
    · exact ⟨(hn h).1, (Nat.sub_le ..).trans (hn h).2⟩

theorem mismatchEcho_keepsBounds (s : State) : KeepsBounds s (mismatchEcho s) := by
  unfold mismatchEcho
  split
  · exact .refl s
  · next t _ =>
    obtain ⟨hc, hn⟩ := countCollision_keeps t s.lnk
    obtain ⟨ha, hd⟩ := discardWorn_keeps t (countCollision t s.lnk)
    refine .trans (setLnk_keepsBounds ?_ fun h => ?_) (restartIfSent_keepsBounds _)
    · exact ha.trans hc.le
    · exact hd (hn h)

/-- A DEMAND delivered to PEER (R2, R3). -/
theorem takeDemand_keepsBounds (source : Nat) (p : List Byte) (s : State) : KeepsBounds s (takeDemand source p s) := by
  have marks : ∀ items u, KeepsBounds u (reportMarks items u) := fun items =>
    .foldl (fun u i => .ite (.of_events (by simp) (by simp) (by simp) (by simp)) (.refl u)) items
  have runs : ∀ touched u, KeepsBounds u (shrRuns touched u) := fun touched u =>
    .of_events (by simp) (by simp) (by simp) (by simp)
  unfold takeDemand
  split
  · exact .refl s
  · split
    · next ok =>
      have stored : KeepsBounds s (s.setPeer { s.peer with table := putEntry (entryOf source p) s.peer.table }) :=
        ⟨id, fun h => TableOk.put h (entryOf_inRange ok), .refl _⟩
      exact (stored.trans (marks ..)).trans (runs ..)
    · exact setLnk_keepsBounds le_rfl id

theorem takeStop_keepsBounds (s : State) : KeepsBounds s (takeStop s) :=
  .of_events (by simp) takeStop_fits (by simp) (by simp)

/-- A duplicate node number silences the link (R182). -/
theorem findDuplicate_keepsBounds (s : State) : KeepsBounds s (findDuplicate s) := by
  unfold findDuplicate
  split
  · exact doReset_keepsBounds ..
  · have silenced : KeepsBounds s ((s.setCfg { s.cfg with startUp := .duplicateNode }).setLnk
        { silenceLnk s.lnk with dupFound := true }) :=
      ⟨fun q => ⟨Nat.zero_le _, Nat.zero_le _, q.2.2⟩, id, .refl _⟩
    exact silenced.trans (.of_events (by simp) (takeFault_fits .duplicateNode) (by simp) (by simp))

/-- A frame of another node through the checks and to its owner (R181 to R183). -/
theorem hearOther_keepsBounds (k : FrameKind) (b : List Byte) (s : State) : KeepsBounds s (hearOther k b s) := by
  have heard : KeepsBounds s (hearFrame s) := .of_events rfl id rfl rfl
  have delivered : ∀ u, KeepsBounds u (deliver k b u) := by
    intro u
    cases k
    · exact takeStop_keepsBounds u
    · exact takeOrder_keepsBounds _ _ u
    · exact .refl u
    · exact takeDemand_keepsBounds _ _ u
    · exact .refl u
  have accepted : ∀ u, KeepsBounds u (acceptFrame k b u) := fun u =>
    .ite (setLnk_keepsBounds le_rfl id) (.ite (delivered u) (.refl u))
  have runs : ∀ u, KeepsBounds u (shrRuns allFeeds u) := fun u => .of_events (by simp) (by simp) (by simp) (by simp)
  exact heard.trans (.ite ((accepted _).trans (runs _)) (accepted _))

theorem checkFrame_keepsBounds (b : List Byte) (s : State) : KeepsBounds s (checkFrame b s) := by
  unfold checkFrame
  split
  · exact setLnk_keepsBounds le_rfl id
  · split
    · exact setLnk_keepsBounds le_rfl id
    · exact .ite (findDuplicate_keepsBounds s) (hearOther_keepsBounds ..)

theorem endCarrier_keepsBounds (b : List Byte) (s : State) : KeepsBounds s (endCarrier b s) := by
  have ended : ∀ x y z, KeepsBounds s (s.setLnk { s.lnk with carrier := x, received := y, quiet := z }) := fun _ _ _ =>
    setLnk_keepsBounds le_rfl id
  exact .ite ((ended ..).trans (checkFrame_keepsBounds ..).settle) (ended ..)

/-! ### Start-up -/

/-- A good load: the store is scanned and the trips reported (R112, R176). -/
theorem loadImage_keepsBounds (b : List Byte) (s : State) : KeepsBounds s (loadImage b s) := by
  have scanned : ∀ u, KeepsBounds u (scanStore u) := fun u => .of_frame (by simp) (by simp) (by simp) (scanStore_sizes u)
  have tripped : ∀ u, KeepsBounds u (reportTrips (beginSearch u)) := fun u =>
    .of_events (by simp) (fun h => reportTrips_fits (by simpa using h)) (by simp) (by simp)
  refine .trans (.trans ?_ (scanned _)) (tripped _)
  exact .of_events (by simp) (by simp) (by simp) (by simp)

/-- The end of SETTLE: a good load scans the store; a failed one can empty the link (R112, R195). -/
theorem endSettle_keepsBounds (s : State) : KeepsBounds s (endSettle s) := by
  unfold endSettle
  split
  · next b _ => exact loadImage_keepsBounds b s
  · unfold failLoad
    split
    · exact .of_events rfl id rfl rfl
    · exact ⟨fun q => ⟨Nat.zero_le _, silenceLnk_fits q.2⟩, id, .refl _⟩

end Sys2Proof.Machine
end

section
/-! The bounds through every command and every step: O57. -/

namespace Sys2Proof.Machine

open Sys2Proof

/-- An event that touches no answer, no peer entry and no store, and queues nothing but notices. -/
theorem whenDue_keepsBounds {s u : State} (due : Bool) {f : State → State} (h : KeepsBounds s u)
    (ha : (f u).lnk.answers = u.lnk.answers) (hn : NoticesFit u.lnk → NoticesFit (f u).lnk)
    (ht : (f u).peer.table = u.peer.table) (hr : (f u).rcp = u.rcp) : KeepsBounds s (whenDue due u f) :=
  h.whenDue due (.of_events ha hn ht hr)

theorem setPins_keepsBounds (s : State) (p : Pins) : KeepsBounds s (s.setPins p) := .of_events rfl id rfl rfl

/-- A line's level taken at once (R164). -/
theorem takeAtOnce_keepsBounds (l : Line) (s : State) : KeepsBounds s (takeAtOnce l s) :=
  whenDue_keepsBounds _ (.refl s) (by simp) (fun h => settle_fits (takeLine_fits l h)) (by simp) (by simp)

/-- A stroke: its volume, and the window that a 200th stroke closes (R53 to R56). -/
theorem takeStroke_keepsBounds (c : Channel) (s : State) : KeepsBounds s (takeStroke c s) := by
  have window : ∀ u, KeepsBounds u (settleWindow c u) := fun u => by
    have closed : KeepsBounds u (whenDue (windowDue c u) u (closeWindow c)) :=
      whenDue_keepsBounds _ (.refl u) (by simp) (by simp) (by simp) (by simp)
    have fallen := fun due => whenDue_keepsBounds due closed (by simp) (enterFallback_fits c) (by simp) (by simp)
    exact whenDue_keepsBounds _ (fallen _) (by simp) (restoreFlow_fits c) (by simp) (by simp)
  have counted : ∀ d, KeepsBounds s (s.setChan c d) := fun d => .of_events (by simp) (by simp) (by simp) (by simp)
  have totalled : ∀ v u, KeepsBounds u (countVolume c v u) := fun v u => .of_events (by simp) (by simp) (by simp) (by simp)
  exact .ite (.refl s) (.trans (.ite ((counted _).trans (totalled ..)) (counted _)) (window _))

/-- A flowmeter pulse: its volume (R53). -/
theorem takePulse_keepsBounds (c : Channel) (s : State) : KeepsBounds s (takePulse c s) := by
  have counted : ∀ d, KeepsBounds s (s.setChan c d) := fun d => .of_events (by simp) (by simp) (by simp) (by simp)
  have totalled : ∀ v u, KeepsBounds u (countVolume c v u) := fun v u => .of_events (by simp) (by simp) (by simp) (by simp)
  exact .ite (.refl s) (.ite ((counted _).trans (totalled ..)) (counted _))

/-- The dose judged (R73). -/
theorem checkDose_keepsBounds (s : State) : KeepsBounds s (checkDose s) :=
  .of_events (by simp) checkDose_fits (by simp) (by simp)

/-- A run's end queues RUN_ENDED and writes the life counters back (R91, R110). -/
theorem noticeRunEnded_keepsBounds (timeout : Bool) (s : State) : KeepsBounds s (noticeRunEnded timeout s) :=
  .of_frame (by simp) (noticeRunEnded_fits timeout) (by simp) (by simp [noticeRunEnded, writeBack, SameSizes])

theorem completeEnding_keepsBounds (s : State) : KeepsBounds s (completeEnding s) := by
  refine .ite (.of_events (by simp) (enterWaiting_fits _ false) (by simp) (by simp)) (.trans ?_ (noticeRunEnded_keepsBounds ..))
  exact .of_events (by simp) (by simp) (by simp) (by simp)

theorem completeAbort_keepsBounds (timeout : Bool) (s : State) : KeepsBounds s (completeAbort timeout s) := by
  refine .trans ?_ (noticeRunEnded_keepsBounds ..)
  exact .of_events (by simp) (by simp) (by simp) (by simp)

/-- Every command has a meaning, and it keeps the bounds. -/
theorem exec_keepsBounds (c : Instr) (s : State) : ∃ t, exec c s = .next t ∧ KeepsBounds s t := by
  cases c with
  -- resets and start-up
  | powerOn => exact ⟨_, rfl, doReset_keepsBounds ..⟩
  | resetLine =>
    exact ⟨_, rfl, .ite (.of_events rfl id rfl rfl) (.ite (.refl s) (doReset_keepsBounds ..))⟩
  | resetLineActive =>
    exact ⟨_, rfl, .ite (.refl s) (.ite (.of_events rfl id rfl rfl) (doReset_keepsBounds ..))⟩
  | settleEnd => exact ⟨_, rfl, .whenDue _ (.refl s) (endSettle_keepsBounds s).settle⟩
  | listenEnd =>
    exact ⟨_, rfl, whenDue_keepsBounds _ (.refl s) (by simp)
      (fun h => noticeStarted_fits (placeDemand_fits h)) (by simp) (by simp)⟩
  -- PEER and SHR
  | refreshTick =>
    refine ⟨_, rfl, .whenDue _ (.refl s)
      (KeepsBounds.settle ⟨fun q => ⟨by simpa using q.1, ?_⟩, fun h => ?_, by simpa using .refl _⟩)⟩
    · exact (refresh_fits q.2).congr (by simp) (by simp)
    · simpa [TableInRange, TableOk] using TableOk.age h
  | entryStale n =>
    exact ⟨_, rfl, .whenDue _ (.refl s)
      (KeepsBounds.settle ⟨fun q => by simpa [QueuesFit] using q, makeStale_tableOk n, by simpa using .refl _⟩)⟩
  | entryRemoved n =>
    exact ⟨_, rfl, .whenDue _ (.refl s)
      (KeepsBounds.settle ⟨fun q => by simpa [QueuesFit] using q, removeEntry_tableOk n, by simpa using .refl _⟩)⟩
  | isolationBegun =>
    exact ⟨_, rfl, whenDue_keepsBounds _ (.refl s) (by simp) (fun h => settle_fits (beginIsolation_fits h)) (by simp) (by simp)⟩
  | derateDecrement f =>
    exact ⟨_, rfl, whenDue_keepsBounds _ (.refl s) (by simp) (fun h => settle_fits (by simpa using h)) (by simp) (by simp)⟩
  | holdOffExpiry f =>
    exact ⟨_, rfl, whenDue_keepsBounds _ (.refl s) (by simp) (fun h => settle_fits (by simpa using h)) (by simp) (by simp)⟩
  -- the link
  | frameReceived b => exact ⟨_, rfl, endCarrier_keepsBounds b s⟩
  | demandReceived source p => exact ⟨_, rfl, .whenDue _ (.refl s) (takeDemand_keepsBounds source p s).settle⟩
  | stopReceived => exact ⟨_, rfl, .whenDue _ (.refl s) (takeStop_keepsBounds s).settle⟩
  | carrierBegins => exact ⟨_, rfl, .of_events (by simp) beginCarrier_fits (by simp) (by simp)⟩
  | transmitStart => exact ⟨_, rfl, whenDue_keepsBounds _ (.refl s) (by simp) startFrame_fits (by simp) (by simp)⟩
  | frameSent => exact ⟨_, rfl, .whenDue _ (.refl s) (finishFrame_keepsBounds s)⟩
  | echoMismatch => exact ⟨_, rfl, .whenDue _ (.refl s) (mismatchEcho_keepsBounds s)⟩
  -- the orders
  | unknownOrder m p => exact ⟨_, rfl, takeOrder_keepsBounds m p s⟩
  | load m slot => exact ⟨_, rfl, serve_keepsBounds m (carryOut_keepsBounds m.toAll (.load slot) s)⟩
  | unload m => exact ⟨_, rfl, serve_keepsBounds m (carryOut_keepsBounds m.toAll .unload s)⟩
  | start m => exact ⟨_, rfl, serve_keepsBounds m (carryOut_keepsBounds m.toAll .start s)⟩
  | hold m => exact ⟨_, rfl, serve_keepsBounds m (carryOut_keepsBounds m.toAll .hold s)⟩
  | resume m => exact ⟨_, rfl, serve_keepsBounds m (carryOut_keepsBounds m.toAll .resume s)⟩
  | abort m => exact ⟨_, rfl, serve_keepsBounds m (carryOut_keepsBounds m.toAll .abort s)⟩
  | clearFault m => exact ⟨_, rfl, serve_keepsBounds m (carryOut_keepsBounds m.toAll .clearFault s)⟩
  | readResult m i => exact ⟨_, rfl, serve_keepsBounds m (carryOut_keepsBounds m.toAll (.readResult i) s)⟩
  | writeHeader m slot part b =>
    exact ⟨_, rfl, serve_keepsBounds m (ofLength_keepsBounds _ (carryOut_keepsBounds m.toAll (.writeHeader slot part b) s))⟩
  | writeStep m slot i b =>
    exact ⟨_, rfl, serve_keepsBounds m (ofLength_keepsBounds _ (carryOut_keepsBounds m.toAll (.writeStep slot i b) s))⟩
  | closeRecipe m slot => exact ⟨_, rfl, serve_keepsBounds m (carryOut_keepsBounds m.toAll (.closeRecipe slot) s)⟩
  | eraseRecipe m slot => exact ⟨_, rfl, serve_keepsBounds m (carryOut_keepsBounds m.toAll (.eraseRecipe slot) s)⟩
  | eraseStore m => exact ⟨_, rfl, serve_keepsBounds m (carryOut_keepsBounds m.toAll .eraseStore s)⟩
  | lockStore m => exact ⟨_, rfl, serve_keepsBounds m (carryOut_keepsBounds m.toAll .lockStore s)⟩
  | readRecipe m slot kind part =>
    exact ⟨_, rfl, serve_keepsBounds m (carryOut_keepsBounds m.toAll (.readRecipe slot kind part) s)⟩
  | sumRecipe m slot => exact ⟨_, rfl, serve_keepsBounds m (carryOut_keepsBounds m.toAll (.sumRecipe slot) s)⟩
  | writeProfile m profile count b =>
    exact ⟨_, rfl, serve_keepsBounds m (ofLength_keepsBounds _ (carryOut_keepsBounds m.toAll (.writeProfile profile count b) s))⟩
  | diskReplaced m => exact ⟨_, rfl, serve_keepsBounds m (carryOut_keepsBounds m.toAll .diskReplaced s)⟩
  | padReplaced m => exact ⟨_, rfl, serve_keepsBounds m (carryOut_keepsBounds m.toAll .padReplaced s)⟩
  | queryStatus m page => exact ⟨_, rfl, serve_keepsBounds m (carryOut_keepsBounds m.toAll (.queryStatus page) s)⟩
  | clearEvents m mask => exact ⟨_, rfl, serve_keepsBounds m (carryOut_keepsBounds m.toAll (.clearEvents mask) s)⟩
  | restart m => exact ⟨_, rfl, serve_keepsBounds m (carryOut_keepsBounds m.toAll .restart s)⟩
  -- the recipe store
  | eraseStoreTargetDone =>
    exact ⟨_, rfl, .whenDue _ (.refl s) (.of_frame (by simp) (by simp) (by simp) (eraseTarget_sizes s))⟩
  | storeOpComplete =>
    exact ⟨_, rfl, .whenDue _ (.refl s) (.of_frame (by simp) completeOp_fits (by simp) (completeOp_sizes s))⟩
  | accumulationTimeout => exact ⟨_, rfl, .whenDue _ (.refl s) (.of_frame rfl id rfl (.refl _))⟩
  -- the inputs
  | currentSample counts =>
    exact ⟨_, rfl, whenDue_keepsBounds _ (setPins_keepsBounds s _) (by simp) (by simp) (by simp) (by simp)⟩
  | driveTrip d =>
    exact ⟨_, rfl, whenDue_keepsBounds _ (setPins_keepsBounds s _) (by simp)
      (fun h => settle_fits (takeFault_fits _ (by simpa using h))) (by simp) (by simp)⟩
  | driveTripRelease d =>
    exact ⟨_, rfl, whenDue_keepsBounds _ (setPins_keepsBounds s _) (by simp) (by simp) (by simp) (by simp)⟩
  | lineLevelChange l high =>
    refine ⟨_, rfl, .trans (takeAtOnce_keepsBounds l s) (.trans ?_ (takeAtOnce_keepsBounds l _))⟩
    exact .of_events (by simp) (by simp) (by simp) (by simp)
  | modeLinesChange first second => exact ⟨_, rfl, .of_events (by simp) (by simp) (by simp) (by simp)⟩
  | driveFeedback d tach estimate => exact ⟨_, rfl, .of_events (by simp) (by simp) (by simp) (by simp)⟩
  | tachPulse d => exact ⟨_, rfl, .of_events (by simp) (by simp) (by simp) (by simp)⟩
  | measuredPressureChange c value => exact ⟨_, rfl, .of_events (by simp) (by simp) (by simp) (by simp)⟩
  -- the dispense unit's counting and the sequencer's ends
  | strokePulse c =>
    have marked : KeepsBounds s (markFlags (takeStroke c s)) :=
      (takeStroke_keepsBounds c s).trans (.of_events (by simp) (by simp) (by simp) (by simp))
    exact ⟨_, rfl, .whenDue _ (.refl s) (marked.trans (checkDose_keepsBounds _)).settle⟩
  | flowmeterPulse c =>
    exact ⟨_, rfl, .whenDue _ (.refl s) ((takePulse_keepsBounds c s).trans (checkDose_keepsBounds _)).settle⟩
  | minTimeReached =>
    have marked : ∀ q, KeepsBounds s (s.setSeq q) := fun q => .of_events rfl id rfl rfl
    exact ⟨_, rfl, .whenDue _ (.refl s) ((marked _).trans (checkDose_keepsBounds _)).settle⟩
  | endingComplete => exact ⟨_, rfl, .whenDue _ (.refl s) (completeEnding_keepsBounds s).settle⟩
  | abortingComplete => exact ⟨_, rfl, .whenDue _ (.refl s) (completeAbort_keepsBounds false s).settle⟩
  | abortTimeout => exact ⟨_, rfl, .whenDue _ (.refl s) (completeAbort_keepsBounds true s).settle⟩
  | supplyPersist =>
    exact ⟨_, rfl, whenDue_keepsBounds _ (.refl s) (by simp) (fun h => settle_fits (enterHolding_fits _ _ h)) (by simp) (by simp)⟩
  | supplyAir =>
    exact ⟨_, rfl, whenDue_keepsBounds _ (.refl s) (by simp) (fun h => settle_fits (takeFault_fits _ h)) (by simp) (by simp)⟩
  -- the other events of the blocks: what they queue is notices
  | _ =>
    exact ⟨_, rfl, whenDue_keepsBounds _ (.refl s) (by simp) (fun h => by simp -implicitDefEqProofs [h]) (by simp) (by simp)⟩

/-! ### Time -/

/-- A microsecond moves no queue, no peer entry and no slot. -/
theorem tick_keepsBounds (s : State) : KeepsBounds s (tick s) := by
  unfold tick
  split
  · exact .of_events rfl id rfl rfl
  · split
    · exact .of_frame rfl id rfl (.refl _)
    · exact .of_events rfl id rfl rfl

theorem idle_keepsBounds (s : State) : KeepsBounds s (idle s) := by
  unfold idle
  split
  · exact tick_keepsBounds s
  · exact .of_events rfl id rfl rfl
  · exact .of_events rfl id rfl rfl

/-- A step, of the queue or of the part's own, keeps the bounds. -/
theorem step_keepsBounds {s t : State} (h : step s = .next t) : KeepsBounds s t := by
  unfold step at h
  split at h
  · next c rest _ =>
    obtain ⟨u, hu, kept⟩ := exec_keepsBounds c (s.setPending rest)
    obtain rfl : u = t := by simpa [hu] using h
    have queued : KeepsBounds s (s.setPending rest) := .of_events rfl id rfl rfl
    exact queued.trans kept
  · obtain rfl : idle s = t := by simpa using h
    exact idle_keepsBounds s

/-- Settles O57: every command keeps LNK's queues, the peer table and the store within their bounds, and so does time. -/
theorem queuesAndTableKeepTheirBounds : Obligations.QueuesAndTableKeepTheirBounds := by
  unfold Obligations.QueuesAndTableKeepTheirBounds
  refine ⟨fun s t h e => (step_keepsBounds e).queues h, fun s t h e => (step_keepsBounds e).table h, fun s t h e => ?_⟩
  obtain ⟨hs, hp⟩ := (step_keepsBounds e).store
  exact ⟨hs.trans h.1, hp.trans h.2⟩

end Sys2Proof.Machine
end

section
/-! The state after a reset: O5 and O4. -/

namespace Sys2Proof.Machine

open Sys2Proof

/-! ### The invariants at reset -/

theorem reset_queuesFit : QueuesFit State.reset := ⟨Nat.zero_le _, Nat.zero_le _, Nat.zero_le _⟩

theorem reset_tableInRange : TableInRange State.reset := ⟨List.Pairwise.nil, by simp [State.reset, Peer.reset]⟩

theorem reset_holdingIffCaused : HoldingIffCaused State.reset := ⟨by decide, fun h => absurd h (by decide)⟩

theorem reset_valvesApart : ValvesApart State.reset := by
  refine ⟨fun c f g open_f => ?_, fun open_di => absurd open_di (by decide)⟩
  cases c <;> cases f <;> exact absurd open_f (by decide)

theorem reset_grantsHeldOff : GrantsHeldOff State.reset := by
  intro f
  cases f <;> exact ⟨le_rfl, by decide, Nat.zero_le _, Nat.zero_le _⟩

theorem reset_storeSized : StoreSized State.reset := ⟨List.length_replicate, List.length_replicate⟩

theorem reset_headWithin : HeadWithin State.reset := by
  refine ⟨zonesWithin_zero .., zonesWithin_zero .., fun _ ramps => absurd ramps (by simp [State.reset, Hpc.reset]), fun c faulted => ?_,
    fun _ => ⟨rfl, rfl, rfl, rfl⟩⟩
  cases c <;> exact absurd faulted (by decide)

/-! ### The families of like blocks at reset -/

theorem reset_feed (f : Feed) : State.reset.shr.get f = FeedShare.reset := by cases f <;> rfl

theorem reset_chan (c : Channel) : State.reset.chan c = Dispense.reset := by cases c <;> rfl

theorem reset_head (c : HeadCh) : State.reset.head c = HeadChan.reset 0 := by cases c <;> rfl

theorem reset_line (l : Line) : State.reset.line l = { level := .unknown, timer := 0, armed := false, sticky := false } := by
  cases l <;> rfl

theorem reset_drive (d : Drive) : State.reset.drive d = DriveState.reset := by cases d <;> rfl

/-- Settles O5: the values are read off the state after reset, and each invariant holds there. -/
theorem resetValues : Obligations.ResetValues := by
  unfold Obligations.ResetValues
  simp only [reset_feed, FeedShare.reset, reset_chan, Dispense.reset, PerFeed.get_all, Valve.reset, reset_head, HeadChan.reset,
    reset_line, reset_drive, DriveState.reset, reset_queuesFit, reset_tableInRange,
    reset_holdingIffCaused, reset_valvesApart, reset_grantsHeldOff, reset_storeSized, reset_headWithin,
    and_true, true_and, and_self, implies_true]
  and_intros <;> rfl

/-! ### A part held in reset -/

/-- A part held in reset has not started (R195, R199). -/
theorem not_started_of_inReset {s : State} (h : s.inReset = true) : s.started = false := by simp [State.started, h]

/-- A state at its after-reset state, with the store as it was. -/
def StaysReset (s t : State) : Prop := AfterReset t ∧ t.rcp = s.rcp

/-- A reset leaves every block at its after-reset state (R199). -/
theorem doReset_afterReset (cause : ResetCause) (held : Bool) (s : State) : AfterReset (doReset cause held s) :=
  ⟨rfl, rfl, rfl, rfl, rfl, rfl, rfl, rfl, rfl, rfl, rfl, rfl, rfl⟩

section held
variable {s : State}

theorem AfterReset.stays (h : AfterReset s) : StaysReset s s := ⟨h, rfl⟩

/-- The pins are not the part's to reset (R199). -/
theorem AfterReset.of_pins (h : AfterReset s) (p : Pins) : StaysReset s (s.setPins p) := ⟨h, rfl⟩

/-- Whether the line holds the part is CFG's to keep (R199). -/
theorem AfterReset.of_held (h : AfterReset s) (held : Bool) : StaysReset s (s.setCfg { s.cfg with held := held }) := by
  obtain ⟨hcfg, others⟩ := h
  refine ⟨⟨?_, others⟩, rfl⟩
  show { s.cfg with held := held } = Cfg.reset s.cfg.cause held
  rw [hcfg]
  rfl

/-- Another node's carrier goes on over a reset (R193). -/
theorem AfterReset.of_carrier (h : AfterReset s) (x : Option Bool) : StaysReset s (s.setLnk (.reset x)) := by
  obtain ⟨hcfg, hpeer, hshr, hsdu, hseq, hop, hacc, hhpc, hpcc, hepm, hilk, hdrv, -⟩ := h
  exact ⟨⟨hcfg, hpeer, hshr, hsdu, hseq, hop, hacc, hhpc, hpcc, hepm, hilk, hdrv, rfl⟩, rfl⟩

theorem AfterReset.lnk (h : AfterReset s) : s.lnk = .reset s.lnk.carrier := by
  obtain ⟨-, -, -, -, -, -, -, -, -, -, -, -, hlnk⟩ := h
  exact hlnk

theorem AfterReset.ilk (h : AfterReset s) : s.ilk = .reset := by
  obtain ⟨-, -, -, -, -, -, -, -, -, -, hilk, -, -⟩ := h
  exact hilk

theorem AfterReset.drv (h : AfterReset s) : s.drv = .reset := by
  obtain ⟨-, -, -, -, -, -, -, -, -, -, -, hdrv, -⟩ := h
  exact hdrv

theorem AfterReset.drive (h : AfterReset s) (d : Drive) : s.drive d = .reset := by
  rw [State.drive, h.drv]
  cases d <;> rfl

theorem AfterReset.setDrive (h : AfterReset s) (d : Drive) : s.setDrive d .reset = s := by
  have same : { s.drv with drive := s.drv.drive.set d .reset } = s.drv := by
    rw [h.drv]
    cases d <;> rfl
  rw [State.setDrive, same]
  rfl

/-- The drives' timers of a part in reset stand at 0, so that clearing one changes nothing (R176). -/
theorem AfterReset.judgeSpeed (h : AfterReset s) (d : Drive) : judgeSpeed d s = s := by
  unfold Machine.judgeSpeed
  split
  · rfl
  · rw [h.drive d]
    exact h.setDrive d

theorem AfterReset.takeFeedback (h : AfterReset s) (d : Drive) (tach estimate : Nat) :
    StaysReset s (takeFeedback d tach estimate s) := by
  unfold Machine.takeFeedback
  dsimp only
  generalize hu : s.setPins _ = u
  obtain ⟨hr, hrcp⟩ : StaysReset s u := hu ▸ h.of_pins _
  have agreed : u.setDrive d { u.drive d with agreement := 0 } = u := by
    rw [hr.drive d]
    exact hr.setDrive d
  rw [agreed, ite_self, hr.judgeSpeed d]
  exact ⟨hr, hrcp⟩

theorem AfterReset.takeTachPulse (h : AfterReset s) (d : Drive) : takeTachPulse d s = s := by
  rw [Machine.takeTachPulse, h.drive d]
  exact h.setDrive d

theorem AfterReset.setModeLines (h : AfterReset s) (first second : Bool) : StaysReset s (setModeLines first second s) := by
  have timer : { s.ilk with modeTimer := 0 } = s.ilk := by
    rw [h.ilk]
    rfl
  unfold Machine.setModeLines
  dsimp only
  split
  · rw [State.setPins_ilk, timer]
    exact h.of_pins _
  · exact h.of_pins _

/-- A reset keeps the store of a part that stands at its after-reset state. -/
theorem AfterReset.of_reset (h : AfterReset s) (cause : ResetCause) (held : Bool) : StaysReset s (doReset cause held s) := by
  obtain ⟨-, -, -, -, -, hop, hacc, -⟩ := h
  refine ⟨doReset_afterReset cause held s, ?_⟩
  show { s.rcp with op := none, accumulation := 0 } = s.rcp
  rw [← hop, ← hacc]

/-- A reading of a vented head changes its measured value alone (R130). -/
theorem measure_hpc_of_reset {m : PerHead Nat} (h : s.hpc = .reset m) (c : HeadCh) (v : Nat) :
    (measure c v s).hpc = .reset (m.set c v) := by
  have chan : s.head c = .reset (m.get c) := by
    rw [State.head, h]
    cases c <;> rfl
  simp only [measure, chan, State.setHead, State.setHpc_hpc, h, HeadChan.reset, ite_self, Bool.false_and]
  cases c <;> rfl

theorem AfterReset.of_reading (h : AfterReset s) (c : HeadCh) (v : Nat) : StaysReset s (measure c v s) := by
  obtain ⟨hcfg, hpeer, hshr, hsdu, hseq, hop, hacc, hhpc, hpcc, hepm, hilk, hdrv, hlnk⟩ := h
  refine ⟨⟨hcfg, hpeer, hshr, hsdu, hseq, hop, hacc, ?_, hpcc, hepm, hilk, hdrv, hlnk⟩, rfl⟩
  rw [measure_hpc_of_reset hhpc]
  rfl

/-- With every line UNKNOWN a raw level that changes is a pin that changes (R164, R176). -/
theorem AfterReset.setRaw (h : AfterReset s) (l : Line) (high : Bool) :
    setRaw l high s = s.setPins { s.pins with lines := s.pins.lines.set l high } := by
  have unknown : ((s.setPins { s.pins with lines := s.pins.lines.set l high }).line l).level = .unknown := by
    simp only [State.line, State.setPins_ilk, h.ilk]
    cases l <;> rfl
  simp [Machine.setRaw, debouncing, unknown, levelIs]

end held

/-- While the part is in reset every command leaves its blocks at their after-reset state (R199). -/
theorem exec_of_inReset {s : State} (hr : s.inReset = true) (h : AfterReset s) (c : Instr) :
    ∃ t, exec c s = .next t ∧ StaysReset s t := by
  have hs := not_started_of_inReset hr
  have event : ∀ due f, StaysReset s (whenDue (s.started && due) s f) := fun due f => by rw [hs]; exact h.stays
  have order : ∀ m o, StaysReset s (serve m o s) := fun m o => by
    rw [serve_dropped (by simp [takesOrder, hs])]
    exact h.stays
  cases c with
  | powerOn => exact ⟨_, rfl, h.of_reset ..⟩
  | resetLine =>
    refine ⟨_, rfl, ?_⟩
    unfold releaseReset
    split
    · exact h.of_held false
    · split
      · exact h.stays
      · exact h.of_reset ..
  | resetLineActive =>
    refine ⟨_, rfl, ?_⟩
    unfold activateReset
    split
    · exact h.stays
    · split
      · exact h.of_held true
      · exact h.of_reset ..
  | settleEnd => exact ⟨_, rfl, by simpa [settleDue, hr] using h.stays⟩
  | listenEnd => exact ⟨_, rfl, by simpa [hr] using h.stays⟩
  | modeDecoded => exact ⟨_, rfl, by simpa [modeDue, hr] using h.stays⟩
  | transmitStart => exact ⟨_, rfl, by simpa [transmitDue, hr] using h.stays⟩
  | demandReceived source p => exact ⟨_, rfl, by simpa [hs] using h.stays⟩
  | stopReceived => exact ⟨_, rfl, by simpa [hs] using h.stays⟩
  | strokePulse c => exact ⟨_, rfl, by simpa [hs] using h.stays⟩
  | flowmeterPulse c => exact ⟨_, rfl, by simpa [hs] using h.stays⟩
  | debounceExpiry l => exact ⟨_, rfl, by simpa [debounceDue, hs] using h.stays⟩
  | frameReceived b =>
    refine ⟨_, rfl, ?_⟩
    have ended : endCarrier b s = s.setLnk (.reset none) := by
      simp only [endCarrier, takesFrame, hs, Bool.false_and, Bool.false_eq_true, if_false]
      rw [h.lnk]
      rfl
    rw [ended]
    exact h.of_carrier none
  | carrierBegins =>
    refine ⟨_, rfl, ?_⟩
    unfold beginCarrier
    split
    · exact h.stays
    · rw [h.lnk]
      exact h.of_carrier (some true)
  | currentSample counts => exact ⟨_, rfl, by simpa [hr] using h.of_pins _⟩
  | driveTrip d => exact ⟨_, rfl, by simpa [hs, setTrip] using h.of_pins _⟩
  | driveTripRelease d => exact ⟨_, rfl, by simpa [hs, setTrip] using h.of_pins _⟩
  | measuredPressureChange c v => exact ⟨_, rfl, h.of_reading c v⟩
  | lineLevelChange l high =>
    refine ⟨_, rfl, ?_⟩
    have none_due : ∀ u : State, u.started = false → takeAtOnce l u = u := fun u hu => by simp [takeAtOnce, debounceDue, hu]
    rw [none_due s hs, h.setRaw, none_due]
    · exact h.of_pins _
    · exact hs
  | modeLinesChange first second => exact ⟨_, rfl, h.setModeLines first second⟩
  | driveFeedback d tach estimate => exact ⟨_, rfl, h.takeFeedback d tach estimate⟩
  | tachPulse d =>
    refine ⟨_, rfl, ?_⟩
    rw [h.takeTachPulse d]
    exact h.stays
  | unknownOrder m p =>
    refine ⟨_, rfl, ?_⟩
    unfold takeOrder
    split <;> exact order ..
  | load | unload | start | hold | resume | abort | clearFault | readResult | writeHeader | writeStep | closeRecipe | eraseRecipe
  | eraseStore | lockStore | readRecipe | sumRecipe | writeProfile | diskReplaced | padReplaced | queryStatus | clearEvents
  | restart => exact ⟨_, rfl, order ..⟩
  | _ => exact ⟨_, rfl, event ..⟩

/-- With no command waiting, only the time passes while the part is in reset (R199). -/
theorem step_of_inReset {s : State} (hr : s.inReset = true) (hp : s.pending = []) :
    step s = .next { s with now := s.now + 1 } := by
  have none_due : dueList s = [] := by
    simp [dueList, settleDue, modeDue, sampleDue, not_started_of_inReset hr, hr, ifDue]
  have idled : idle s = s.setNow (s.now + 1) := by simp [idle, none_due, tick, hr]
  have own : step s = .next (idle s) := by simp [step, hp]
  rw [own, idled]
  rfl

/-- A RESTART order that takes no ANSWER resets the station at once (R202). -/
theorem exec_restart_now {m : OrderMeta} {s : State} (ht : takesOrder m s = true) (hm : s.ilk.mode ≠ .lockout)
    (hq : s.seq.state.atRest = true) (hn : m.toAll = true ∨ s.silent = true) :
    exec (.restart m) s = .next (doReset .restartOrder false s) := by
  have unanswered : (m.toAll || s.silent) = true := by simpa using hn
  have reply : orderRestart m.toAll s = .bare (doReset .restartOrder false s) .ok := by
    simp [orderRestart, hm, hq, unanswered]
  show Host.Outcome.next (serve m (orderRestart m.toAll) s) = _
  simp only [serve, ht, reply, unanswered, if_true, Reply.bare]

/-- Settles O4: a reset is the state after power-on with what the part keeps, and a part in reset stays there. -/
theorem resetsReturnEveryBlock : Obligations.ResetsReturnEveryBlock := by
  unfold Obligations.ResetsReturnEveryBlock
  intro s
  dsimp only
  have inReset : s.cfg.held = true ∨ s.pins.supplyLow = true → s.inReset = true := fun h => by simpa [State.inReset] using h
  refine ⟨rfl, ?_, ?_, fun m ht hm hq hn => exec_restart_now ht hm hq hn,
    fun cause held => ⟨rfl, doReset_afterReset cause held s⟩, fun hr h c => ?_, fun hr hp => step_of_inReset (inReset hr) hp⟩
  · exact congrArg Host.Outcome.next (by unfold activateReset; rfl)
  · exact congrArg Host.Outcome.next (by unfold releaseReset; rfl)
  · exact exec_of_inReset (inReset hr) h c

end Sys2Proof.Machine
end

section
/-! The end of LISTEN, and what one step on an empty queue does: O8 and O2. -/

namespace Sys2Proof.Machine

open Sys2Proof

/-! ### Started and not silent -/

theorem inReset_eq_false {s : State} (hh : s.cfg.held = false) (hl : s.pins.supplyLow = false) : s.inReset = false := by
  simp [State.inReset, hh, hl]

theorem not_inReset_of_started {s : State} (h : s.started = true) : s.inReset = false := by
  simp only [State.started, Bool.and_eq_true, Bool.not_eq_true'] at h
  exact h.1

/-- A notice placed by a link that is not silent (R178, R186). -/
theorem placeNotice_eq {s : State} (h : s.silent = false) (kind : Nat) (body : List Byte) :
    placeNotice kind body s = { s with lnk := { s.lnk with
      notices := if s.lnk.notices.length < 8 then s.lnk.notices ++ [⟨.notice, 0, [byteOf kind, 0] ++ body, 0⟩] else s.lnk.notices
      lost := if s.lnk.notices.length < 8 then s.lnk.lost else min 255 (s.lnk.lost + 1) } } := by
  simp only [placeNotice, h, Bool.false_eq_true, if_false]
  by_cases full : 8 ≤ s.lnk.notices.length
  · rw [if_pos full, if_neg (by omega), if_neg (by omega)]
    rfl
  · rw [if_neg full, if_pos (by omega), if_pos (by omega)]
    rfl

/-- A DEMAND placed in READY fills its slot, and the frame on the line learns that its slot has been filled anew (R13, R178). -/
theorem placeDemand_of_ready {s : State} (h : s.cfg.startUp = .ready) :
    placeDemand s = { s with lnk := { s.lnk with
      demandSlot := some ⟨.demand, 0, s.peer.own.payload, 0⟩
      sending := s.lnk.sending.map (fun x => if x.frame.kind = .demand then { x with replaced := true } else x) } } := by
  have heard : s.silent = false := by simp [State.silent, h]
  simp [placeDemand, h, placeDemandFrame, heard, State.setLnk, Frame.new, markReplaced]

/-- Settles O8: READY's two frames, one after the other. -/
theorem listenEndEntersReady : Obligations.ListenEndEntersReady := by
  unfold Obligations.ListenEndEntersReady
  intro s hheld hlow hlisten hticks
  have due : (!s.inReset && listenDue s) = true := by simp [inReset_eq_false hheld hlow, listenDue, hlisten, hticks]
  show Host.Outcome.next (whenDue (!s.inReset && listenDue s) s enterReady) = _
  rw [due, whenDue_true, enterReady, placeDemand_of_ready rfl, noticeStarted, placeNotice_eq (by rfl)]
  rfl

/-! ### A step on an empty queue -/

/-- An empty queue takes an event of the part's own that is due (log entries 1 and 3). -/
theorem idle_of_due {s : State} (h : dueList s ≠ []) :
    ∃ i ∈ dueList s, ∃ n, idle s = { s with pending := [i], freeCount := n } := by
  unfold idle
  split
  · next e => exact absurd e h
  · next i e => exact ⟨i, by simp [e], s.freeCount, rfl⟩
  · next i rest _ e =>
    have inside : Config.dueOrder s.freeCount % (i :: rest).length < (i :: rest).length := Nat.mod_lt _ (by simp)
    refine ⟨(i :: rest).getD (Config.dueOrder s.freeCount % (i :: rest).length) i, ?_, s.freeCount + 1, rfl⟩
    rw [e, List.getD_eq_getElem _ _ inside]
    exact List.getElem_mem inside

theorem step_of_empty {s : State} (h : s.pending = []) : step s = .next (idle s) := by simp [step, h]

/-- A microsecond of a started part, block by block. -/
theorem tick_of_started {s : State} (h : s.started = true) :
    tick s = { s with
      cfg := tickCfg s, peer := tickPeer s, sdu := tickSdu s, seq := tickSeq s, rcp := tickRcp s, hpc := tickHpc s,
      pcc := tickPcc s, epm := tickEpm s, ilk := tickIlk s, drv := tickDrv s, lnk := tickLnk s, pins := tickPins s,
      now := s.now + 1 } := by
  simp [tick, not_inReset_of_started h, h]

/-- A timer that runs while a condition holds and stands otherwise, read with the condition as a proposition. -/
theorem runOrStand_eq {p : Prop} [Decidable p] {b : Bool} (h : b = true ↔ p) (limit t : Nat) :
    runOrStand b limit t = if p then min limit (t + 1) else t := by
  by_cases hp : p
  · simp [runOrStand, h.2 hp, hp, run]
  · have off : b = false := Bool.eq_false_iff.2 (fun hb => hp (h.1 hb))
    simp [runOrStand, off, hp]

/-- Settles O2: an empty queue takes what is due, else a microsecond passes, in which each step timer runs in its own state. -/
theorem timePassesWhenNothingIsDue : Obligations.TimePassesWhenNothingIsDue := by
  unfold Obligations.TimePassesWhenNothingIsDue
  refine ⟨fun s hp => ⟨fun hd => ?_, fun hd => ?_⟩, fun s hs => ?_⟩
  · rw [step_of_empty hp, idle, hd]
  · obtain ⟨i, hi, n, e⟩ := idle_of_due hd
    exact ⟨i, hi, n, by rw [step_of_empty hp, e]⟩
  · rw [tick_of_started hs]
    refine ⟨runOrStand_eq (by simp) .., runOrStand_eq (by simp) .., ?_, rfl, rfl, rfl⟩
    have limit : ms (1000 * s.img.waitingLimit) = 1000000 * s.img.waitingLimit := by
      unfold ms
      ring
    rw [← limit]
    exact runOrStand_eq (by simp) ..

end Sys2Proof.Machine
end

section
/-! Frames and DEMAND payloads read back as they were built: O15. -/

namespace Sys2Proof.Machine

open Sys2Proof

/-! ### Bytes -/

theorem byteOf_toNat (n : Nat) : (byteOf n).toNat = n % 256 := BitVec.toNat_ofNat n 8

theorem byteSum_append (xs ys : List Byte) : byteSum (xs ++ ys) = byteSum xs + byteSum ys := by
  induction xs with
  | nil => simp [byteSum]
  | cons x r ih =>
    simp only [byteSum, List.cons_append, List.foldr_cons] at ih ⊢
    omega

/-- The check byte completes the sum to a multiple of 256 (R187). -/
theorem byteSum_check (bs : List Byte) : byteSum (bs ++ [checkByte bs]) % 256 = 0 := by
  have check : byteSum [checkByte bs] = (256 - byteSum bs % 256) % 256 := by simp [byteSum, checkByte, byteOf_toNat]
  rw [byteSum_append, check]
  omega

/-! ### A frame -/

theorem frameBytes_eq (src dest kind : Nat) (tag : Byte) (payload : List Byte) : ∃ check,
    frameBytes src dest kind tag payload =
      byteOf (16 * src + dest) :: byteOf kind :: tag :: byteOf payload.length :: (payload ++ [check]) := ⟨_, rfl⟩

/-- The header byte gives back both node numbers (R187). -/
theorem nodes_readBack {src dest : Nat} (hs : src ≤ 14) (hd : dest ≤ 15) :
    bitsAt (byteOf (16 * src + dest)).toNat 4 4 = src ∧ bitsAt (byteOf (16 * src + dest)).toNat 0 4 = dest := by
  rw [byteOf_toNat]
  simp only [bitsAt]
  omega

theorem kindOf_numKindOf (k : FrameKind) : kindOf (byteOf (numKindOf k)).toNat = some k := by cases k <;> rfl

/-- A frame that is built reads back (R181, R187). -/
theorem frame_readsBack (src dest : Nat) (k : FrameKind) (tag : Byte) (payload : List Byte) (hs : src ≤ 14) (hd : dest ≤ 15)
    (hp : payload.length ≤ 48) :
    let b := frameBytes src dest (numKindOf k) tag payload
    b.length = 5 + payload.length ∧ lengthGood b = true ∧ sumGood b = true ∧ sourceOf b = src ∧ targetNode b = dest ∧
      kindOf (rd b 1) = some k ∧ par b 2 = tag ∧ payloadOf b = payload := by
  intro b
  have sum : sumGood b = true := beq_iff_eq.2 (byteSum_check _)
  obtain ⟨check, hb⟩ : ∃ check, b = _ := frameBytes_eq src dest (numKindOf k) tag payload
  obtain ⟨source, target⟩ := nodes_readBack hs hd
  have length : b.length = 5 + payload.length := by
    rw [hb]
    simp
    omega
  have count : rd b 3 = payload.length := by
    rw [hb]
    simpa [rd, byteOf_toNat] using by omega
  refine ⟨length, by simp [lengthGood, length, count, hp], sum, ?_, ?_, ?_, ?_, ?_⟩
  · rw [hb]; exact source
  · rw [hb]; exact target
  · rw [hb]; exact kindOf_numKindOf k
  · rw [hb]; rfl
  · rw [payloadOf, count, hb]
    simp

/-! ### A DEMAND payload -/

theorem le2_readBack {n : Nat} (h : n < 65536) : (byteOf n).toNat + 256 * (byteOf (n / 256)).toNat = n := by
  simp only [byteOf_toNat]
  omega

theorem feedOf_numFeed (f : Feed) : feedOf (numFeed f) = some f := by cases f <;> rfl

theorem numFeed_le (f : Feed) : numFeed f ≤ 3 := by cases f <;> decide

theorem numFeed_inj {f g : Feed} (h : numFeed f = numFeed g) : f = g := by
  have same : some f = some g := by rw [← feedOf_numFeed f, h, feedOf_numFeed g]
  exact Option.some.inj same

/-- The first byte of an item gives back its feed, its mark and its weight (Table 10-6). -/
theorem itemHead_readBack (f : Feed) (low : Bool) {w : Nat} (h : w ≤ 8) :
    let n := (byteOf (numFeed f + 8 * (if low then 1 else 0) + 16 * w)).toNat
    bitsAt n 0 3 = numFeed f ∧ (bitsAt n 3 1 == 1) = low ∧ bitsAt n 4 4 = w := by
  have hf := numFeed_le f
  simp only [byteOf_toNat, bitsAt]
  cases low <;> simp <;> omega

/-- An item in its ranges that stands at its place in a payload survives the cleaning of R3. -/
theorem cleanItem_eq {p : List Byte} {i : Nat} {it : Item} (h : it.InRange)
    (head : rd p (2 + 5 * i) = (byteOf (numFeed it.feed + 8 * (if it.low then 1 else 0) + 16 * it.w)).toNat)
    (hq : rd2 p (3 + 5 * i) = it.q) (hm : rd2 p (5 + 5 * i) = it.m) :
    cleanItem p i = it ∧ itemFeed p i = numFeed it.feed := by
  obtain ⟨q_le, m_le, w_pos, w_le⟩ := h
  obtain ⟨hf, hlow, hw⟩ := itemHead_readBack it.feed it.low w_le
  have feed : itemFeed p i = numFeed it.feed := by rw [itemFeed, head, hf]
  refine ⟨?_, feed⟩
  have w_eq : max 1 (min 8 it.w) = it.w := by omega
  have q_eq : min it.q 1000 = it.q := by omega
  have m_eq : min it.m it.q = it.m := by omega
  simp only [cleanItem, feed, feedOf_numFeed, Option.getD_some, hq, hm, head, hlow, hw, w_eq, q_eq, m_eq]

theorem Item.bytes_length (i : Item) : i.bytes.length = 5 := rfl

/-- Byte `j` of item `i` in the items of a payload. -/
theorem itemBytes_getD {its : List Item} {i : Nat} (hi : i < its.length) {j : Nat} (hj : j < 5) :
    (its.flatMap Item.bytes).getD (5 * i + j) 0 = (its[i].bytes).getD j 0 := by
  induction its generalizing i with
  | nil => simp at hi
  | cons it r ih =>
    rw [List.flatMap_cons]
    cases i with
    | zero =>
      rw [Nat.mul_zero, Nat.zero_add, List.getD_append _ _ _ _ (by rw [Item.bytes_length]; exact hj)]
      rfl
    | succ i =>
      rw [List.getD_append_right _ _ _ _ (by rw [Item.bytes_length]; omega), Item.bytes_length]
      have place : 5 * (i + 1) + j - 5 = 5 * i + j := by omega
      rw [place, ih (by simpa using hi)]
      rfl

/-- Items in their ranges read back from the payload that carries them. -/
theorem items_readBack (x n : Byte) {its : List Item} (h : ∀ it ∈ its, it.InRange) {i : Nat} (hi : i < its.length) :
    cleanItem (x :: n :: its.flatMap Item.bytes) i = its[i] ∧
    itemFeed (x :: n :: its.flatMap Item.bytes) i = numFeed its[i].feed := by
  have range := h _ (List.getElem_mem hi)
  have place : ∀ j, j < 5 → rd (x :: n :: its.flatMap Item.bytes) (2 + 5 * i + j) = ((its[i].bytes).getD j 0).toNat := by
    intro j hj
    have shift : 2 + 5 * i + j = 5 * i + j + 1 + 1 := by omega
    rw [rd, shift, List.getD_cons_succ, List.getD_cons_succ, itemBytes_getD hi hj]
  have q_le := range.1
  have m_le := range.2.1
  refine cleanItem_eq range (place 0 (by omega)) ?_ ?_
  · rw [rd2, show 3 + 5 * i = 2 + 5 * i + 1 by omega, show 2 + 5 * i + 1 + 1 = 2 + 5 * i + 2 by omega,
      place 1 (by omega), place 2 (by omega)]
    exact le2_readBack (by omega)
  · rw [rd2, show 5 + 5 * i = 2 + 5 * i + 3 by omega, show 2 + 5 * i + 3 + 1 = 2 + 5 * i + 4 by omega,
      place 3 (by omega), place 4 (by omega)]
    exact le2_readBack (by omega)

theorem numSummary_readBack (x : Summary) :
    (byteOf (numSummary x)).toNat ≤ 3 ∧ summaryOf (byteOf (numSummary x)).toNat = x ∧
    ((byteOf (numSummary x)).toNat = 0 → x = .idle) := by
  cases x <;> decide

theorem OwnRecord.items_length (r : OwnRecord) : r.items.length ≤ 2 := by
  obtain ⟨_, main, additive⟩ := r
  cases main <;> cases additive <;> simp [OwnRecord.items]

theorem itemBytes_length (its : List Item) : (its.flatMap Item.bytes).length = 5 * its.length := by
  induction its with
  | nil => rfl
  | cons it r ih => rw [List.flatMap_cons, List.length_append, ih, Item.bytes_length, List.length_cons]; omega

/-- A DEMAND built from a record in its ranges passes R3's checks elsewhere and gives an entry with its state and items (R2, R3, R188). -/
theorem demand_readsBack (n : Nat) (r : OwnRecord) (hn : n ≠ 15) (hr : ∀ i ∈ r.items, i.InRange)
    (hd : (r.items.map Item.feed).Nodup) (hi : r.summary = .idle → r.items = []) :
    demandOk n r.payload = true ∧ entryOf n r.payload = ⟨n, .present, r.summary, r.items, 0⟩ := by
  have payload : r.payload = byteOf (numSummary r.summary) :: byteOf r.items.length :: r.items.flatMap Item.bytes := rfl
  obtain ⟨state_le, state, idle⟩ := numSummary_readBack r.summary
  have two := r.items_length
  have count : itemCount r.payload = r.items.length := by
    rw [payload]
    exact (byteOf_toNat _).trans (Nat.mod_eq_of_lt (by omega))
  have read := fun {i} (h : i < r.items.length) =>
    payload ▸ items_readBack (byteOf (numSummary r.summary)) (byteOf r.items.length) hr h
  refine ⟨(demandOk_iff n _).2 ⟨hn, ?_, by omega, state_le, fun h => ?_, fun i h => ?_, fun h => ?_⟩, ?_⟩
  · rw [count, payload]
    rw [List.length_cons, List.length_cons, itemBytes_length]
    omega
  · rw [count, hi (idle h)]
    rfl
  · rw [(read (count ▸ h)).2]
    exact numFeed_le _
  · rw [(read (by omega)).2, (read (by omega)).2]
    intro same
    have two' : (r.items.map Item.feed).length = 2 := by rw [List.length_map, ← count, h]
    have differ : ¬ (r.items.map Item.feed)[0] = (r.items.map Item.feed)[1] := by
      rw [hd.getElem_inj_iff]
      omega
    exact differ (by simpa using numFeed_inj same)
  · have items : (List.range (itemCount r.payload)).map (cleanItem r.payload) = r.items := by
      refine List.ext_getElem (by simp [count]) fun i h _ => ?_
      rw [List.getElem_map, List.getElem_range]
      exact (read (by simpa [count] using h)).1
    have first : rd r.payload 0 = (byteOf (numSummary r.summary)).toNat := by rw [payload]; rfl
    rw [entryOf, items, first, state]

/-- Settles O15: the frame part and the DEMAND part. -/
theorem framesAndDemandsReadBack : Obligations.FramesAndDemandsReadBack := by
  unfold Obligations.FramesAndDemandsReadBack
  exact ⟨frame_readsBack, demand_readsBack⟩

end Sys2Proof.Machine
end

section
/-! The runs of SHR for an entry that goes STALE or leaves, and isolation: O10. -/

namespace Sys2Proof.Machine

open Sys2Proof

/-! ### Operations that change SHR alone -/

/-- `t` is `s` with another state of SHR. -/
def ShrAlone (s t : State) : Prop := t = s.setShr t.shr

theorem ShrAlone.refl (s : State) : ShrAlone s s := rfl

theorem ShrAlone.trans {s t u : State} (h : ShrAlone s t) (h' : ShrAlone t u) : ShrAlone s u := by
  unfold ShrAlone at *
  rw [h', h]
  rfl

theorem ShrAlone.ite {s t : State} (b : Bool) (h : ShrAlone s t) : ShrAlone s (if b then t else s) := by
  cases b
  · exact .refl s
  · exact h

theorem shrRun_alone (f : Feed) (s : State) : ShrAlone s (shrRun f s) := by
  unfold shrRun
  split
  · rfl
  · rfl

theorem shrRuns_alone (v : PerFeed Bool) (s : State) : ShrAlone s (shrRuns v s) :=
  (((ShrAlone.ite _ (shrRun_alone .a _)).trans (.ite _ (shrRun_alone .b _))).trans
    (.ite _ (shrRun_alone .c _))).trans (.ite _ (shrRun_alone .d _))

theorem markSeen_alone (f : Feed) (s : State) : ShrAlone s (markSeen f s) :=
  have marked : ShrAlone s (s.setShr (s.shr.set f ((s.shr.get f).mark s.now s.period))) := rfl
  marked.trans (.ite _ (shrRun_alone f _))

/-- The runs give each feed named the grant that the inputs give when the runs are over (R18). -/
theorem shrRuns_runs (v : PerFeed Bool) (f : Feed) {s : State} (h : s.started = true) :
    (shrRuns v s).shr.get f =
      if v.get f = true then (s.shr.get f).take (computedGrant (shrRuns v s) f) s.now s.period else s.shr.get f := by
  have grant : computedGrant (shrRuns v s) f = computedGrant s f :=
    computedGrant_congr f (by simp) (by simp) (shrRuns_sameMarks v s f).1
  rw [grant, shrRuns_get v f h]

/-! ### The blocks SEQ directs -/

/-- The blocks SEQ directs stand through the carrying of a change that left them alone, outside RUNNING and HOLDING. -/
theorem DirectedBlocksStand.settle {s u : State} (h : DirectedBlocksStand s u) (hr : s.seq.state ≠ .running)
    (hh : s.seq.state ≠ .holding) : DirectedBlocksStand s (settle u) := by
  obtain ⟨seq, hpc, pcc, epm, drv, notices, lost, lowFeeds, di⟩ := h
  have hr' : u.seq.state ≠ .running := by rw [seq]; exact hr
  have hh' : u.seq.state ≠ .holding := by rw [seq]; exact hh
  obtain ⟨seq', hpc', pcc', epm', drv', notices', lost', lowFeeds', di', -⟩ := settle_calm hr' hh'
  exact ⟨seq'.trans seq, hpc'.trans hpc, pcc'.trans pcc, epm'.trans epm, drv'.trans drv, notices'.trans notices,
    lost'.trans lost, lowFeeds'.trans lowFeeds, di'.trans di⟩

/-! ### A table that changes -/

/-- The table replaced and SHR run for the feeds of an entry (R6). -/
theorem tableChange_runs (e : PeerEntry) (table : List PeerEntry) {s : State} (h : s.started = true) :
    let u := shrRuns (.of (fun f => e.names f)) (s.setPeer { s.peer with table := table })
    u = { s with shr := u.shr, peer := { s.peer with table := table } } ∧
    ∀ f : Feed, u.shr.get f =
      if e.names f = true then (s.shr.get f).take (computedGrant u f) s.now s.period else s.shr.get f := by
  intro u
  refine ⟨shrRuns_alone _ _, fun f => ?_⟩
  have started : (s.setPeer { s.peer with table := table }).started = true := h
  have runs := shrRuns_runs (.of (fun f => e.names f)) f started
  rw [PerFeed.get_of] at runs
  exact runs

/-- What a change of the table with its runs of SHR leaves alone when it is carried through. -/
theorem tableChange_keeps {s u : State} {table : List PeerEntry}
    (h : u = { s with shr := u.shr, peer := { s.peer with table := table } }) :
    (settle u).peer.table = table ∧ (settle u).peer.quiet = s.peer.quiet ∧ (settle u).peer.isolated = s.peer.isolated ∧
    (settle u).cfg = s.cfg ∧ (settle u).rcp = s.rcp ∧ (settle u).ilk = s.ilk ∧ (settle u).pins = s.pins ∧
    (settle u).sdu.dose = s.sdu.dose ∧ (settle u).pending = s.pending ∧
    (s.seq.state ≠ .running → s.seq.state ≠ .holding → DirectedBlocksStand s (settle u)) := by
  have directed : DirectedBlocksStand s u := by
    rw [h]
    exact ⟨rfl, rfl, rfl, rfl, rfl, rfl, rfl, rfl, rfl⟩
  refine ⟨?_, ?_, ?_, ?_, ?_, ?_, ?_, ?_, ?_, directed.settle⟩ <;> simp <;> rw [h]

/-! ### STALE entries, removal, isolation -/

theorem staleDue_of_found {s : State} {n : Nat} {e : PeerEntry} (found : findEntry n s.peer.table = some e)
    (present : e.presence = .present) (age : 3 ≤ e.age) : staleDue n s = true := by
  simp [staleDue, found, present, age]

theorem removeDue_of_found {s : State} {n : Nat} {e : PeerEntry} (found : findEntry n s.peer.table = some e)
    (age : 8 ≤ e.age) : removeDue n s = true := by
  simp [removeDue, found, age]

theorem makeStale_of_found {s : State} {n : Nat} {e : PeerEntry} (found : findEntry n s.peer.table = some e) :
    makeStale n s = shrRuns (.of (fun f => e.names f))
      (s.setPeer { s.peer with table := putEntry { e with presence := .stale } s.peer.table }) := by
  simp [makeStale, found]

theorem removeEntry_of_found {s : State} {n : Nat} {e : PeerEntry} (found : findEntry n s.peer.table = some e) :
    removeEntry n s = shrRuns (.of (fun f => e.names f)) (s.setPeer { s.peer with table := dropEntry n s.peer.table }) := by
  simp [removeEntry, found]

/-- R5, the third missed period. -/
theorem entryStale_spec {s : State} {n : Nat} {e : PeerEntry} (started : s.started = true)
    (found : findEntry n s.peer.table = some e) (present : e.presence = .present) (age : 3 ≤ e.age) :
    exec (.entryStale n) s = .next (settle (makeStale n s)) := by
  have due : (s.started && staleDue n s) = true := by rw [started, staleDue_of_found found present age]; rfl
  exact congrArg Host.Outcome.next (if_pos due)

/-- R5, the eighth missed period. -/
theorem entryRemoved_spec {s : State} {n : Nat} {e : PeerEntry} (started : s.started = true)
    (found : findEntry n s.peer.table = some e) (age : 8 ≤ e.age) :
    exec (.entryRemoved n) s = .next (settle (removeEntry n s)) := by
  have due : (s.started && removeDue n s) = true := by rw [started, removeDue_of_found found age]; rfl
  exact congrArg Host.Outcome.next (if_pos due)

/-- R15: isolation begins once every entry of age 8 has left, and not before. -/
theorem isolationBegun_spec {s : State} (started : s.started = true) (quiet : 8 ≤ s.peer.quiet)
    (clear : s.peer.isolated = false) :
    ((∀ e ∈ s.peer.table, e.age < 8) → exec .isolationBegun s = .next (settle (beginIsolation s))) ∧
    ((∃ e ∈ s.peer.table, 8 ≤ e.age) → exec .isolationBegun s = .next s) := by
  constructor
  · intro young
    have due : (s.started && isolationDue s) = true := by simpa [started, isolationDue, quiet, clear] using young
    exact congrArg Host.Outcome.next (if_pos due)
  · intro old
    have due : ¬ (s.started && isolationDue s) = true := by simpa [started, isolationDue, quiet, clear] using old
    exact congrArg Host.Outcome.next (if_neg due)

/-- Settles O10: the runs of an entry that changes, the table as a map, and the conditions of isolation. -/
theorem entriesAgeAndIsolationBegins : Obligations.EntriesAgeAndIsolationBegins := by
  unfold Obligations.EntriesAgeAndIsolationBegins
  refine ⟨fun s n e started found => ⟨fun present age => ?_, fun age => ?_⟩, fun s started quiet clear => ?_,
    fun u f isolated => if_pos isolated, fun u f clear => by simp [capacityInForce, clear]⟩
  · have changed := tableChange_runs e (putEntry { e with presence := .stale } s.peer.table) started
    rw [← makeStale_of_found found] at changed
    obtain ⟨table, kept⟩ := tableChange_keeps changed.1
    refine ⟨_, _, entryStale_spec started found present age, rfl, changed, ?_, fun m other => ?_, kept⟩
    · rw [table, findEntry_put, if_pos (findEntry_node found).symm]
    · rw [table, findEntry_put, if_neg (by rw [findEntry_node found]; exact other)]
  · have changed := tableChange_runs e (dropEntry n s.peer.table) started
    rw [← removeEntry_of_found found] at changed
    obtain ⟨table, kept⟩ := tableChange_keeps changed.1
    refine ⟨_, _, entryRemoved_spec started found age, rfl, changed, ?_, fun m other => ?_, kept⟩
    · rw [table, findEntry_drop, if_pos rfl]
    · rw [table, findEntry_drop, if_neg other]
  · exact isolationBegun_spec started quiet clear

end Sys2Proof.Machine
end

section
/-! What a DEMAND delivered to PEER does to SHR: O17. -/

namespace Sys2Proof.Machine

open Sys2Proof

/-! ### A feed's share under a run and under a mark -/

/-- A second run on the same inputs changes nothing (R33, R34). -/
theorem FeedShare.take_take (x : FeedShare) (c now period : Nat) :
    (x.take c now period).take c now period = x.take c now period := by
  unfold FeedShare.take
  by_cases below : c ≤ x.effective
  · simp [below]
  · simp [below]

theorem FeedShare.take_marks (x : FeedShare) (c now period : Nat) :
    (x.take c now period).k = x.k ∧ (x.take c now period).markFree = x.markFree ∧
    (x.take c now period).markSeen = x.markSeen := by
  unfold FeedShare.take
  split
  · exact ⟨rfl, rfl, rfl⟩
  · exact ⟨rfl, rfl, rfl⟩

theorem FeedShare.take_computed (x : FeedShare) (c now period : Nat) : (x.take c now period).computed = c := by
  unfold FeedShare.take
  split
  · rfl
  · rfl

theorem FeedShare.mark_marks (x : FeedShare) (now period : Nat) :
    (x.mark now period).k = (if x.raises now period = true then x.k + 1 else x.k) ∧
    (x.mark now period).markFree = 0 ∧ (x.mark now period).markSeen = true := by
  unfold FeedShare.mark
  split
  · exact ⟨rfl, rfl, rfl⟩
  · exact ⟨rfl, rfl, rfl⟩

/-- A mark gives its own feed the marked share, run where k has risen, and leaves every other feed's (R21, R23). -/
theorem markSeen_get (f g : Feed) {s : State} (h : s.started = true) :
    (g ≠ f → (markSeen f s).shr.get g = s.shr.get g) ∧
    ((markSeen f s).shr.get f = (s.shr.get f).mark s.now s.period ∨
      (markSeen f s).shr.get f =
        ((s.shr.get f).mark s.now s.period).take (computedGrant (markSeen f s) f) s.now s.period) := by
  have marked : (s.setShr (s.shr.set f ((s.shr.get f).mark s.now s.period))).started = true := h
  have own := PerFeed.get_set_self s.shr f ((s.shr.get f).mark s.now s.period)
  unfold markSeen
  dsimp only
  by_cases raised : (s.shr.get f).raises s.now s.period = true
  · rw [if_pos raised]
    have grant : computedGrant (shrRun f (s.setShr (s.shr.set f ((s.shr.get f).mark s.now s.period)))) f =
        computedGrant (s.setShr (s.shr.set f ((s.shr.get f).mark s.now s.period))) f :=
      computedGrant_congr f (by simp) (by simp) (shrRun_sameMarks f _ f).1
    refine ⟨fun other => ?_, .inr ?_⟩
    · rw [shrRun_get f g marked, if_neg other]
      exact PerFeed.get_set_of_ne _ _ (Ne.symm other)
    · rw [grant, shrRun_get f f marked, if_pos rfl, State.setShr_shr, own]
      rfl
  · rw [if_neg raised]
    exact ⟨fun other => PerFeed.get_set_of_ne _ _ (Ne.symm other), .inl own⟩

/-! ### The marks of an entry -/

/-- Whether one of the items marks a feed. -/
def marks (items : List Item) (f : Feed) : Bool := items.any (fun i => i.feed == f && i.low)

theorem reportMarks_cons (i : Item) (items : List Item) (s : State) :
    reportMarks (i :: items) s = reportMarks items (if i.low then markSeen i.feed s else s) := rfl

theorem reportMarks_alone (items : List Item) (s : State) : ShrAlone s (reportMarks items s) := by
  induction items generalizing s with
  | nil => exact .refl s
  | cons i items ih => exact (ShrAlone.ite i.low (markSeen_alone i.feed s)).trans (ih _)

/-- The marks of an entry's items leave the feeds they do not mark. -/
theorem reportMarks_unmarked {items : List Item} {f : Feed} (s : State) (h : s.started = true) (unmarked : marks items f = false) :
    (reportMarks items s).shr.get f = s.shr.get f := by
  induction items generalizing s with
  | nil => rfl
  | cons i items ih =>
    obtain ⟨here, later⟩ : (i.feed == f && i.low) = false ∧ marks items f = false := by simpa [marks] using unmarked
    rw [reportMarks_cons]
    by_cases low : i.low = true
    · have other : f ≠ i.feed := by rintro rfl; simp [low] at here
      have started : (markSeen i.feed s).started = true := by rw [markSeen_alone i.feed s]; exact h
      rw [if_pos low, ih _ started later]
      exact (markSeen_get i.feed f h).1 other
    · rw [if_neg low, ih _ h later]

/-- Items of different feeds mark each of their feeds once (R20, R21). -/
theorem reportMarks_marked {items : List Item} {f : Feed} (s : State) (h : s.started = true) (once : (items.map Item.feed).Nodup)
    (marked : marks items f = true) :
    (reportMarks items s).shr.get f = (s.shr.get f).mark s.now s.period ∨
    (reportMarks items s).shr.get f =
      ((s.shr.get f).mark s.now s.period).take (computedGrant (reportMarks items s) f) s.now s.period := by
  induction items generalizing s with
  | nil => exact absurd marked (by simp [marks])
  | cons i items ih =>
    obtain ⟨fresh, once⟩ := List.nodup_cons.1 once
    rw [reportMarks_cons]
    by_cases here : (i.feed == f && i.low) = true
    · obtain ⟨rfl, low⟩ : i.feed = f ∧ i.low = true := by simpa using here
      have later : marks items i.feed = false := by
        simp only [marks, List.any_eq_false]
        intro j hj same
        exact fresh (List.mem_map.2 ⟨j, hj, by simpa using (Bool.and_eq_true_iff.1 same).1⟩)
      have started : (markSeen i.feed s).started = true := by rw [markSeen_alone i.feed s]; exact h
      have stands := reportMarks_unmarked _ started later
      have grant : computedGrant (reportMarks items (markSeen i.feed s)) i.feed = computedGrant (markSeen i.feed s) i.feed := by
        refine computedGrant_congr _ ?_ ?_ (by rw [stands])
        · rw [reportMarks_alone items]
          rfl
        · rw [reportMarks_alone items]
          rfl
      rw [if_pos low, stands, grant]
      exact (markSeen_get i.feed i.feed h).2
    · have later : marks items f = true := by simpa [marks, here] using marked
      by_cases low : i.low = true
      · have other : f ≠ i.feed := by rintro rfl; simp [low] at here
        have started : (markSeen i.feed s).started = true := by rw [markSeen_alone i.feed s]; exact h
        have keeps := markSeen_keeps i.feed s
        have stands := (markSeen_get i.feed f h).1 other
        have period : (markSeen i.feed s).period = s.period := by simp [State.period, State.img]
        have now : (markSeen i.feed s).now = s.now := by simp
        have rest := ih _ started once later
        rw [stands, period, now] at rest
        rwa [if_pos low]
      · rw [if_neg low]
        exact ih _ h once later

/-! ### A DEMAND taken -/

/-- The feeds that the entry of a node names before a DEMAND or after it (R6). -/
def touchedByDemand (s : State) (n : Nat) (p : List Byte) (f : Feed) : Bool :=
  (findEntry n s.peer.table).any (fun e => e.names f) || (entryOf n p).names f

/-- The share of a feed with the marks of a DEMAND's items counted. -/
def shareMarked (s : State) (n : Nat) (p : List Byte) (f : Feed) : FeedShare :=
  if marks (entryOf n p).items f = true then (s.shr.get f).mark s.now s.period else s.shr.get f

theorem names_of_marks {e : PeerEntry} {f : Feed} (h : marks e.items f = true) : e.names f = true := by
  obtain ⟨i, member, here⟩ := List.any_eq_true.1 h
  exact List.any_eq_true.2 ⟨i, member, (Bool.and_eq_true_iff.1 here).1⟩

theorem takeDemand_of_ok {s : State} {n : Nat} {p : List Byte} (other : n ≠ s.img.node) (ok : demandOk n p = true) :
    takeDemand n p s = shrRuns (.of (touchedByDemand s n p))
      (reportMarks (entryOf n p).items (s.setPeer { s.peer with table := putEntry (entryOf n p) s.peer.table })) := by
  rw [takeDemand, if_neg other, if_pos ok]
  rfl

/-- An accepted DEMAND: the new entry, and the share of each feed (R2, R6, R20 to R23). -/
theorem takeDemand_spec {s : State} {n : Nat} {p : List Byte} (started : s.started = true) (other : n ≠ s.img.node)
    (ok : demandOk n p = true) :
    let u := takeDemand n p s
    u = { s with shr := u.shr, peer := { s.peer with table := putEntry (entryOf n p) s.peer.table } } ∧
    ∀ f, (touchedByDemand s n p f = true →
        u.shr.get f = (shareMarked s n p f).take (computedGrant u f) s.now s.period) ∧
      (touchedByDemand s n p f = false → u.shr.get f = s.shr.get f ∧ marks (entryOf n p).items f = false) := by
  have once : ((entryOf n p).items.map Item.feed).Nodup := (entryOf_inRange ok).2.1
  rw [takeDemand_of_ok other ok]
  generalize hx : s.setPeer { s.peer with table := putEntry (entryOf n p) s.peer.table } = x
  have x_started : x.started = true := by rw [← hx]; exact started
  have x_shr : x.shr = s.shr := by rw [← hx]; rfl
  have x_now : x.now = s.now := by rw [← hx]; rfl
  have x_period : x.period = s.period := by rw [← hx]; rfl
  have alone := reportMarks_alone (entryOf n p).items x
  have unmarked : ∀ f, marks (entryOf n p).items f = false → (reportMarks (entryOf n p).items x).shr.get f = x.shr.get f :=
    fun _ => reportMarks_unmarked x x_started
  have marked := fun f (h : marks (entryOf n p).items f = true) => reportMarks_marked x x_started once h
  generalize reportMarks (entryOf n p).items x = y at alone unmarked marked
  have y_started : y.started = true := by rw [alone]; exact x_started
  have y_now : y.now = s.now := by rw [alone]; exact x_now
  have y_period : y.period = s.period := by rw [alone]; exact x_period
  have same := fun f => computedGrant_congr f (by simp) (by simp) (shrRuns_sameMarks (.of (touchedByDemand s n p)) y f).1
  have runs := fun f => shrRuns_get (.of (touchedByDemand s n p)) f y_started
  simp only [PerFeed.get_of, y_now, y_period] at runs
  simp only [x_shr, x_now, x_period] at unmarked marked
  refine ⟨?_, fun f => ⟨fun touched => ?_, fun untouched => ?_⟩⟩
  · rw [alone.trans (shrRuns_alone _ y), ← hx]
    rfl
  · rw [runs f, if_pos touched, same f, shareMarked]
    by_cases hm : marks (entryOf n p).items f = true
    · rw [if_pos hm]
      rcases marked f hm with h | h
      · rw [h]
      · rw [h, FeedShare.take_take]
    · rw [if_neg hm, unmarked f (by simpa using hm)]
  · have hm : marks (entryOf n p).items f = false := by
      refine Bool.eq_false_iff.2 fun hm => ?_
      simp [touchedByDemand, names_of_marks hm] at untouched
    exact ⟨by rw [runs f, untouched, if_neg Bool.false_ne_true, unmarked f hm], hm⟩

theorem demandReceived_spec {s : State} (started : s.started = true) (n : Nat) (p : List Byte) :
    exec (.demandReceived n p) s = .next (settle (takeDemand n p s)) := congrArg Host.Outcome.next (if_pos started)

/-- What the marks of a DEMAND come to once the change is carried through (R20 to R22). -/
theorem demand_marks {s : State} {n : Nat} {p : List Byte} (started : s.started = true) (other : n ≠ s.img.node)
    (ok : demandOk n p = true) (f : Feed) :
    let t := settle (takeDemand n p s)
    (t.shr.get f).k = (shareMarked s n p f).k ∧ (t.shr.get f).markFree = (shareMarked s n p f).markFree ∧
    (t.shr.get f).markSeen = (shareMarked s n p f).markSeen := by
  obtain ⟨k, free, seen, -⟩ := settle_sameMarks (takeDemand n p s) f
  obtain ⟨touched, untouched⟩ := (takeDemand_spec started other ok).2 f
  dsimp only
  rw [k, free, seen]
  cases h : touchedByDemand s n p f
  · obtain ⟨stands, unmarked⟩ := untouched h
    rw [stands, shareMarked, unmarked]
    exact ⟨rfl, rfl, rfl⟩
  · rw [touched h]
    exact FeedShare.take_marks _ _ _ _

/-- Settles O17: the three ends of a DEMAND by its source and its checks. -/
theorem demandReceivedGivesAnEntry : Obligations.DemandReceivedGivesAnEntry := by
  unfold Obligations.DemandReceivedGivesAnEntry
  intro s n p started
  rw [demandReceived_spec started]
  refine ⟨fun own => by rw [takeDemand, if_pos own], fun other bad => ?_, fun other ok => ?_⟩
  · rw [takeDemand, if_neg other, if_neg (by rw [bad]; exact Bool.false_ne_true)]
    rfl
  · obtain ⟨u_eq, shares⟩ := takeDemand_spec started other ok
    obtain ⟨table, kept⟩ := tableChange_keeps u_eq
    refine ⟨takeDemand n p s, _, rfl, rfl, ?_, fun m hm => ?_, fun f => ?_, u_eq, kept⟩
    · rw [table, findEntry_put]
      exact if_pos rfl
    · rw [table, findEntry_put]
      exact if_neg hm
    · obtain ⟨k, free, seen⟩ := demand_marks started other ok f
      obtain ⟨touched, untouched⟩ := shares f
      rw [k, free, seen]
      refine ⟨fun unmarked => ?_, fun marked => ?_, fun h => ⟨?_, touched h⟩, fun h => (untouched h).1⟩
      · rw [shareMarked, marks, unmarked]
        exact ⟨rfl, rfl⟩
      · obtain ⟨k', free', seen'⟩ := (s.shr.get f).mark_marks s.now s.period
        rw [shareMarked, marks, if_pos marked]
        exact ⟨free', seen', k'⟩
      · rw [touched h]
        exact FeedShare.take_computed _ _ _ _

end Sys2Proof.Machine
end

section
/-! A refresh tick: O9. -/

namespace Sys2Proof.Machine

open Sys2Proof

/-! ### The DEMAND slot as a change is carried through -/

/-- In READY the DEMAND slot carries the own record (R12, R13); in any other start-up state it holds `slot`. -/
def DemandStands (slot : Option Frame) (s : State) : Prop :=
  s.lnk.demandSlot = if s.cfg.startUp = .ready then some ⟨.demand, 0, s.peer.own.payload, 0⟩ else slot

theorem DemandStands.congr {slot : Option Frame} {s t : State} (h : DemandStands slot s) (cfg : t.cfg = s.cfg)
    (own : t.peer.own = s.peer.own) (same : t.lnk.demandSlot = s.lnk.demandSlot) : DemandStands slot t := by
  rw [DemandStands, cfg, own, same]
  exact h

/-- A DEMAND placed fills the slot in READY, and only there (R12). -/
theorem placeDemand_stands (s : State) : DemandStands s.lnk.demandSlot (placeDemand s) := by
  by_cases ready : s.cfg.startUp = .ready
  · rw [placeDemand_of_ready ready]
    exact (if_pos ready).symm
  · rw [placeDemand, if_neg ready]
    exact (if_neg ready).symm

theorem DemandStands.rebuildRecord {slot : Option Frame} {s : State} (h : DemandStands slot s) :
    DemandStands slot (rebuildRecord s) := by
  unfold Machine.rebuildRecord
  dsimp only
  split
  · exact h
  · by_cases ready : s.cfg.startUp = .ready
    · refine (placeDemand_stands (s.setPeer { s.peer with own := buildRecord s })).congr (by simp) (by simp) (by simp) |>.trans ?_
      simp [ready]
    · have stands : s.lnk.demandSlot = slot := h.trans (if_neg ready)
      rw [← stands]
      exact (placeDemand_stands (s.setPeer { s.peer with own := buildRecord s })).congr (by simp) (by simp) (by simp)

theorem DemandStands.carry {slot : Option Frame} {s : State} (h : DemandStands slot s) : DemandStands slot (carry s) :=
  h.rebuildRecord.congr (by simp [Machine.carry]) (by simp [Machine.carry]) (by simp [Machine.carry])

theorem DemandStands.takeReports {slot : Option Frame} {s : State} (h : DemandStands slot s) :
    DemandStands slot (takeReports s) := h.congr (by simp) (by simp) (by simp)

theorem DemandStands.settle {slot : Option Frame} {s : State} (h : DemandStands slot s) : DemandStands slot (settle s) := by
  unfold Machine.settle
  split
  · exact h.carry.takeReports.carry.takeReports.carry.congr (by simp) (by simp) (by simp)
  · exact h

/-! ### The marks of the low-feed set -/

/-- The low-feed set as items that mark its feeds. -/
def lowItems (low : PerFeed Bool) : List Item := [Feed.a, .b, .c, .d].map fun f => ⟨f, 0, 0, 0, low.get f⟩

theorem marks_lowItems (low : PerFeed Bool) (f : Feed) : marks (lowItems low) f = low.get f := by
  rw [Bool.eq_iff_iff]
  cases f <;> simp [marks, lowItems]

theorem lowItems_feeds (low : PerFeed Bool) : (lowItems low).map Item.feed = [.a, .b, .c, .d] := rfl

/-- A refresh tick counts the low-feed set as marks are counted (R20). -/
theorem markLowFeeds_eq (s : State) : markLowFeeds s = reportMarks (lowItems s.peer.lowFeeds) s := by
  simp [markLowFeeds, reportMarks, lowItems, PerFeed.get]

theorem markLowFeeds_get {s : State} (h : s.started = true) (f : Feed) :
    (s.peer.lowFeeds.get f = false → (markLowFeeds s).shr.get f = s.shr.get f) ∧
    (s.peer.lowFeeds.get f = true →
      ((markLowFeeds s).shr.get f).k = (if (s.shr.get f).raises s.now s.period = true then (s.shr.get f).k + 1 else (s.shr.get f).k) ∧
      ((markLowFeeds s).shr.get f).markFree = 0 ∧ ((markLowFeeds s).shr.get f).markSeen = true) := by
  rw [markLowFeeds_eq, ← marks_lowItems]
  refine ⟨fun unmarked => reportMarks_unmarked s h unmarked, fun marked => ?_⟩
  have mark := (s.shr.get f).mark_marks s.now s.period
  rcases reportMarks_marked s h (by rw [lowItems_feeds]; decide) marked with hm | hm
  · rw [hm]
    exact mark
  · obtain ⟨k, free, seen⟩ := FeedShare.take_marks ((s.shr.get f).mark s.now s.period)
      (computedGrant (reportMarks (lowItems s.peer.lowFeeds) s) f) s.now s.period
    rw [hm, k, free, seen]
    exact mark

/-- The marks and counts of a feed after a refresh tick (R20 to R22). -/
theorem refresh_marks {s : State} (h : s.started = true) (f : Feed) :
    ((refresh s).shr.get f).markFree =
      (if (s.shr.get f).markSeen = true ∨ s.peer.lowFeeds.get f = true then 0 else min 16 ((s.shr.get f).markFree + 1)) ∧
    ((refresh s).shr.get f).markSeen = false ∧
    ((refresh s).shr.get f).k =
      (if s.peer.lowFeeds.get f = true ∧ (s.shr.get f).raises s.now s.period = true then (s.shr.get f).k + 1
       else (s.shr.get f).k) := by
  have tick : (refresh s).shr.get f = ((markLowFeeds (s.setPeer { s.peer with
      table := s.peer.table.map ageEntry, quiet := min 8 (s.peer.quiet + 1), refresh := some 0 })).shr.get f).tick := by
    simp [refresh]
  generalize hx : s.setPeer { s.peer with
      table := s.peer.table.map ageEntry, quiet := min 8 (s.peer.quiet + 1), refresh := some 0 } = x at tick
  have x_started : x.started = true := by rw [← hx]; exact h
  have x_shr : x.shr = s.shr := by rw [← hx]; rfl
  have x_low : x.peer.lowFeeds = s.peer.lowFeeds := by rw [← hx]; rfl
  have x_now : x.now = s.now := by rw [← hx]; rfl
  have x_period : x.period = s.period := by rw [← hx]; rfl
  obtain ⟨unmarked, marked⟩ := markLowFeeds_get x_started f
  rw [x_shr, x_low] at unmarked
  rw [x_shr, x_low, x_now, x_period] at marked
  rw [tick]
  cases low : s.peer.lowFeeds.get f
  · rw [unmarked low]
    simp [FeedShare.tick]
  · obtain ⟨k, free, seen⟩ := marked low
    simp [FeedShare.tick, k, seen]

/-! ### The tick -/

theorem refreshTick_spec {s : State} {r : Nat} (started : s.started = true) (timer : s.peer.refresh = some r) (due : s.period ≤ r) :
    exec .refreshTick s = .next (settle (countListen (refresh s))) := by
  have now : (s.started && refreshDue s) = true := by simp [started, refreshDue, timer, due]
  exact congrArg Host.Outcome.next (if_pos now)

theorem countListen_cfg (s : State) : (countListen s).cfg =
    if s.cfg.startUp = .listen then { s.cfg with listenTicks := min 2 (s.cfg.listenTicks + 1) } else s.cfg := by
  unfold countListen
  split
  · rfl
  · rfl

theorem countListen_startUp (s : State) : (countListen s).cfg.startUp = s.cfg.startUp := by
  rw [countListen_cfg]
  split
  · rfl
  · rfl

/-- The tick places the own record in READY, and nothing before or after (R12). -/
theorem refreshTick_demand (s : State) : DemandStands s.lnk.demandSlot (settle (countListen (refresh s))) := by
  have placed : DemandStands s.lnk.demandSlot (refresh s) := by
    unfold refresh
    refine (placeDemand_stands _).trans ?_
    simp
  refine DemandStands.settle ?_
  rw [DemandStands, countListen_startUp]
  simpa [DemandStands] using placed

/-- Settles O9: the tick's own changes, then what carrying them through keeps. -/
theorem refreshTickAgesTableAndCounts : Obligations.RefreshTickAgesTableAndCounts := by
  unfold Obligations.RefreshTickAgesTableAndCounts
  intro s r started timer due
  have demand := refreshTick_demand s
  have directed : DirectedBlocksStand s (countListen (refresh s)) := by
    refine ⟨?_, ?_, ?_, ?_, ?_, ?_, ?_, ?_, ?_⟩ <;> simp
  have cfg : (settle (countListen (refresh s))).cfg =
      if s.cfg.startUp = .listen then { s.cfg with listenTicks := min 2 (s.cfg.listenTicks + 1) } else s.cfg := by
    simp [countListen_cfg]
  have startUp : (settle (countListen (refresh s))).cfg.startUp = s.cfg.startUp := by simp [countListen_startUp]
  rw [DemandStands, startUp] at demand
  refine ⟨_, refreshTick_spec started timer due, ?_, ?_, ?_, ?_, fun f => ?_, cfg, fun ready => ?_, fun other => ?_, ?_, ?_, ?_, ?_,
    ?_, ?_, ?_, directed.settle⟩
  case refine_1 =>
    have aged : (settle (countListen (refresh s))).peer.table = s.peer.table.map ageEntry := by simp
    exact aged
  case refine_5 =>
    obtain ⟨k, free, seen, -⟩ := settle_sameMarks (countListen (refresh s)) f
    obtain ⟨-, shr, -⟩ := countListen_keeps (refresh s)
    rw [k, free, seen, shr]
    exact refresh_marks started f
  case refine_6 => rw [demand, if_pos ready]
  case refine_7 => rw [demand, if_neg other]
  all_goals simp [refresh]

end Sys2Proof.Machine
end

section
/-! SUPPLY-LOW raised, cleared and lasting: O39. -/

namespace Sys2Proof.Machine

open Sys2Proof

/-! ### The own record rebuilt -/

/-- Rebuilding the own record changes PEER's record, SHR and LNK alone (R12). -/
theorem rebuildRecord_alone (s : State) :
    rebuildRecord s = { s with
      shr := (rebuildRecord s).shr, lnk := (rebuildRecord s).lnk
      peer := { s.peer with own := (rebuildRecord s).peer.own } } := by
  have placed : ∀ x : State, placeDemand x = x.setLnk (placeDemand x).lnk := fun x => by
    unfold placeDemand placeDemandFrame
    split
    · split
      · rfl
      · rfl
    · rfl
  unfold rebuildRecord
  dsimp only
  split
  · rfl
  · rw [shrRuns_alone _ (placeDemand _), placed]
    rfl

/-! ### Low inlets as a change is carried through -/

/-- Outside RUNNING and HOLDING a change carried through leaves every low inlet and the low-feed set. -/
theorem settle_low_of_calm {s : State} (hs : s.started = true) (hr : s.seq.state ≠ .running) (hh : s.seq.state ≠ .holding) :
    (settle s).peer.lowFeeds = s.peer.lowFeeds ∧ ∀ c, ((settle s).chan c).supplyLow = (s.chan c).supplyLow := by
  obtain ⟨-, -, -, -, -, -, -, lowFeeds, -⟩ := settle_calm hr hh
  have calm : ∀ {x : State}, x.seq.state = s.seq.state → takeReports (carry x) = carry x := fun {x} h =>
    takeReports_of_calm (by simpa [h] using hr) (by simpa [h] using hh)
  refine ⟨lowFeeds, fun c => ?_⟩
  rw [settle_supplyLow s hs, calm rfl, calm (by simp)]
  simp [State.chan]

/-- In HOLDING with a cause that stays, a change carried through leaves every low inlet and the low-feed set. -/
theorem settle_low_of_stays {s : State} (hs : s.started = true) (hh : s.seq.state = .holding) (h : holdStays s) :
    (settle s).peer.lowFeeds = s.peer.lowFeeds ∧ ∀ c, ((settle s).chan c).supplyLow = (s.chan c).supplyLow := by
  obtain ⟨-, -, -, -, -, -, -, lowFeeds, -⟩ := settle_stays hs hh h
  obtain ⟨hh', h'⟩ := stays_round hh h
  obtain ⟨-, -, -, -, ch, -⟩ := round_keeps_of_stays hh h
  obtain ⟨-, -, -, -, ch', -⟩ := round_keeps_of_stays hh' h'
  refine ⟨lowFeeds, fun c => ?_⟩
  rw [settle_supplyLow s hs, State.chan, State.chan, ch', ch]

/-! ### SUPPLY-LOW raised -/

theorem supplyLowRaise_spec {s : State} {c : Channel} {f : Feed} (started : s.started = true)
    (feed : (s.chan c).openFeed = some f) (threshold : 0 < s.img.threshold.get c) (clear : (s.chan c).supplyLow = false)
    (timer : 500000 ≤ (s.chan c).lowTimer) : exec (.supplyLowRaise c) s = .next (settle (raiseLow c s)) := by
  have due : (s.started && lowRaiseDue c s) = true := by
    have time : lowTime ≤ (s.chan c).lowTimer := timer
    simp [started, lowRaiseDue, monitorActive, feed, threshold, clear, time]
  exact congrArg Host.Outcome.next (if_pos due)

/-- A channel whose inlet has just been found low. -/
def Dispense.raised (d : Dispense) : Dispense := { d with supplyLow := true, lowTimer := 0, recoveryTimer := 0 }

/-- The channel found low and its feed in the low-feed set (R11, R58). -/
def foundLow (c : Channel) (f : Feed) (s : State) : State :=
  (s.setChan c (s.chan c).raised).setPeer { s.peer with lowFeeds := s.peer.lowFeeds.set f true }

theorem raiseLow_eq {s : State} {c : Channel} {f : Feed} (feed : (s.chan c).openFeed = some f) :
    raiseLow c s = markSeen f (rebuildRecord (foundLow c f s)) := by
  simp only [raiseLow, feed]
  rfl

/-- What raising SUPPLY-LOW changes before it is carried through (R11, R12, R58). -/
theorem raiseLow_spec {s : State} {c : Channel} {f : Feed} (feed : (s.chan c).openFeed = some f) :
    let u := raiseLow c s
    u = { s with
      sdu := { s.sdu with ch := u.sdu.ch }, shr := u.shr, lnk := u.lnk
      peer := { s.peer with own := u.peer.own, lowFeeds := s.peer.lowFeeds.set f true } } ∧
    u.sdu.ch = s.sdu.ch.set c (s.chan c).raised := by
  rw [raiseLow_eq feed]
  refine ⟨?_, by simp [foundLow, State.setChan]⟩
  rw [markSeen_alone f (rebuildRecord _), rebuildRecord_alone]
  rfl

theorem FeedShare.raises_congr {x y : FeedShare} (k : x.k = y.k) (last : x.lastIncrement = y.lastIncrement) (now period : Nat) :
    x.raises now period = y.raises now period := by
  simp only [FeedShare.raises, k, last]

/-- The mark of a SUPPLY-LOW once it is carried through (R20, R21). -/
theorem raiseLow_marks {s : State} {c : Channel} {f : Feed} (feed : (s.chan c).openFeed = some f) :
    let t := settle (raiseLow c s)
    (t.shr.get f).markFree = 0 ∧ (t.shr.get f).markSeen = true ∧
    (t.shr.get f).k =
      (if (s.shr.get f).raises s.now s.period = true then (s.shr.get f).k + 1 else (s.shr.get f).k) := by
  have shr : (foundLow c f s).shr = s.shr := by simp [foundLow]
  obtain ⟨k, free, seen, -⟩ := settle_sameMarks (raiseLow c s) f
  obtain ⟨k', free', seen'⟩ := markSeen_shr f f (rebuildRecord (foundLow c f s))
  obtain ⟨k₀, -, -, last₀⟩ := rebuildRecord_sameMarks (foundLow c f s) f
  rw [shr] at k₀ last₀
  have now : (rebuildRecord (foundLow c f s)).now = s.now := by simp [foundLow]
  have period : (rebuildRecord (foundLow c f s)).period = s.period := by simp [foundLow, State.period, State.img]
  dsimp only
  rw [k, free, seen, raiseLow_eq feed, k', free', seen', now, period, FeedShare.raises_congr k₀ last₀, k₀]
  simp

/-- A SUPPLY-LOW just raised stands once it is carried through, but for a HOLDING that only SHARE keeps (R57, R58). -/
theorem raiseLow_stands {s : State} {c : Channel} {f : Feed} (started : s.started = true) (feed : (s.chan c).openFeed = some f)
    (stays : s.seq.state ≠ .holding ∨ s.seq.causes.notForSlurry = true ∨ s.seq.causes.supply = true) :
    ((settle (raiseLow c s)).chan c).supplyLow = true ∧
    (settle (raiseLow c s)).peer.lowFeeds = s.peer.lowFeeds.set f true := by
  obtain ⟨u_eq, ch⟩ := raiseLow_spec feed
  generalize raiseLow c s = u at u_eq ch
  have u_started : u.started = true := by rw [u_eq]; exact started
  have seq : u.seq = s.seq := by rw [u_eq]
  have lowFeeds : u.peer.lowFeeds = s.peer.lowFeeds.set f true := by rw [u_eq]
  have low : (u.chan c).supplyLow = true := by
    rw [State.chan, ch, PerChannel.get_set_self]
    rfl
  have kept : (settle u).peer.lowFeeds = u.peer.lowFeeds ∧ ∀ c, ((settle u).chan c).supplyLow = (u.chan c).supplyLow := by
    by_cases running : s.seq.state = .running
    · exact settle_low_of_running u_started (by rw [seq, running])
    · by_cases holding : s.seq.state = .holding
      · have any : anyLow u = true := by cases c <;> simp [anyLow, low]
        have hold : holdStays u := by simpa [holdStays, seq, any, holding] using stays
        exact settle_low_of_stays u_started (by rw [seq, holding]) hold
      · exact settle_low_of_calm u_started (by rwa [seq]) (by rwa [seq])
  exact ⟨(kept.2 c).trans low, kept.1.trans lowFeeds⟩

/-! ### SUPPLY-LOW cleared, and lasting -/

theorem supplyLowClear_spec {s : State} {c : Channel} {f : Feed} (started : s.started = true)
    (feed : (s.chan c).openFeed = some f) (low : (s.chan c).supplyLow = true) (timer : 2000000 ≤ (s.chan c).recoveryTimer) :
    exec (.supplyLowClear c) s = .next (settle { s with
      peer := { s.peer with lowFeeds := s.peer.lowFeeds.set f false }
      sdu := { s.sdu with ch := s.sdu.ch.set c { s.chan c with supplyLow := false, lowTimer := 0, recoveryTimer := 0 } } }) := by
  have due : (s.started && lowClearDue c s) = true := by
    have time : recoveryTime ≤ (s.chan c).recoveryTimer := timer
    simp [started, lowClearDue, low, time]
  have leaves : lowFeedsAfterClose (s.chan c) s.peer.lowFeeds = s.peer.lowFeeds.set f false := by
    simp [lowFeedsAfterClose, feed, low]
  refine (congrArg Host.Outcome.next (if_pos due)).trans ?_
  simp only [clearLow, leaves]
  rfl

/-- The hold that a lasting SUPPLY-LOW causes stays as it is carried through (R59, R77). -/
theorem supplyPersist_spec {s : State} {c : Channel} (started : s.started = true) (running : s.seq.state = .running)
    (low : (s.chan c).supplyLow = true) (timer : 5000000 ≤ s.sdu.persist) :
    ∃ t, exec .supplyPersist s = .next t ∧ t.seq.state = .holding ∧ t.seq.causes.supply = true ∧
      t.seq.resume = some .running ∧ t.seq.elapsed = s.seq.elapsed ∧ t.seq.index = s.seq.index ∧
      t.sdu.dose = s.sdu.dose ∧ t.rcp = s.rcp ∧ t.ilk = s.ilk ∧ t.cfg = s.cfg ∧ t.pins = s.pins ∧ t.drv = s.drv ∧
      t.peer.table = s.peer.table ∧ t.pending = s.pending := by
  have any : anyLow s = true := by cases c <;> simp [anyLow, low]
  have due : (s.started && persistDue s) = true := by
    have time : persistTime ≤ s.sdu.persist := timer
    simp [started, persistDue, running, any, time]
  have seq := enterHolding_seq .running (s.seq.causes.add .supply) s
  have held_started : (reportSupply s).started = true := by
    simpa [reportSupply, State.started, State.inReset] using started
  have held_any : anyLow (reportSupply s) = true := by simpa [reportSupply, anyLow, State.chan] using any
  have stays : holdStays (reportSupply s) := .inr ⟨by rw [reportSupply, seq]; rfl, held_any⟩
  obtain ⟨seq', -, -, -, drv, -⟩ := settle_stays held_started (by rw [reportSupply, seq]) stays
  rw [held_any, Bool.and_true, reportSupply, seq] at seq'
  refine ⟨settle (reportSupply s), congrArg Host.Outcome.next (if_pos due), ?_, ?_, ?_, ?_, ?_, ?_, ?_, ?_, ?_, ?_, ?_, ?_, ?_⟩
  case refine_1 => rw [reportSupply, seq']
  case refine_2 =>
    rw [reportSupply, seq']
    rfl
  case refine_3 => rw [reportSupply, seq']
  case refine_11 =>
    rw [drv]
    simp [reportSupply]
  all_goals simp [reportSupply]

/-- Settles O39: raised, cleared, lasting. -/
theorem starvationMarksAndHolds : Obligations.StarvationMarksAndHolds := by
  unfold Obligations.StarvationMarksAndHolds
  intro s c f started feed
  refine ⟨fun threshold clear timer => ?_, supplyLowClear_spec started feed, supplyPersist_spec started⟩
  obtain ⟨u_eq, ch⟩ := raiseLow_spec feed
  obtain ⟨free, seen, k⟩ := raiseLow_marks feed
  have seq : (raiseLow c s).seq = s.seq := by rw [u_eq]
  refine ⟨_, _, supplyLowRaise_spec started feed threshold clear timer, rfl, ?_, fun x other => ?_, u_eq,
    raiseLow_stands started feed, free, seen, k, fun hr hh => ?_, ?_, ?_, ?_, ?_, ?_, ?_⟩
  · rw [State.chan, ch, PerChannel.get_set_self]
    rfl
  · rw [State.chan, ch, PerChannel.get_set_of_ne _ _ (Ne.symm other)]
    rfl
  · obtain ⟨seq', hpc, pcc, epm, drv, -⟩ := settle_calm (by rwa [seq]) (by rwa [seq])
    rw [seq', hpc, pcc, epm, drv, u_eq]
    exact ⟨rfl, rfl, rfl, rfl, rfl⟩
  all_goals simp

end Sys2Proof.Machine
end

section
/-! What carrying a change through leaves: the own record, the flow and the pump rates: O3. -/

namespace Sys2Proof.Machine

open Sys2Proof

/-! ### What the record and the flow turn on -/

theorem usable_congr {s t : State} (peer : t.peer = s.peer) (shr : t.shr = s.shr) (seq : t.seq = s.seq) : usable t = usable s := by
  simp only [usable, State.effective, State.ratio, State.stepNow, peer, shr, seq]

theorem blendRate_congr {s t : State} (peer : t.peer = s.peer) (seq : t.seq = s.seq) : blendRate t = blendRate s := by
  funext u
  simp only [blendRate, State.ratio, State.stepNow, peer, seq]

theorem shareCondition_congr {s t : State} (peer : t.peer = s.peer) : shareCondition t = shareCondition s := by
  funext u
  simp only [shareCondition, peer]

/-- The flags of a step enter neither the record nor the flow. -/
theorem markFlags_flow (s : State) : buildRecord (markFlags s) = buildRecord s ∧ usable (markFlags s) = usable s ∧
    blendRate (markFlags s) = blendRate s ∧ shareCondition (markFlags s) = shareCondition s := by
  unfold markFlags
  split
  · exact ⟨rfl, rfl, rfl, rfl⟩
  · exact ⟨rfl, rfl, rfl, rfl⟩

/-- The own record and the flow agree with the state they stand in (R7 to R11, R48, R50). -/
def FlowCurrent (s : State) : Prop :=
  s.peer.own = buildRecord s ∧ s.sdu.u = usable s ∧ s.sdu.share = shareCondition s (usable s) ∧ s.sdu.blend = blendRate s (usable s)

theorem carry_flowCurrent (s : State) : FlowCurrent (carry s) := by
  obtain ⟨record, u, blend, share⟩ := markFlags_flow (recomputeFlow (rebuildRecord s))
  have built : buildRecord (recomputeFlow (rebuildRecord s)) = buildRecord s :=
    buildRecord_congr (by simp) (by simp) (by simp) (by simp)
  have sdu : (carry s).sdu = (recomputeFlow (rebuildRecord s)).sdu := by simp [carry]
  refine ⟨?_, ?_, ?_, ?_⟩
  · rw [carry_own, carry, record, built]
  · rw [sdu, carry, u]
    rfl
  · rw [sdu, carry, u, share]
    rfl
  · rw [sdu, carry, u, blend]
    rfl

theorem FlowCurrent.congr {s t : State} (h : FlowCurrent s) (cfg : t.cfg = s.cfg) (ilk : t.ilk = s.ilk) (peer : t.peer = s.peer)
    (shr : t.shr = s.shr) (seq : t.seq = s.seq) (u : t.sdu.u = s.sdu.u) (share : t.sdu.share = s.sdu.share)
    (blend : t.sdu.blend = s.sdu.blend) : FlowCurrent t := by
  unfold FlowCurrent
  rw [buildRecord_congr seq ilk cfg (by rw [peer]), usable_congr peer shr seq, blendRate_congr peer seq, shareCondition_congr peer,
    peer, u, share, blend]
  exact h

/-! ### The pump rates -/

theorem Dispense.setRate_keeps (d : Dispense) (r : Nat) :
    (d.setRate r).rate = r ∧ (d.setRate r).switch = d.switch ∧ (d.setRate r).openFeed = d.openFeed := by
  unfold Dispense.setRate
  split
  · exact ⟨rfl, rfl, rfl⟩
  · split
    · rename_i zero
      exact ⟨zero.symm, rfl, rfl⟩
    · exact ⟨rfl, rfl, rfl⟩

/-- The MAIN rate turns on the image, SEQ, u, the DI valve, and the switch and the open feed of its channel (Table 3-3). -/
theorem mainRate_congr {s t : State} (cfg : t.cfg = s.cfg) (seq : t.seq = s.seq) (u : t.sdu.u = s.sdu.u) (di : t.sdu.di = s.sdu.di)
    (switch : (t.chan .main).switch = (s.chan .main).switch) (feed : (t.chan .main).openFeed = (s.chan .main).openFeed) :
    mainRate t = mainRate s := by
  simp only [mainRate, State.stepNow, State.img, cfg, seq, u, di, switch, feed]

theorem additiveRate_congr {s t : State} (seq : t.seq = s.seq) (blend : t.sdu.blend = s.sdu.blend)
    (feed : (t.chan .additive).openFeed = (s.chan .additive).openFeed) : additiveRate t = additiveRate s := by
  have kind : t.stepKind = s.stepKind := by simp only [State.stepKind, State.stepNow, seq]
  rw [additiveRate, additiveRate, seq, kind, blend, feed]

/-- Both pumps run at the rates of Table 3-3. -/
def RatesCurrent (s : State) : Prop := (s.chan .main).rate = mainRate s ∧ (s.chan .additive).rate = additiveRate s

theorem setPumps_ratesCurrent (s : State) : RatesCurrent (setPumps s) := by
  obtain ⟨main, switch, feed⟩ := (s.chan .main).setRate_keeps (mainRate s)
  obtain ⟨additive, -, feed'⟩ := (s.chan .additive).setRate_keeps (additiveRate s)
  have same : mainRate (setPumps s) = mainRate s := mainRate_congr rfl rfl rfl rfl switch feed
  have same' : additiveRate (setPumps s) = additiveRate s := additiveRate_congr rfl rfl feed'
  exact ⟨main.trans same.symm, additive.trans same'.symm⟩

theorem judgePersist_ratesCurrent {s : State} (h : RatesCurrent s) : RatesCurrent (judgePersist s) := by
  unfold judgePersist
  split
  · exact h
  · exact h

/-! ### Table 3-3 -/

/-- A flush and a post-rinse run at the rinse rate through an open DI valve. -/
theorem mainRate_of_flush {s : State} (v : Nat) (h : (s.chan .main).switch = .flush v ∨ (s.chan .main).switch = .postRinse v) :
    mainRate s = if s.sdu.di.isOpen = true then 200 else 0 := by
  rcases h with h | h
  · simp only [mainRate, h]
    rfl
  · simp only [mainRate, h]
    rfl

/-- Outside a flush and a post-rinse the MAIN pump runs in RUNNING alone, as the step's kind says. -/
theorem mainRate_of_step {s : State} (flush : ∀ v, (s.chan .main).switch ≠ .flush v)
    (rinse : ∀ v, (s.chan .main).switch ≠ .postRinse v) :
    (s.seq.state ≠ .running → mainRate s = 0) ∧
    (∀ st, s.seq.state = .running → s.stepNow = some st →
      (st.kind = .polish → mainRate s = if (s.chan .main).openFeed.isSome = true then s.sdu.u else 0) ∧
      (st.kind = .rinse → mainRate s = if s.sdu.di.isOpen = true then min st.flow s.img.pumpMax.main else 0) ∧
      (st.kind = .condition → mainRate s = 0)) := by
  unfold mainRate
  cases switch : (s.chan .main).switch
  case flush v => exact absurd switch (flush v)
  case postRinse v => exact absurd switch (rinse v)
  all_goals
    refine ⟨fun rest => if_neg rest, fun st running step => ?_⟩
    simp only [running, step, if_true]
    refine ⟨fun kind => ?_, fun kind => ?_, fun kind => ?_⟩ <;> simp only [kind]

theorem additiveRate_spec (s : State) :
    (s.seq.state ≠ .running ∨ s.stepKind ≠ some .polish ∨ (s.chan .additive).openFeed = none → additiveRate s = 0) ∧
    (s.seq.state = .running → s.stepKind = some .polish → (s.chan .additive).openFeed.isSome = true →
      additiveRate s = s.sdu.blend) := by
  unfold additiveRate
  refine ⟨fun h => if_neg ?_, fun running polish feed => if_pos (by simp [running, polish, feed])⟩
  rcases h with h | h | h
  · simp [h]
  · simp [h]
  · simp [h]

/-! ### Carried through -/

theorem settle_of_started {s : State} (h : s.started = true) :
    settle s = judgePersist (setPumps (carry (takeReports (carry (takeReports (carry s)))))) := if_pos h

theorem settle_flowCurrent {s : State} (h : s.started = true) : FlowCurrent (settle s) := by
  rw [settle_of_started h]
  exact (carry_flowCurrent (takeReports (carry (takeReports (carry s))))).congr (by simp) (by simp) (by simp) (by simp)
    (by simp) (by simp) (by simp) (by simp)

theorem settle_ratesCurrent {s : State} (h : s.started = true) : RatesCurrent (settle s) := by
  rw [settle_of_started h]
  exact judgePersist_ratesCurrent (setPumps_ratesCurrent _)

theorem settle_kept (s : State) : KeptBySettle s (settle s) := by
  refine ⟨?_, ?_, ?_, ?_, ?_, ?_, ?_, ?_, ?_, ?_, ?_, ?_, ?_, ?_, ?_, ?_, ?_, ?_⟩ <;> simp

/-! ### No pump draws more than its grant -/

theorem usable_le_main {s : State} {it : Item} (h : s.peer.own.main = some it) : usable s ≤ (s.shr.get it.feed).effective := by
  simp only [usable, h]
  split
  · exact Nat.min_le_right _ _
  · exact (Nat.min_le_right _ _).trans (Nat.min_le_left _ _)

/-- The additive that u calls for is within its grant: u is at most ⌊g × 100 / r⌋ (R48). -/
theorem blend_le_additive {s : State} {ad : Item} (h : s.peer.own.additive = some ad) :
    blendRate s (usable s) ≤ (s.shr.get ad.feed).effective := by
  have bound : usable s ≤ s.effective ad.feed * 100 / s.ratio := by
    simp only [usable, h]
    split
    · exact Nat.zero_le _
    · exact (Nat.min_le_right _ _).trans (Nat.min_le_right _ _)
  simp only [blendRate, h]
  refine Nat.div_le_of_le_mul ?_
  calc usable s * s.ratio ≤ s.effective ad.feed * 100 / s.ratio * s.ratio := Nat.mul_le_mul_right _ bound
    _ ≤ s.effective ad.feed * 100 := Nat.div_mul_le_self _ _
    _ = 100 * (s.shr.get ad.feed).effective := Nat.mul_comm _ _

theorem additiveRate_le (s : State) : additiveRate s ≤ s.sdu.blend := by
  unfold additiveRate
  split
  · exact Nat.le_refl _
  · exact Nat.zero_le _

/-- R36: what the pumps draw on slurry is within the effective grants. -/
theorem rates_le_grants {s : State} (flow : FlowCurrent s) (rates : RatesCurrent s) (running : s.seq.state = .running)
    (polish : s.stepKind = some .polish) (flush : ∀ v, (s.chan .main).switch ≠ .flush v)
    (rinse : ∀ v, (s.chan .main).switch ≠ .postRinse v) :
    (∀ it, s.peer.own.main = some it → (s.chan .main).rate ≤ (s.shr.get it.feed).effective) ∧
    (∀ it, s.peer.own.additive = some it → (s.chan .additive).rate ≤ (s.shr.get it.feed).effective) := by
  obtain ⟨-, u, -, blend⟩ := flow
  obtain ⟨main, additive⟩ := rates
  refine ⟨fun it h => ?_, fun it h => ?_⟩
  · obtain ⟨st, step, kind⟩ := Option.map_eq_some_iff.1 polish
    obtain ⟨pumps, -⟩ := (mainRate_of_step flush rinse).2 st running step
    rw [main, pumps kind, u]
    split
    · exact usable_le_main h
    · exact Nat.zero_le _
  · rw [additive]
    exact (additiveRate_le s).trans (blend ▸ blend_le_additive h)

/-! ### The record -/

/-- The state holds a record of summary state `x`, if its step has items (R7, R8). -/
def RecordState (s : State) (x : Summary) : Prop :=
  (s.seq.state = .waiting ∧ x = .waiting) ∨ (s.seq.state = .running ∧ x = .running) ∨ (s.seq.state = .holding ∧ x = .holding)

theorem buildRecord_of_state {s : State} {x : Summary} (h : RecordState s x) (mode : s.ilk.mode ≠ .lockout) :
    buildRecord s = recordOf s x := by
  rw [buildRecord, if_neg mode]
  rcases h with ⟨state, rfl⟩ | ⟨state, rfl⟩ | ⟨state, rfl⟩
  · rw [state]
  · rw [state]
  · rw [state]

theorem buildRecord_of_no_state {s : State} (h : ∀ x, ¬ RecordState s x) : buildRecord s = .empty := by
  unfold buildRecord
  split
  · rfl
  · cases state : s.seq.state
    case waiting => exact absurd (.inl ⟨state, rfl⟩) (h .waiting)
    case running => exact absurd (.inr (.inl ⟨state, rfl⟩)) (h .running)
    case holding => exact absurd (.inr (.inr ⟨state, rfl⟩)) (h .holding)
    all_goals rfl

theorem recordOf_of_no_feed {s : State} (h : ∀ st, s.stepNow = some st → st.mainFeed = none) (x : Summary) :
    recordOf s x = .empty := by
  cases step : s.stepNow with
  | none => simp [recordOf, step]
  | some st => simp [recordOf, step, h st step]

theorem buildRecord_of_no_feed {s : State} (h : ∀ st, s.stepNow = some st → st.mainFeed = none) : buildRecord s = .empty := by
  unfold buildRecord
  split
  · rfl
  · cases s.seq.state <;> simp only [recordOf_of_no_feed h]

theorem lowered_iff (s : State) : s.lowered = true ↔ s.seq.state = .holding ∧ s.seq.causes.notForSlurry = true := by
  simp [State.lowered]

/-- The record's items, written out (R7 to R9, R11). -/
theorem recordOf_of_feed {s : State} {st : StepRec} {f : Feed} (step : s.stepNow = some st) (feed : st.mainFeed = some f)
    (x : Summary) :
    let asked := min st.flow s.img.pumpMax.main
    let floor := min st.floor asked
    let q := if s.seq.state = .holding ∧ s.seq.causes.notForSlurry = true then floor else asked
    let blended : Nat → Nat := fun v => min ((v * st.ratio + 99) / 100) s.img.pumpMax.additive
    recordOf s x = ⟨x, some ⟨f, q, floor, st.weight, s.peer.lowFeeds.get f⟩,
      st.addFeed.map (fun g => ⟨g, blended q, blended floor, st.weight, s.peer.lowFeeds.get g⟩)⟩ := by
  simp only [recordOf, step, feed, mainItem, lowered_iff]
  rfl

/-! ### u and SHARE by the record's items -/

theorem flow_of_main {s : State} {it : Item} (main : s.peer.own.main = some it) :
    let g : Feed → Nat := fun f => (s.shr.get f).effective
    let r := (s.stepNow.map StepRec.ratio).getD 1
    (s.peer.own.additive = none → usable s = min it.q (g it.feed) ∧ ∀ u, blendRate s u = 0) ∧
    (∀ ad, s.peer.own.additive = some ad →
      usable s = min it.q (min (g it.feed) (g ad.feed * 100 / r)) ∧ ∀ u, blendRate s u = u * r / 100) ∧
    ∀ u, shareCondition s u = decide (u < it.m) := by
  refine ⟨fun additive => ⟨?_, fun u => ?_⟩, fun ad additive => ⟨?_, fun u => ?_⟩, fun u => ?_⟩
  · simp only [usable, main, additive]
    rfl
  · simp only [blendRate, additive]
  · simp only [usable, main, additive]
    rfl
  · simp only [blendRate, additive]
    rfl
  · simp only [shareCondition, main]

theorem flow_of_no_main {s : State} (main : s.peer.own.main = none) : usable s = 0 ∧ ∀ u, shareCondition s u = false := by
  refine ⟨?_, fun u => ?_⟩
  · simp only [usable, main]
  · simp only [shareCondition, main]

/-- Settles O3: the carrying through, then the record, the flow and the rates as they follow from a state. -/
theorem settleBringsRecordAndFlowUpToDate : Obligations.SettleBringsRecordAndFlowUpToDate := by
  unfold Obligations.SettleBringsRecordAndFlowUpToDate
  refine ⟨fun s => ⟨settle_kept s, fun started => ?_, fun hr hh => ?_⟩,
    fun s => ⟨?_, ?_, ⟨flow_of_no_main, fun it => flow_of_main⟩, mainRate_of_flush, mainRate_of_step, additiveRate_spec s⟩⟩
  · obtain ⟨own, u, share, blend⟩ := settle_flowCurrent started
    have flow := settle_flowCurrent started
    obtain ⟨main, additive⟩ := settle_ratesCurrent started
    refine ⟨own, u, share, blend, main, additive, fun hr hh => ?_, rates_le_grants flow (settle_ratesCurrent started),
      fun holding stays => ?_⟩
    · obtain ⟨seq, -, -, -, -, -, -, lowFeeds, -⟩ := settle_calm hr hh
      exact own.trans (buildRecord_congr seq (by simp) (by simp) lowFeeds)
    · have hold : holdStays s := by simpa [holdStays, anyLow] using stays
      obtain ⟨seq, hpc, pcc, epm, drv, notices, -, lowFeeds, -⟩ := settle_stays started holding hold
      exact ⟨seq, hpc, pcc, epm, drv, notices, lowFeeds⟩
  · obtain ⟨seq, hpc, pcc, epm, drv, notices, lost, lowFeeds, di, -⟩ := settle_calm hr hh
    exact ⟨seq, hpc, pcc, epm, drv, notices, lost, lowFeeds, di⟩
  · intro x st f state mode step feed
    rw [buildRecord_of_state state mode]
    exact recordOf_of_feed step feed x
  · rintro (none | lockout | unfed)
    · exact buildRecord_of_no_state none
    · exact if_pos lockout
    · exact buildRecord_of_no_feed unfed

end Sys2Proof.Machine
end

section
/-! The end of SETTLE: a good load and a failed one. -/

namespace Sys2Proof.Machine

open Sys2Proof

/-! ### The store after a cut operation -/

theorem slot_setSlot {r : Rcp} (size : r.slots.length = 16) {n : Nat} (low : 1 ≤ n) (high : n ≤ 16) (x : Slot) :
    (r.setSlot n x).slot n = x := by
  have inside : n - 1 < r.slots.length := by omega
  simp [Rcp.slot, Rcp.setSlot, List.getD_eq_getElem?_getD, inside]

theorem slot_setSlot_of_ne (r : Rcp) {n j : Nat} (low : 1 ≤ n) (low' : 1 ≤ j) (other : j ≠ n) (x : Slot) :
    (r.setSlot n x).slot j = r.slot j := by
  have apart : n - 1 ≠ j - 1 := by omega
  simp [Rcp.slot, Rcp.setSlot, List.getD_eq_getElem?_getD, apart]

theorem profile_setProfile {r : Rcp} (size : r.profiles.length = 4) {p : Nat} (high : p ≤ 3) (x : Profile) :
    (r.setProfile p x).profile p = x := by
  have inside : p < r.profiles.length := by omega
  simp [Rcp.profile, Rcp.setProfile, List.getD_eq_getElem?_getD, inside]

theorem profile_setProfile_of_ne (r : Rcp) {p j : Nat} (other : j ≠ p) (x : Profile) :
    (r.setProfile p x).profile j = r.profile j := by
  simp [Rcp.profile, Rcp.setProfile, List.getD_eq_getElem?_getD, Ne.symm other]

/-- Profiles erased before the cut stand; the others are CORRUPT (R112). -/
theorem corruptProfiles_getD {l : List Profile} {p : Nat} (done : Nat) (h : p < l.length) :
    if p < done then (corruptProfiles l done).getD p .erased = l.getD p .erased
    else ((corruptProfiles l done).getD p .erased).state = .corrupt := by
  have taken : (l.take done).length = min done l.length := List.length_take
  split
  · rw [corruptProfiles, List.getD_append _ _ _ _ (by omega)]
    simp [List.getD_eq_getElem?_getD, *]
  · have inside : p - (l.take done).length < (l.drop done).length := by rw [List.length_drop]; omega
    rw [corruptProfiles, List.getD_append_right _ _ _ _ (by omega), List.getD_eq_getElem?_getD,
      List.getElem?_eq_getElem (by rw [List.length_map]; exact inside), List.getElem_map]
    rfl

/-- Every slot that is left when the erased ones are taken is CORRUPT (R112). -/
theorem corruptSlots_rest {x : Slot} {rest : List Slot} (k : Nat) (under : Bool) :
    ∀ y ∈ (if under then Slot.cutErase k else { x with state := .corrupt }) :: rest.map (fun y => { y with state := .corrupt }),
      y.state = SlotState.corrupt := by
  intro y h
  rcases List.mem_cons.1 h with rfl | h
  · cases under
    · rfl
    · rfl
  · obtain ⟨z, -, rfl⟩ := List.mem_map.1 h
    rfl

/-- Slots erased before the cut stand; the others are CORRUPT (R112). -/
theorem corruptSlots_getD {l : List Slot} {i : Nat} (erased : Nat) (under : Bool) (k : Nat) (h : i < l.length) :
    if i < erased then (corruptSlots l erased under k).getD i .erased = l.getD i .erased
    else ((corruptSlots l erased under k).getD i .erased).state = .corrupt := by
  have taken : (l.take erased).length = min erased l.length := List.length_take
  unfold corruptSlots
  split
  · rw [List.getD_append _ _ _ _ (by omega)]
    simp [List.getD_eq_getElem?_getD, *]
  · have whole : (l.drop erased).length = l.length - erased := List.length_drop
    cases left : l.drop erased with
    | nil => simp [left] at whole; omega
    | cons x rest =>
      have length : rest.length + 1 = l.length - erased := by rw [← whole, left]; rfl
      rw [List.getD_append_right _ _ _ _ (by omega), List.getD_eq_getElem _ _ (by simp; omega)]
      exact corruptSlots_rest k under _ (List.getElem_mem _)

/-- The operation writes, closes or erases slot `n`. -/
def WritesSlot (o : StoreOp) (n : Nat) : Prop :=
  (∃ part data, o = .writeHeader n part data) ∨ (∃ i data, o = .writeStep n i data) ∨ (∃ count, o = .closeRecipe n count) ∨
    o = .eraseRecipe n

/-- An operation on a slot that a reset cut leaves that slot CORRUPT (R112). -/
theorem scan_writesSlot {r : Rcp} {o : StoreOp} {n : Nat} (cut : r.inProgress = some o) (writes : WritesSlot o n) (k : Nat) :
    ∃ x : Slot, x.state = .corrupt ∧ r.scan k = { r.setSlot n x with inProgress := none } := by
  rcases writes with ⟨part, data, rfl⟩ | ⟨i, data, rfl⟩ | ⟨count, rfl⟩ | rfl
  · refine ⟨(r.slot n).cutHeader k part, ?_, by simp only [Rcp.scan, cut]⟩
    unfold Slot.cutHeader
    split
    · rfl
    · rfl
  · exact ⟨(r.slot n).cutStep k i, rfl, by simp only [Rcp.scan, cut]⟩
  · exact ⟨(r.slot n).cutClose k, rfl, by simp only [Rcp.scan, cut]⟩
  · exact ⟨Slot.cutErase k, rfl, by simp only [Rcp.scan, cut]⟩

/-- The examination of the store leaves the lock, the stored counters and the operation, and no mark (R94, R112). -/
theorem scan_keeps (r : Rcp) (k : Nat) :
    (r.scan k).lock = r.lock ∧ (r.scan k).diskStored = r.diskStored ∧ (r.scan k).padStored = r.padStored ∧
    (r.scan k).op = r.op ∧ (r.scan k).inProgress = none := by
  unfold Rcp.scan
  split
  · exact ⟨rfl, rfl, rfl, rfl, ‹_›⟩
  all_goals exact ⟨rfl, rfl, rfl, rfl, rfl⟩

theorem scan_of_none {r : Rcp} (h : r.inProgress = none) (k : Nat) : r.scan k = r := by simp only [Rcp.scan, h]

theorem scanStore_rcp (s : State) : (scanStore s).rcp = s.rcp.scan s.freeCount := by
  unfold scanStore
  split
  · rfl
  · rename_i unmarked
    exact (scan_of_none (by simpa using unmarked) _).symm

/-- What a cut operation leaves of a store of 16 slots and 4 profiles, target by target (R112). -/
theorem scan_targets {r : Rcp} (slots : r.slots.length = 16) (profiles : r.profiles.length = 4) {o : StoreOp}
    (cut : r.inProgress = some o) (k : Nat) :
    (∀ n, 1 ≤ n → n ≤ 16 → WritesSlot o n →
      ((r.scan k).slot n).state = .corrupt ∧ (∀ j, 1 ≤ j → j ≤ 16 → j ≠ n → (r.scan k).slot j = r.slot j) ∧
        (r.scan k).profiles = r.profiles) ∧
    (∀ p segments, p ≤ 3 → o = .writeProfile p segments →
      ((r.scan k).profile p).state = .corrupt ∧ (∀ j, j ≤ 3 → j ≠ p → (r.scan k).profile j = r.profile j) ∧
        (r.scan k).slots = r.slots) ∧
    (∀ done, done ≤ 20 → o = .eraseStore done →
      (∀ p, p ≤ 3 → if p < done then (r.scan k).profile p = r.profile p else ((r.scan k).profile p).state = .corrupt) ∧
      (∀ j, 1 ≤ j → j ≤ 16 →
        if j + 3 < done then (r.scan k).slot j = r.slot j else ((r.scan k).slot j).state = .corrupt)) := by
  refine ⟨fun n low high writes => ?_, fun p segments high ho => ?_, fun done _ ho => ?_⟩
  · obtain ⟨x, corrupt, scanned⟩ := scan_writesSlot cut writes k
    rw [scanned]
    refine ⟨?_, fun j low' _ other => slot_setSlot_of_ne r low low' other x, rfl⟩
    exact (congrArg Slot.state (slot_setSlot slots low high x)).trans corrupt
  · subst ho
    have scanned : r.scan k = { r.setProfile p .corrupted with inProgress := none } := by simp only [Rcp.scan, cut]
    rw [scanned]
    refine ⟨?_, fun j _ other => profile_setProfile_of_ne r other _, rfl⟩
    exact congrArg Profile.state (profile_setProfile profiles high _)
  · subst ho
    have scanned : r.scan k = { r with
        profiles := corruptProfiles r.profiles done, slots := corruptSlots r.slots (done - 4) (4 ≤ done) k
        inProgress := none } := by simp only [Rcp.scan, cut]
    rw [scanned]
    refine ⟨fun p high => corruptProfiles_getD done (by omega), fun j low high => ?_⟩
    have place : j + 3 < done ↔ j - 1 < done - 4 := by omega
    simp only [place]
    exact corruptSlots_getD (done - 4) (4 ≤ done) k (by omega)

/-! ### The calibrated stroke volumes -/

/-- The calibrated stroke volumes are the same. -/
def SameCalibration (s t : State) : Prop := ∀ c, (t.chan c).calibrated = (s.chan c).calibrated

theorem SameCalibration.refl (s : State) : SameCalibration s s := fun _ => rfl

theorem SameCalibration.trans {s t u : State} (h : SameCalibration s t) (h' : SameCalibration t u) : SameCalibration s u :=
  fun c => (h' c).trans (h c)

theorem SameCalibration.of_eq {s t : State} (h : t.sdu.ch = s.sdu.ch) : SameCalibration s t := fun c => by
  rw [State.chan, h]
  rfl

theorem setChan_calibration (s : State) (c : Channel) (d : Dispense) (h : d.calibrated = (s.chan c).calibrated) :
    SameCalibration s (s.setChan c d) := by
  intro x
  by_cases same : c = x
  · subst same
    exact (congrArg Dispense.calibrated (PerChannel.get_set_self _ _ _)).trans h
  · exact congrArg Dispense.calibrated (PerChannel.get_set_of_ne _ _ same)

theorem closeFeeds_calibration (c : Channel) (s : State) : SameCalibration s (closeFeeds c s) := by
  unfold closeFeeds
  dsimp only
  split
  · exact (SameCalibration.refl s).trans (setChan_calibration _ c _ rfl)
  · exact .refl s

theorem closeDi_calibration (s : State) : SameCalibration s (closeDi s) := by
  unfold closeDi
  dsimp only
  split
  · refine (setChan_calibration s .main _ ?_).trans (.of_eq rfl)
    split
    · rfl
    · rfl
  · exact .refl s

theorem setRate_calibrated (d : Dispense) (r : Nat) : (d.setRate r).calibrated = d.calibrated := by
  unfold Dispense.setRate
  split
  · rfl
  · split
    · rfl
    · rfl

theorem setPumps_calibration (s : State) : SameCalibration s (setPumps s)
  | .main => setRate_calibrated _ _
  | .additive => setRate_calibrated _ _

theorem closeChannel_calibration (c : Channel) (s : State) : SameCalibration s (closeChannel c s) := by
  cases c
  · exact (closeFeeds_calibration .main s).trans (closeDi_calibration _)
  · exact closeFeeds_calibration .additive s

theorem setSwitch_calibration (c : Channel) (w : Switch) (s : State) : SameCalibration s (setSwitch c w s) :=
  setChan_calibration s c _ rfl

theorem cutDispense_calibration (s : State) : SameCalibration s (cutDispense s) := by
  have closed := (closeChannel_calibration .main s).trans (closeChannel_calibration .additive _)
  have switched := (closed.trans (setSwitch_calibration .main .idle _)).trans (setSwitch_calibration .additive .idle _)
  exact switched.trans (setPumps_calibration _)

theorem enterRest_calibration (x : SeqState) (s : State) : SameCalibration s (enterRest x s) := by
  have vented : (ventHead (s.setSeq { s.seq with state := x })).sdu.ch = s.sdu.ch := by simp
  have stopped : ∀ u, (stopSymbolizer (stopDrives u)).sdu.ch = u.sdu.ch := fun u => by simp
  exact ((SameCalibration.of_eq vented).trans (cutDispense_calibration _)).trans (.of_eq (stopped _))

theorem settle_calibration {s : State} (hr : s.seq.state ≠ .running) (hh : s.seq.state ≠ .holding) :
    SameCalibration s (settle s) := by
  rw [settle_eq_of_calm hr hh]
  split
  · have carried : SameCalibration s (carry (carry (carry s))) := .of_eq (by simp)
    exact (carried.trans (setPumps_calibration _)).trans (.of_eq rfl)
  · exact .refl s

/-! ### Trips found at the load -/

theorem take_zero_setpoint (x : DriveState) : (x.take 0).setpoint = 0 := by
  unfold DriveState.take
  split
  · assumption
  · rfl

theorem stopDrives_setpoint (s : State) (d : Drive) : ((stopDrives s).drive d).setpoint = 0 := by
  cases d
  · exact take_zero_setpoint _
  · exact take_zero_setpoint _

theorem enterRest_setpoint (x : SeqState) (s : State) (d : Drive) : ((enterRest x s).drive d).setpoint = 0 := by
  have drv : (enterRest x s).drv = (stopDrives s).drv := by simp [enterRest, stopDrives]
  rw [State.drive, drv]
  exact stopDrives_setpoint s d

/-- A fault at rest in EMPTY: FAULTED with it first, both drives toward 0 (R87). -/
theorem takeFault_of_empty {s : State} (k : FaultKind) (started : s.started = true) (empty : s.seq.state = .empty) :
    (takeFault k s).seq = { s.seq with state := .faulted, first := some k } ∧ (takeFault k s).pcc = s.pcc ∧
    SameCalibration s (takeFault k s) ∧ ∀ d, ((takeFault k s).drive d).setpoint = 0 := by
  have fault : takeFault k s = enterRest .faulted (noticeFault k false (s.setSeq { s.seq with first := some k })) := by
    simp only [takeFault, started, if_true, empty]
  rw [fault]
  have noticed : (noticeFault k false (s.setSeq { s.seq with first := some k })).sdu.ch = s.sdu.ch := by simp
  exact ⟨by simp [enterRest], by simp, (SameCalibration.of_eq noticed).trans (enterRest_calibration _ _), enterRest_setpoint _ _⟩

/-- A later fault in FAULTED joins the later ones and changes nothing else of SEQ (R87). -/
theorem takeFault_of_faulted {s : State} (k : FaultKind) (started : s.started = true) (faulted : s.seq.state = .faulted) :
    (takeFault k s).seq = { s.seq with later := s.seq.later.add k } ∧ (takeFault k s).pcc = s.pcc ∧
    SameCalibration s (takeFault k s) ∧ (takeFault k s).drv = s.drv := by
  have fault : takeFault k s = noticeFault k true (s.setSeq { s.seq with later := s.seq.later.add k }) := by
    simp only [takeFault, started, if_true, faulted]
  rw [fault]
  exact ⟨by simp, by simp, .of_eq (by simp), by simp⟩

/-- The trips that stand at a load (R176): none leaves the state; one or two take SEQ to FAULTED. -/
theorem reportTrips_of_empty {s : State} (started : s.started = true) (empty : s.seq.state = .empty) :
    (reportTrips s).pcc = s.pcc ∧ SameCalibration s (reportTrips s) ∧
    (s.pins.trip = ⟨false, false⟩ → reportTrips s = s) ∧
    (s.pins.trip.platen = true ∨ s.pins.trip.head = true →
      (reportTrips s).seq = { s.seq with
        state := .faulted, first := some .driveTrip
        later := if s.pins.trip.platen = true ∧ s.pins.trip.head = true then s.seq.later.add .driveTrip else s.seq.later } ∧
      ∀ d, ((reportTrips s).drive d).setpoint = 0) := by
  obtain ⟨seq, pcc, cal, setpoint⟩ := takeFault_of_empty .driveTrip started empty
  have pins : (takeFault .driveTrip s).pins = s.pins := by simp
  cases platen : s.pins.trip.platen <;> cases head : s.pins.trip.head
  case false.false =>
    have stands : reportTrips s = s := by simp [reportTrips, platen, head]
    rw [stands]
    exact ⟨rfl, .refl s, fun _ => rfl, fun h => by simp at h⟩
  case true.true =>
    have again : (takeFault .driveTrip s).started = true := by simpa [State.started, State.inReset] using started
    obtain ⟨seq', pcc', cal', drv'⟩ := takeFault_of_faulted .driveTrip again (by rw [seq])
    have twice : reportTrips s = takeFault .driveTrip (takeFault .driveTrip s) := by simp [reportTrips, platen, head]
    rw [twice]
    refine ⟨pcc'.trans pcc, cal.trans cal', fun h => by simp [h] at platen, fun _ => ⟨?_, fun d => ?_⟩⟩
    · rw [seq', seq]
      simp
    · rw [State.drive, drv']
      exact setpoint d
  all_goals
    have once : reportTrips s = takeFault .driveTrip s := by simp [reportTrips, platen, head]
    rw [once]
    exact ⟨pcc, cal, fun h => by simp [h] at platen head, fun _ => ⟨by rw [seq]; simp, setpoint⟩⟩

/-! ### A good load -/

/-- The state of a good load before the trips are reported. -/
def loaded (b : List Byte) (s : State) : State :=
  beginSearch (scanStore (matchWarned (startDebouncers (startValveChecks (calibrate (startRefresh
    (s.setCfg { s.cfg with
      startUp := .listen, image := some (readImage b), imageSum := storedSum b, clampCount := clampCountOf b,
      listenTicks := 0 })))))))

theorem loadImage_eq (b : List Byte) (s : State) : loadImage b s = reportTrips (loaded b s) := rfl

/-- What a good load begins (R195): CFG, the refresh timer, the home search and the store's examination; SEQ and the blocks it directs
stand. -/
theorem loaded_keeps (b : List Byte) (s : State) :
    (loaded b s).cfg = { s.cfg with
      startUp := .listen, image := some (readImage b), imageSum := storedSum b, clampCount := clampCountOf b, listenTicks := 0 } ∧
    (loaded b s).peer.refresh = some 0 ∧ (loaded b s).peer.table = s.peer.table ∧
    (loaded b s).pcc.arm = .parked ∧ (loaded b s).pcc.homeFound = false ∧ (loaded b s).pcc.search = some 0 ∧
    (loaded b s).pcc.radius = s.pins.armFeedback ∧ (loaded b s).rcp = s.rcp.scan s.freeCount ∧ (loaded b s).pins = s.pins ∧
    (loaded b s).seq = s.seq ∧ (loaded b s).epm = s.epm ∧ (loaded b s).drv = s.drv ∧ (loaded b s).hpc = s.hpc ∧
    (loaded b s).lnk = s.lnk ∧ (loaded b s).pending = s.pending := by
  refine ⟨?_, ?_, ?_, ?_, ?_, ?_, ?_, ?_, ?_, ?_, ?_, ?_, ?_, ?_, ?_⟩
  all_goals simp [loaded, scanStore_rcp]
  all_goals simp [beginSearch, startRefresh]

/-- The line debouncers begin with the image's types (R164, R165). -/
theorem loaded_line (b : List Byte) (s : State) (l : Line) :
    (loaded b s).line l = { s.line l with timer := 0, armed := ((readImage b).lines.get l).type == .level } := by
  have lines : (loaded b s).ilk.lines =
      .of (fun l => { s.line l with timer := 0, armed := ((readImage b).lines.get l).type == .level }) := by
    simp [loaded]
    simp [startDebouncers, State.line, State.img]
  rw [State.line, lines, PerLine.get_of]

/-- The calibrated stroke volumes are the image's (R54). -/
theorem loaded_calibrated (b : List Byte) (s : State) (c : Channel) :
    ((loaded b s).chan c).calibrated = (readImage b).strokeVolume.get c := by
  have ch : (loaded b s).sdu.ch =
      (PerChannel.of fun c => { s.chan c with calibrated := (readImage b).strokeVolume.get c }).map
        (fun d => { d with valves := d.valves.map Valve.watch }) := by
    simp [loaded]
    simp [startValveChecks, calibrate, State.chan, State.img]
  rw [State.chan, ch]
  cases c
  · rfl
  · rfl

/-! ### The end of SETTLE -/

theorem settleEnd_spec {s : State} (held : s.cfg.held = false) (low : s.pins.supplyLow = false) (settling : s.cfg.startUp = .settle)
    (timer : 50000 ≤ s.cfg.settleTimer) : exec .settleEnd s = .next (settle (endSettle s)) := by
  have due : settleDue s = true := by
    have time : settleTime ≤ s.cfg.settleTimer := timer
    simp [settleDue, inReset_eq_false held low, settling, time]
  exact congrArg Host.Outcome.next (if_pos due)

theorem endSettle_of_good {s : State} {b : List Byte} (memory : s.pins.configMemory = some b) (good : loadGood b = true) :
    endSettle s = loadImage b s := by
  simp [endSettle, goodImage, memory, good]

theorem endSettle_of_failed {s : State}
    (bad : s.pins.configMemory = none ∨ ∃ b, s.pins.configMemory = some b ∧ loadGood b = false) : endSettle s = failLoad s := by
  rcases bad with memory | ⟨b, memory, bad⟩
  · simp [endSettle, goodImage, memory]
  · simp [endSettle, goodImage, memory, bad]

theorem loaded_started (b : List Byte) {s : State} (held : s.cfg.held = false) (low : s.pins.supplyLow = false) :
    (loaded b s).started = true := by
  obtain ⟨cfg, -, -, -, -, -, -, -, pins, -⟩ := loaded_keeps b s
  have up : (loaded b s).inReset = false := inReset_eq_false (by rw [cfg]; exact held) (by rw [pins]; exact low)
  simp [State.started, up, cfg]

/-- A good load, carried through with the trips that stand (R176, R195). -/
theorem goodLoad_spec (b : List Byte) {s : State} (held : s.cfg.held = false) (low : s.pins.supplyLow = false)
    (empty : s.seq.state = .empty) :
    let t := settle (loadImage b s)
    t.cfg = (loaded b s).cfg ∧ t.peer.refresh = some 0 ∧ t.pcc = (loaded b s).pcc ∧ t.ilk = (loaded b s).ilk ∧
    SameCalibration (loaded b s) t ∧ t.pins = s.pins ∧ t.peer.table = s.peer.table ∧ t.lnk.answers = s.lnk.answers ∧
    t.pending = s.pending ∧ t.rcp = s.rcp.scan s.freeCount ∧
    (s.pins.trip = ⟨false, false⟩ →
      t.seq = s.seq ∧ t.epm = s.epm ∧ t.drv = s.drv ∧ t.hpc = s.hpc ∧ t.lnk.notices = s.lnk.notices) ∧
    (s.pins.trip.platen = true ∨ s.pins.trip.head = true →
      t.seq.state = .faulted ∧ t.seq.first = some .driveTrip ∧ t.faultLine = true ∧
      t.seq.later = (if s.pins.trip.platen = true ∧ s.pins.trip.head = true then s.seq.later.add .driveTrip else s.seq.later) ∧
      ∀ d : Drive, (t.drive d).setpoint = 0) := by
  obtain ⟨cfg, refresh, table, -, -, -, -, rcp, pins, seq, epm, drv, hpc, lnk, pending⟩ := loaded_keeps b s
  have started := loaded_started b held low
  obtain ⟨pcc', cal', clear, tripped⟩ := reportTrips_of_empty started (by rw [seq, empty])
  rw [pins] at clear tripped
  rw [seq] at tripped
  have state : (reportTrips (loaded b s)).seq.state ≠ .running ∧ (reportTrips (loaded b s)).seq.state ≠ .holding := by
    by_cases trip : s.pins.trip.platen = true ∨ s.pins.trip.head = true
    · rw [(tripped trip).1]
      simp
    · have none : s.pins.trip = ⟨false, false⟩ := by
        obtain ⟨p, h⟩ : s.pins.trip.platen = false ∧ s.pins.trip.head = false := by simpa using trip
        cases trips : s.pins.trip
        simp_all
      rw [clear none, seq, empty]
      simp
  obtain ⟨seq'', hpc'', pcc'', epm'', drv'', notices'', -⟩ := settle_calm state.1 state.2
  rw [loadImage_eq]
  refine ⟨by simp, by simp [refresh], pcc''.trans pcc', by simp, cal'.trans (settle_calibration state.1 state.2), by simp [pins],
    by simp [table], by simp [lnk], by simp [pending], by simp [rcp], fun none => ?_, fun trip => ?_⟩
  · rw [seq'', hpc'', epm'', drv'', notices'', clear none, seq, hpc, epm, drv, lnk]
    exact ⟨rfl, rfl, rfl, rfl, rfl⟩
  · obtain ⟨faulted, setpoint⟩ := tripped trip
    have up : (settle (reportTrips (loaded b s))).inReset = false :=
      inReset_eq_false (by simpa [cfg] using held) (by simpa [pins] using low)
    rw [State.faultLine, up, seq'', faulted]
    refine ⟨rfl, rfl, by simp, rfl, fun d => ?_⟩
    rw [State.drive, drv'']
    exact setpoint d

/-- A failed load below the third: SETTLE again (R195). -/
theorem failLoad_of_again {s : State} (settling : s.cfg.startUp = .settle) (again : s.cfg.retry < 2) :
    settle (failLoad s) = { s with cfg := { s.cfg with
      image := none, retry := s.cfg.retry + 1, clampCount := 0, settleTimer := 0 } } := by
  have failed : failLoad s = { s with cfg := { s.cfg with
      image := none, retry := s.cfg.retry + 1, clampCount := 0, settleTimer := 0 } } := by
    rw [failLoad, if_pos (by omega), ← settling]
    rfl
  rw [failed]
  exact settle_of_not_started (by simp [State.started, settling])

/-- The third failed load: CONFIG_FAULT, LOCKOUT and a silent LNK (R180, R195). -/
theorem failLoad_of_third {s : State} (third : s.cfg.retry = 2) :
    settle (failLoad s) = { s with
      cfg := { s.cfg with startUp := .configFault, image := none, retry := 3, clampCount := 0 }
      ilk := { s.ilk with mode := .lockout }, lnk := silenceLnk s.lnk } := by
  have failed : failLoad s = { s with
      cfg := { s.cfg with startUp := .configFault, image := none, retry := 3, clampCount := 0 }
      ilk := { s.ilk with mode := .lockout }, lnk := silenceLnk s.lnk } := by
    rw [failLoad, if_neg (by omega)]
    rfl
  rw [failed]
  exact settle_of_not_started (by simp [State.started])

end Sys2Proof.Machine
end

section
/-! The configuration image as Table 11-1 reads it, and the whole of SETTLE's end: O7. -/

namespace Sys2Proof.Machine

open Sys2Proof

/-! ### The adjusted fields -/

/-- A field as Table 11-1 gives it: the value in force, the value that R194 gives, and the one it starts from. -/
def fieldRow (b : List Byte) (f : FieldSpec) : Nat × Nat × Nat := (fieldValue f b, fieldValue f b, fieldDefaulted f b)

theorem fieldRows_inForce (b : List Byte) : ∀ f ∈ allFields.map (fieldRow b), f.1 = f.2.1 := by
  intro f member
  obtain ⟨g, -, rfl⟩ := List.mem_map.1 member
  rfl

/-- The clamp count counts the rows that the last two steps of R194 changed. -/
theorem clampCountOf_eq (b : List Byte) :
    clampCountOf b = min 255 ((allFields.map (fieldRow b)).filter (fun f => decide (f.2.1 ≠ f.2.2))).length := by
  have changed : ∀ f, fieldChanged f b = decide (fieldValue f b ≠ fieldDefaulted f b) := fun f => by
    simp [fieldChanged, bne, beq_eq_decide]
  rw [clampCountOf, List.filter_map, List.length_map]
  simp only [changed]
  rfl

/-! ### Bits -/

theorem plumbed_get (n : Nat) (f : Feed) : (plumbed n).get f = true ↔ n / 2 ^ numFeed f % 2 = 1 := by
  cases f <;> simp [plumbed, PerFeed.get, bitsAt, numFeed]

theorem nibble_bit (n k i : Nat) (h : i ≤ 3) : n / 2 ^ k % 16 / 2 ^ i % 2 = n / 2 ^ (k + i) % 2 := by
  rw [pow_add, ← Nat.div_div_eq_div_mul]
  generalize n / 2 ^ k = m
  interval_cases i <;> omega

/-- The settings byte of a line (Table 11-1). -/
theorem lineSettings_eq (n : Nat) :
    lineSettings n = ⟨decide (n % 2 = 0), if n / 2 % 2 = 0 then .edge else .level,
      [0, 5, 20, 80].getD (n / 4 % 4) 0, [Routing.note, .hold, .abort, .linkStop].getD (n / 16 % 4) .note⟩ := by
  have debounce : bitsAt n 2 2 = n / 4 % 4 := rfl
  have routing : bitsAt n 4 2 = n / 16 % 4 := rfl
  have debounce_lt : n / 4 % 4 < 4 := Nat.mod_lt _ (by omega)
  have routing_lt : n / 16 % 4 < 4 := Nat.mod_lt _ (by omega)
  simp only [lineSettings, LineSettings.mk.injEq]
  refine ⟨by simp [bitsAt, beq_eq_decide], by simp [bitsAt], ?_, ?_⟩
  · rw [debounce]
    generalize n / 4 % 4 = d at debounce_lt
    interval_cases d <;> rfl
  · rw [routing]
    generalize n / 16 % 4 = r at routing_lt
    interval_cases r <;> rfl

theorem nonOverlap_eq (b : List Byte) : (readImage b).nonOverlap = [500, 1000, 2000, 4000].getD (rd b 41 % 4) 0 := by
  have code : bitsAt (rd b 41) 0 2 = rd b 41 % 4 := by simp [bitsAt]
  have code_lt : rd b 41 % 4 < 4 := Nat.mod_lt _ (by omega)
  simp only [readImage, code]
  generalize rd b 41 % 4 = c at code_lt
  interval_cases c <;> rfl

theorem lines_get (b : List Byte) (l : Line) : (readImage b).lines.get l = lineSettings (rd b (83 + numLine l)) := by
  cases l <;> rfl

theorem byteSum_eq (bs : List Byte) : byteSum bs = (bs.map BitVec.toNat).sum := by
  induction bs with
  | nil => rfl
  | cons x r ih => rw [List.map_cons, List.sum_cons, ← ih]; rfl

theorem loadGood_iff (b : List Byte) : loadGood b = true ↔
    b.length = 128 ∧ ((b.take 126).map BitVec.toNat).sum % 65536 = storedSum b ∧ rd b 0 ≤ 14 ∧
      (readImage b).cmdNode ≠ rd b 0 := by
  have cmdNode : (readImage b).cmdNode = fieldValue fCmdNode b := rfl
  simp [loadGood, byteSum_eq, and_assoc, cmdNode]

/-- The fields of Table 11-1 that use every value of their bits, and the judgement of the load (R194, R195). -/
theorem readImage_spec (b : List Byte) :
    let byte : Nat → Nat := fun n => (b.getD n 0).toNat
    let word : Nat → Nat := fun n => byte n + 256 * byte (n + 1)
    let long : Nat → Nat := fun n => word n + 65536 * word (n + 2)
    let image := readImage b
    image.node = byte 0 ∧ image.serial = long 4 ∧ image.diskLimit = long 75 ∧ image.padLimit = long 79 ∧
    image.stopReaction = (if byte 8 % 2 = 0 then .hold else .abort) ∧
    (∀ f : Feed, (image.plumbedMain.get f = true ↔ byte 25 / 2 ^ numFeed f % 2 = 1) ∧
      (image.plumbedAdditive.get f = true ↔ byte 25 / 2 ^ (4 + numFeed f) % 2 = 1)) ∧
    image.nonOverlap = [500, 1000, 2000, 4000].getD (byte 41 % 4) 0 ∧
    (∀ l : Line,
      let n := byte (83 + numLine l)
      image.lines.get l = ⟨decide (n % 2 = 0), if n / 2 % 2 = 0 then .edge else .level,
        [0, 5, 20, 80].getD (n / 4 % 4) 0, [Routing.note, .hold, .abort, .linkStop].getD (n / 16 % 4) .note⟩) ∧
    storedSum b = word 126 ∧
    (loadGood b = true ↔ b.length = 128 ∧ ((b.take 126).map BitVec.toNat).sum % 65536 = word 126 ∧ byte 0 ≤ 14 ∧
      image.cmdNode ≠ byte 0) := by
  refine ⟨rfl, rfl, rfl, rfl, ?_, fun f => ⟨?_, ?_⟩, nonOverlap_eq b, fun l => ?_, rfl, loadGood_iff b⟩
  · have code : bitsAt (rd b 8) 0 1 = rd b 8 % 2 := by simp [bitsAt]
    simp only [readImage, code, beq_iff_eq]
    rfl
  · have low : bitsAt (rd b 25) 0 4 = rd b 25 / 2 ^ 0 % 16 := rfl
    refine (plumbed_get _ f).trans ?_
    rw [low, nibble_bit _ 0 _ (numFeed_le f), Nat.zero_add]
    rfl
  · have high : bitsAt (rd b 25) 4 4 = rd b 25 / 2 ^ 4 % 16 := rfl
    refine (plumbed_get _ f).trans ?_
    rw [high, nibble_bit _ 4 _ (numFeed_le f)]
    rfl
  · rw [lines_get, lineSettings_eq]
    rfl

/-- Settles O7: the good load, the failed loads, the image. -/
theorem settleEndLoadsOrFails : Obligations.SettleEndLoadsOrFails := by
  unfold Obligations.SettleEndLoadsOrFails
  refine ⟨fun s b held low settling timer memory good empty => ?_, fun s held low settling timer bad => ?_, fun b => ?_⟩
  · obtain ⟨cfg, refresh, pcc, ilk, calibrated, pins, table, answers, pending, rcp, clear, tripped⟩ := goodLoad_spec b held low empty
    obtain ⟨cfg', -, -, arm, home, search, radius, -⟩ := loaded_keeps b s
    obtain ⟨lock, disk, pad, op, unmarked⟩ := scan_keeps s.rcp s.freeCount
    have loads := settleEnd_spec held low settling timer
    rw [endSettle_of_good memory good] at loads
    rw [cfg'] at cfg
    refine ⟨_, loads, ?_⟩
    rw [cfg, pcc, rcp]
    refine ⟨rfl, rfl, rfl, rfl, rfl, rfl, refresh, arm, home, search, radius, fun l => ?_, fun c => ?_, pins, table, answers, pending,
      clear, tripped, lock, disk, pad, op, fun none => scan_of_none none _, fun sized o cut => ⟨unmarked, ?_⟩⟩
    · rw [State.line, ilk, ← State.line, loaded_line]
      exact ⟨rfl, rfl, rfl⟩
    · rw [calibrated c, loaded_calibrated]
    · have targets := scan_targets sized.1 sized.2 cut s.freeCount
      simp only [State.slot, State.profile, rcp]
      exact targets
  · have failed := settleEnd_spec held low settling timer
    rw [endSettle_of_failed bad] at failed
    refine ⟨fun again => ?_, fun third => ?_⟩
    · rw [failed, failLoad_of_again settling again]
    · rw [failed, failLoad_of_third third]
      refine ⟨rfl, ?_⟩
      simp [State.faultLine, State.inReset, held, low]
  · have rows := fieldRows_inForce b
    have count := clampCountOf_eq b
    exact ⟨rows, count, readImage_spec b⟩

end Sys2Proof.Machine
end

section
/-! The valve paths and the grants through the operations that change them (R21, R22, R33 to R35, R39). -/

namespace Sys2Proof.Machine

open Sys2Proof

/-! ### What keeps the valves apart and the grants held off -/

/-- A change of state keeps the valves apart, and keeps the grants held off. -/
structure KeepsApart (s t : State) : Prop where
  valves : ValvesApart s → ValvesApart t
  grants : GrantsHeldOff s → GrantsHeldOff t

theorem KeepsApart.refl (s : State) : KeepsApart s s := ⟨id, id⟩

theorem KeepsApart.trans {s t u : State} (h : KeepsApart s t) (h' : KeepsApart t u) : KeepsApart s u :=
  ⟨fun v => h'.valves (h.valves v), fun g => h'.grants (h.grants g)⟩

/-- A change that leaves the dispense channels, the DI path and SHR. -/
theorem KeepsApart.of_frame {s t : State} (h : t.sdu.ch = s.sdu.ch ∧ t.sdu.di = s.sdu.di ∧ t.shr = s.shr) : KeepsApart s t := by
  obtain ⟨ch, di, shr⟩ := h
  exact ⟨fun apart => by simpa only [ValvesApart, State.chan, ch, di] using apart,
    fun held => by simpa only [GrantsHeldOff, shr] using held⟩

/-- A change followed by one that leaves them. -/
theorem KeepsApart.then_frame {s t u : State} (h : KeepsApart s t)
    (h' : u.sdu.ch = t.sdu.ch ∧ u.sdu.di = t.sdu.di ∧ u.shr = t.shr) : KeepsApart s u := h.trans (.of_frame h')

theorem KeepsApart.ite {c : Prop} [Decidable c] {s t u : State} (h : KeepsApart s t) (h' : KeepsApart s u) :
    KeepsApart s (if c then t else u) := by
  split
  · exact h
  · exact h'

/-- A fold of changes that each keep them. -/
theorem KeepsApart.foldl {α : Type} {f : State → α → State} (h : ∀ u x, KeepsApart u (f u x)) (l : List α) (s : State) :
    KeepsApart s (l.foldl f s) := by
  induction l generalizing s with
  | nil => exact .refl s
  | cons x r ih => exact (h s x).trans (ih _)

/-- An event keeps them where its meaning does. -/
theorem KeepsApart.whenDue {s u : State} (due : Bool) {f : State → State} (h : KeepsApart s u) (hf : KeepsApart u (f u)) :
    KeepsApart s (whenDue due u f) := by
  cases due
  · exact h
  · exact h.trans hf

/-! ### The grants of a feed -/

/-- A run leaves the effective grant at the computed one, or below it with the hold-off running (R33, R34). -/
theorem FeedShare.HeldOff.take {x : FeedShare} (h : x.HeldOff) (c now period : Nat) : (x.take c now period).HeldOff := by
  obtain ⟨-, -, hk, hm⟩ := h
  unfold FeedShare.take
  split
  · exact ⟨le_rfl, by simp, hk, hm⟩
  · next above => exact ⟨Nat.le_of_not_le above, by simpa using above, hk, hm⟩

/-- A mark raises k to at most 4 and takes the mark-free count to 0 (R21). -/
theorem FeedShare.HeldOff.mark {x : FeedShare} (h : x.HeldOff) (now period : Nat) : (x.mark now period).HeldOff := by
  obtain ⟨below, timer, hk, -⟩ := h
  unfold FeedShare.mark
  split
  · next raised =>
    have room : x.k < 4 := by simp only [FeedShare.raises, Bool.and_eq_true, decide_eq_true_eq] at raised; exact raised.1
    exact ⟨below, timer, room, Nat.zero_le _⟩
  · exact ⟨below, timer, hk, Nat.zero_le _⟩

/-- The examination at a refresh tick leaves the count at most 16 (R22). -/
theorem FeedShare.HeldOff.tick {x : FeedShare} (h : x.HeldOff) : x.tick.HeldOff := by
  obtain ⟨below, timer, hk, -⟩ := h
  refine ⟨below, timer, hk, ?_⟩
  unfold FeedShare.tick
  dsimp only
  split
  · exact Nat.zero_le _
  · exact Nat.min_le_left ..

theorem FeedShare.HeldOff.decrement {x : FeedShare} (h : x.HeldOff) : x.decrement.HeldOff := by
  obtain ⟨below, timer, hk, -⟩ := h
  exact ⟨below, timer, (Nat.sub_le ..).trans hk, Nat.zero_le _⟩

/-- At its expiry the hold-off stops with the grants equal (R35). -/
theorem FeedShare.HeldOff.expire {x : FeedShare} (h : x.HeldOff) : x.expire.HeldOff := by
  obtain ⟨-, -, hk, hm⟩ := h
  exact ⟨le_rfl, by simp [FeedShare.expire], hk, hm⟩

/-! ### The operations of SHR -/

/-- A change of one feed's share. -/
theorem KeepsApart.setFeed {s : State} {f : Feed} {x : FeedShare} (h : (s.shr.get f).HeldOff → x.HeldOff) :
    KeepsApart s (s.setShr (s.shr.set f x)) := by
  refine ⟨id, fun held g => ?_⟩
  rw [State.setShr_shr]
  by_cases same : f = g
  · subst same
    rw [PerFeed.get_set_self]
    exact h (held f)
  · rw [PerFeed.get_set_of_ne _ _ same]
    exact held g

theorem shrRun_apart (f : Feed) (s : State) : KeepsApart s (shrRun f s) := .ite (.setFeed fun h => h.take _ _ _) (.refl s)

theorem shrRuns_apart (touched : PerFeed Bool) (s : State) : KeepsApart s (shrRuns touched s) := by
  have one : ∀ (b : Bool) f u, KeepsApart u (if b then shrRun f u else u) := fun _ f u => .ite (shrRun_apart f u) (.refl u)
  exact (((one _ _ _).trans (one _ _ _)).trans (one _ _ _)).trans (one _ _ _)

theorem markSeen_apart (f : Feed) (s : State) : KeepsApart s (markSeen f s) := by
  have marked : KeepsApart s (s.setShr (s.shr.set f ((s.shr.get f).mark s.now s.period))) := .setFeed fun h => h.mark _ _
  exact marked.trans (.ite (shrRun_apart f _) (.refl _))

theorem reportMarks_apart (items : List Item) (s : State) : KeepsApart s (reportMarks items s) := by
  refine KeepsApart.foldl (fun u i => ?_) items s
  exact .ite (markSeen_apart i.feed u) (.refl u)

theorem rebuildRecord_apart (s : State) : KeepsApart s (rebuildRecord s) := by
  have placed : ∀ own, KeepsApart s (placeDemand (s.setPeer { s.peer with own := own })) := fun _ => .of_frame (by simp)
  exact .ite (.refl s) ((placed _).trans (shrRuns_apart ..))

theorem markLowFeeds_apart (s : State) : KeepsApart s (markLowFeeds s) :=
  markLowFeeds_eq s ▸ reportMarks_apart ..

theorem placeDemand_apart (s : State) : KeepsApart s (placeDemand s) := .of_frame (by simp)

theorem refresh_apart (s : State) : KeepsApart s (refresh s) := by
  have aged : ∀ p, KeepsApart s (s.setPeer p) := fun _ => .of_frame (by simp)
  have examined : ∀ u : State, KeepsApart u (u.setShr (u.shr.map FeedShare.tick)) := fun u =>
    ⟨id, fun held f => by simpa using (held f).tick⟩
  exact (((aged _).trans (markLowFeeds_apart _)).trans (examined _)).trans (placeDemand_apart _)

theorem makeStale_apart (n : Nat) (s : State) : KeepsApart s (makeStale n s) := by
  unfold makeStale
  split
  · exact .refl s
  · exact .trans (.of_frame (by simp)) (shrRuns_apart ..)

theorem removeEntry_apart (n : Nat) (s : State) : KeepsApart s (removeEntry n s) := by
  unfold removeEntry
  split
  · exact .refl s
  · exact .trans (.of_frame (by simp)) (shrRuns_apart ..)

theorem beginIsolation_apart (s : State) : KeepsApart s (beginIsolation s) := .trans (.of_frame (by simp)) (shrRuns_apart ..)

theorem stepDerate_apart (f : Feed) (s : State) : KeepsApart s (stepDerate f s) :=
  .trans (.setFeed fun h => h.decrement) (shrRun_apart f _)

theorem expireHoldOff_apart (f : Feed) (s : State) : KeepsApart s (expireHoldOff f s) := .setFeed fun h => h.expire

/-- A DEMAND delivered to PEER (R2, R3). -/
theorem takeDemand_apart (source : Nat) (p : List Byte) (s : State) : KeepsApart s (takeDemand source p s) := by
  have stored : ∀ table, KeepsApart s (s.setPeer { s.peer with table := table }) := fun _ => .of_frame (by simp)
  exact .ite (.refl s) (.ite (((stored _).trans (reportMarks_apart ..)).trans (shrRuns_apart ..)) (.of_frame (by simp)))

end Sys2Proof.Machine
end

section
/-! The valves through the operations of SDU: feed switches, the post-rinse, pulses, low inlets and faults (R38 to R47, R53 to R60). -/

namespace Sys2Proof.Machine

open Sys2Proof

/-! ### A dispense channel -/

theorem State.chan_setChan (s : State) (c : Channel) (d : Dispense) : (s.setChan c d).chan c = d := PerChannel.get_set_self ..

theorem State.chan_setChan_of_ne (s : State) {c x : Channel} (d : Dispense) (h : c ≠ x) : (s.setChan c d).chan x = s.chan x :=
  PerChannel.get_set_of_ne _ _ h

/-- A rate leaves a channel's valves (R49, R51). -/
theorem Dispense.setRate_valves (d : Dispense) (r : Nat) : (d.setRate r).valves = d.valves := by
  unfold Dispense.setRate
  split
  · rfl
  · split <;> rfl

theorem Dispense.closeWindow_valves (d : Dispense) (pulse tolerance : Nat) : (d.closeWindow pulse tolerance).valves = d.valves := by
  unfold Dispense.closeWindow
  dsimp only
  split <;> split <;> rfl

theorem Dispense.countStroke_valves (d : Dispense) : d.countStroke.valves = d.valves := by
  unfold Dispense.countStroke
  split
  · split <;> rfl
  · rfl

theorem Dispense.countPulse_valves (d : Dispense) : d.countPulse.valves = d.valves := by
  unfold Dispense.countPulse
  split <;> rfl

/-- A closed valve is not open. -/
@[simp] theorem Valve.close_isOpen (v : Valve) : v.close.isOpen = false := by
  unfold Valve.close
  split
  · rfl
  · next shut => simpa using shut

theorem Dispense.openFeed_isNone {d : Dispense} (h : d.openFeed.isSome ≠ true) (f : Feed) : (d.valves.get f).isOpen = false := by
  have none_open : ∀ g ∈ PerFeed.indices, (d.valves.get g).isOpen = false := by simpa [Dispense.openFeed] using h
  exact none_open f (by cases f <;> decide)

/-! ### Changes that open no valve -/

/-- No valve is open in `t` that is not open in `s`. -/
def OpensNone (s t : State) : Prop :=
  (∀ c f, ((t.chan c).valves.get f).isOpen = true → ((s.chan c).valves.get f).isOpen = true) ∧
  (t.sdu.di.isOpen = true → s.sdu.di.isOpen = true)

theorem OpensNone.refl (s : State) : OpensNone s s := ⟨fun _ _ => id, id⟩

theorem OpensNone.trans {s t u : State} (h : OpensNone s t) (h' : OpensNone t u) : OpensNone s u :=
  ⟨fun c f o => h.1 c f (h'.1 c f o), fun o => h.2 (h'.2 o)⟩

theorem OpensNone.of_frame {s t : State} (ch : t.sdu.ch = s.sdu.ch) (di : t.sdu.di.isOpen = true → s.sdu.di.isOpen = true) :
    OpensNone s t := ⟨fun c f o => by simpa only [State.chan, ch] using o, di⟩

/-- A channel replaced by one with no further valve open. -/
theorem OpensNone.setChan {s : State} {c : Channel} {d : Dispense}
    (h : ∀ f, (d.valves.get f).isOpen = true → ((s.chan c).valves.get f).isOpen = true) : OpensNone s (s.setChan c d) := by
  refine ⟨fun x f o => ?_, id⟩
  by_cases same : c = x
  · subst same
    rw [State.chan_setChan] at o
    exact h f o
  · rwa [State.chan_setChan_of_ne _ _ same] at o

/-- A channel replaced by one with the same valves. -/
theorem OpensNone.same_valves {s : State} {c : Channel} {d : Dispense} (h : d.valves = (s.chan c).valves) :
    OpensNone s (s.setChan c d) := .setChan fun f o => by rwa [h] at o

/-- Valves that are not opened stay apart. -/
theorem OpensNone.valvesApart {s t : State} (h : OpensNone s t) (apart : ValvesApart s) : ValvesApart t := by
  obtain ⟨feeds, di⟩ := h
  obtain ⟨one, rinse⟩ := apart
  refine ⟨fun c f g of og => one c f g (feeds c f of) (feeds c g og), fun o f => ?_⟩
  have shut := rinse (di o) f
  exact Bool.eq_false_iff.2 fun of => Bool.eq_false_iff.1 shut (feeds .main f of)

theorem OpensNone.keeps {s t : State} (h : OpensNone s t) (shr : t.shr = s.shr) : KeepsApart s t :=
  ⟨h.valvesApart, fun held f => by rw [shr]; exact held f⟩

/-- A channel replaced by one with the same valves. -/
theorem KeepsApart.setChan {s : State} {c : Channel} {d : Dispense} (h : d.valves = (s.chan c).valves) :
    KeepsApart s (s.setChan c d) := (OpensNone.same_valves h).keeps (by simp)

/-! ### Closing -/

theorem closeFeeds_opensNone (c : Channel) (s : State) : OpensNone s (closeFeeds c s) := by
  have low : ∀ p, OpensNone s (s.setPeer p) := fun _ => .refl s
  unfold closeFeeds
  dsimp only
  split
  · refine (low _).trans (.setChan fun f o => ?_)
    simp at o
  · exact .refl s

theorem closeFeeds_closes (c : Channel) (s : State) (f : Feed) : (((closeFeeds c s).chan c).valves.get f).isOpen = false := by
  unfold closeFeeds
  dsimp only
  split
  · rw [State.chan_setChan]
    simp
  · next none_open => exact Dispense.openFeed_isNone none_open f

theorem closeDi_opensNone (s : State) : OpensNone s (closeDi s) := by
  have shut : ∀ u : State, OpensNone u (u.setSdu { u.sdu with di := u.sdu.di.close }) := fun u =>
    .of_frame rfl fun o => by simp at o
  unfold closeDi
  dsimp only
  split
  · refine OpensNone.trans (.same_valves ?_) (shut _)
    split <;> rfl
  · exact .refl s

theorem closeDi_closes (s : State) : (closeDi s).sdu.di.isOpen = false := by
  unfold closeDi
  dsimp only
  split
  · simp
  · next shut => simpa using shut

theorem closeChannel_opensNone (c : Channel) (s : State) : OpensNone s (closeChannel c s) := by
  cases c
  · exact (closeFeeds_opensNone .main s).trans (closeDi_opensNone _)
  · exact closeFeeds_opensNone .additive s

/-- A closed channel has no feed valve open, and MAIN no DI valve either (R39). -/
theorem closeChannel_closes (c : Channel) (s : State) : (∀ f, (((closeChannel c s).chan c).valves.get f).isOpen = false) ∧
    (c = .main → (closeChannel c s).sdu.di.isOpen = false) := by
  cases c
  · refine ⟨fun f => ?_, fun _ => closeDi_closes _⟩
    have shut := closeFeeds_closes .main s f
    exact Bool.eq_false_iff.2 fun o => Bool.eq_false_iff.1 shut ((closeDi_opensNone (closeFeeds .main s)).1 .main f o)
  · exact ⟨closeFeeds_closes .additive s, fun h => by cases h⟩

/-! ### Opening -/

/-- A feed valve opens on a channel that is closed (R39). -/
theorem openFeedValve_apart (c : Channel) (f : Feed) (s : State) : KeepsApart s (openFeedValve c f s) := by
  refine ⟨fun apart => ?_, fun held g => by simpa using held g⟩
  obtain ⟨shut, rinse⟩ := closeChannel_closes c s
  obtain ⟨one, di⟩ := (closeChannel_opensNone c s).valvesApart apart
  unfold openFeedValve
  dsimp only
  generalize closeChannel c s = u at *
  have alone : ∀ {v : Valve} {g : Feed}, (((u.chan c).valves.set f v).get g).isOpen = true → f = g := fun {v g} o => by
    by_contra other
    rw [PerFeed.get_set_of_ne _ _ other, shut g] at o
    cases o
  split
  · refine ⟨fun x g g' o o' => ?_, fun o g => ?_⟩
    · by_cases same : c = x
      · subst same
        rw [State.chan_setChan] at o o'
        exact (alone o).symm.trans (alone o')
      · rw [State.chan_setChan_of_ne _ _ same] at o o'
        exact one x g g' o o'
    · cases c
      · exact absurd o (Bool.eq_false_iff.1 (rinse rfl))
      · exact di o g
  · exact ⟨one, di⟩

/-- DI opens on a MAIN channel whose feed valves are closed (R39). -/
theorem openDi_apart (s : State) : KeepsApart s (openDi s) := by
  refine ⟨fun apart => ?_, fun held g => by simpa using held g⟩
  obtain ⟨one, -⟩ := (closeFeeds_opensNone .main s).valvesApart apart
  exact ⟨one, fun _ f => closeFeeds_closes .main s f⟩

theorem setSwitch_apart (c : Channel) (w : Switch) (s : State) : KeepsApart s (setSwitch c w s) :=
  KeepsApart.setChan rfl

theorem openTarget_apart (c : Channel) (t : Target) (s : State) : KeepsApart s (openTarget c t s) := by
  cases t with
  | feed f => exact (openFeedValve_apart c f s).trans (setSwitch_apart ..)
  | di => exact (openDi_apart s).trans (setSwitch_apart ..)
  | none => exact setSwitch_apart ..

/-! ### Pumps, switches and the post-rinse -/

theorem setPumps_opensNone (s : State) : OpensNone s (setPumps s) := by
  refine ⟨fun c f o => ?_, id⟩
  cases c
  · exact Dispense.setRate_valves (s.chan .main) _ ▸ o
  · exact Dispense.setRate_valves (s.chan .additive) _ ▸ o

theorem setPumps_apart (s : State) : KeepsApart s (setPumps s) := (setPumps_opensNone s).keeps (by simp)

theorem closeFeeds_apart (c : Channel) (s : State) : KeepsApart s (closeFeeds c s) := (closeFeeds_opensNone c s).keeps (by simp)

theorem closeDi_apart (s : State) : KeepsApart s (closeDi s) := (closeDi_opensNone s).keeps (by simp)

theorem closeChannel_apart (c : Channel) (s : State) : KeepsApart s (closeChannel c s) := (closeChannel_opensNone c s).keeps (by simp)

theorem stopPump_apart (c : Channel) (s : State) : KeepsApart s (stopPump c s) :=
  KeepsApart.setChan ((Dispense.setRate_valves ..))

theorem startSwitch_apart (c : Channel) (t : Target) (s : State) : KeepsApart s (startSwitch c t s) := by
  have aimed : KeepsApart s (s.setChan c { s.chan c with target := t }) := KeepsApart.setChan rfl
  have closed := aimed.trans (closeChannel_apart c _)
  exact .ite (aimed.trans (setSwitch_apart ..))
    (.ite (closed.trans (setSwitch_apart ..)) (.ite (closed.trans (setSwitch_apart ..)) (closed.trans (openTarget_apart ..))))

theorem endNonOverlap_apart (c : Channel) (s : State) : KeepsApart s (endNonOverlap c s) :=
  .ite ((openDi_apart s).trans (setSwitch_apart ..)) (openTarget_apart ..)

theorem endFlush_apart (s : State) : KeepsApart s (endFlush s) :=
  (((stopPump_apart .main s).trans (setSwitch_apart ..)).trans (closeDi_apart _)).trans (openTarget_apart ..)

theorem cutDispense_apart (s : State) : KeepsApart s (cutDispense s) := by
  have closed := (closeChannel_apart .main s).trans (closeChannel_apart .additive _)
  have switched := (closed.trans (setSwitch_apart .main .idle _)).trans (setSwitch_apart .additive .idle _)
  exact switched.trans (setPumps_apart _)

theorem runPostRinse_apart (s : State) : KeepsApart s (runPostRinse s) :=
  (KeepsApart.ite (.refl s) (openDi_apart s)).trans (setSwitch_apart ..)

theorem startPostRinse_apart (s : State) : KeepsApart s (startPostRinse s) := by
  have begun : KeepsApart s (closeFeeds .additive (s.setSdu { s.sdu with rinseDone := false })) :=
    .trans (.of_frame (by simp)) (closeFeeds_apart ..)
  have none_left : ∀ u, KeepsApart u (setSwitch .main .idle (closeChannel .main u)) := fun u =>
    (closeChannel_apart .main u).trans (setSwitch_apart ..)
  unfold startPostRinse
  dsimp only
  refine begun.trans ?_
  generalize closeFeeds .additive (s.setSdu _) = u
  refine .ite ?_ (.ite (.refl u) (.ite ?_ (.ite (runPostRinse_apart u) ?_)))
  · exact (none_left u).then_frame ⟨rfl, rfl, rfl⟩
  · exact (closeFeeds_apart .main u).trans (setSwitch_apart ..)
  · split
    · exact setSwitch_apart ..
    · exact runPostRinse_apart _

theorem endPostRinse_apart (s : State) : KeepsApart s (endPostRinse s) :=
  (((stopPump_apart .main s).trans (setSwitch_apart ..)).trans (closeDi_apart _)).then_frame ⟨rfl, rfl, rfl⟩

/-! ### Counting and the cross-check -/

theorem placeNotice_apart (kind : Nat) (body : List Byte) (s : State) : KeepsApart s (placeNotice kind body s) := .of_frame (by simp)

theorem closeWindow_apart (c : Channel) (s : State) : KeepsApart s (closeWindow c s) :=
  KeepsApart.setChan ((Dispense.closeWindow_valves ..))

theorem enterFallback_apart (c : Channel) (s : State) : KeepsApart s (enterFallback c s) := by
  have fallen : KeepsApart s (s.setChan c { s.chan c with source := .fallback, disagreeing := 0, agreeing := 0 }) :=
    KeepsApart.setChan rfl
  have flagged : ∀ u : State, KeepsApart u (u.setSdu { u.sdu with mismatch := true }) := fun _ => .of_frame ⟨rfl, rfl, rfl⟩
  exact (fallen.trans (flagged _)).trans (placeNotice_apart ..)

theorem restoreFlow_apart (c : Channel) (s : State) : KeepsApart s (restoreFlow c s) := by
  have restored : KeepsApart s (s.setChan c { s.chan c with source := .flowmeter, agreeing := 0 }) :=
    KeepsApart.setChan rfl
  exact restored.trans (placeNotice_apart ..)

theorem countVolume_apart (c : Channel) (v : Nat) (s : State) : KeepsApart s (countVolume c v s) := by
  cases c
  · have counted : ∀ w, KeepsApart s (s.setChan .main { s.chan .main with switch := w }) := fun _ =>
      KeepsApart.setChan rfl
    exact (counted _).then_frame ⟨rfl, rfl, rfl⟩
  · exact .refl s

/-- A stroke: its volume, and the window that a 200th stroke closes (R53 to R56). -/
theorem takeStroke_apart (c : Channel) (s : State) : KeepsApart s (takeStroke c s) := by
  have window : ∀ u, KeepsApart u (settleWindow c u) := fun u => by
    have closed : KeepsApart u (whenDue (windowDue c u) u (closeWindow c)) := .whenDue _ (.refl u) (closeWindow_apart c u)
    have fallen := fun due => closed.whenDue due (enterFallback_apart c _)
    exact (fallen _).whenDue _ (restoreFlow_apart c _)
  have counted : KeepsApart s (s.setChan c (s.chan c).countStroke) := KeepsApart.setChan ((Dispense.countStroke_valves _))
  exact .ite (.refl s) (.trans (.ite (counted.trans (countVolume_apart ..)) counted) (window _))

/-- A flowmeter pulse: its volume (R53). -/
theorem takePulse_apart (c : Channel) (s : State) : KeepsApart s (takePulse c s) := by
  have counted : KeepsApart s (s.setChan c (s.chan c).countPulse) := KeepsApart.setChan ((Dispense.countPulse_valves _))
  exact .ite (.refl s) (.ite (counted.trans (countVolume_apart ..)) counted)

theorem endWarmUp_apart (c : Channel) (s : State) : KeepsApart s (endWarmUp c s) := KeepsApart.setChan rfl

/-! ### Low inlets and valve faults -/

theorem raiseLow_apart (c : Channel) (s : State) : KeepsApart s (raiseLow c s) := by
  have raised : KeepsApart s (s.setChan c (s.chan c).raised) := KeepsApart.setChan rfl
  have found : ∀ f, KeepsApart s (foundLow c f s) := fun f => raised.then_frame ⟨rfl, rfl, rfl⟩
  cases feed : (s.chan c).openFeed with
  | none => simpa only [raiseLow, feed] using KeepsApart.refl s
  | some f => exact raiseLow_eq feed ▸ ((found f).trans (rebuildRecord_apart _)).trans (markSeen_apart ..)

theorem clearLow_apart (c : Channel) (s : State) : KeepsApart s (clearLow c s) := by
  have cleared : ∀ p, KeepsApart s (s.setPeer p) := fun _ => .of_frame (by simp)
  exact (cleared _).trans (KeepsApart.setChan rfl)

/-- A path found FAULT_CLOSED is not open (R40). -/
theorem faultValve_apart (c : Channel) (p : Path) (s : State) : KeepsApart s (faultValve c p s) := by
  have shut : (⟨.faultClosed, 0, 0⟩ : Valve).isOpen ≠ true := by decide
  cases p with
  | feed f =>
    have closed := (closeFeeds_apart c s).trans (stopPump_apart c _)
    refine (KeepsApart.ite closed (.refl s)).trans (OpensNone.keeps (.setChan fun g o => ?_) (by simp))
    by_cases same : f = g
    · subst same
      rw [PerFeed.get_set_self] at o
      exact absurd o shut
    · rwa [PerFeed.get_set_of_ne _ _ same] at o
  | di =>
    have closed := (closeDi_apart s).trans (stopPump_apart .main _)
    exact (KeepsApart.ite closed (.refl s)).trans (OpensNone.keeps (.of_frame rfl fun o => absurd o shut) rfl)

end Sys2Proof.Machine
end

section
/-! The valves and the grants through the sequencer's entries, the orders, the link and start-up (R47, R68, R82 to R88, R182 to R184, R195). -/

namespace Sys2Proof.Machine

open Sys2Proof

/-! ### The sequencer's entries and exits -/

theorem enterRest_apart (x : SeqState) (s : State) : KeepsApart s (enterRest x s) := by
  have vented : KeepsApart s (ventHead (s.setSeq { s.seq with state := x })) := .of_frame (by simp)
  have stopped : ∀ u, KeepsApart u (stopSymbolizer (stopDrives u)) := fun _ => .of_frame (by simp)
  exact (vented.trans (cutDispense_apart _)).trans (stopped _)

theorem enterAborting_apart (r : RunResult) (s : State) : KeepsApart s (enterAborting r s) := by
  have cut : KeepsApart s (if undecided s then appendEntry (s.entryNow .cut) s else s) := .ite (.of_frame (by simp)) (.refl s)
  have vented : ∀ (u : State) q, KeepsApart u (ventHead (u.setSeq q)) := fun _ _ => .of_frame (by simp)
  have stopped : ∀ u, KeepsApart u (clearPersist (stopSymbolizer (stopDrives (liftForEnd u)))) := fun _ => .of_frame (by simp)
  exact ((cut.trans (vented ..)).trans (cutDispense_apart _)).trans (stopped _)

theorem takeFault_apart (k : FaultKind) (s : State) : KeepsApart s (takeFault k s) := by
  have noticed : ∀ later q, KeepsApart s (noticeFault k later (s.setSeq q)) := fun _ _ => .of_frame (by simp)
  have rested : ∀ q, KeepsApart s (enterRest .faulted (noticeFault k false (s.setSeq q))) := fun q =>
    (noticed false q).trans (enterRest_apart ..)
  have aborted : ∀ q, KeepsApart s (enterAborting .faulted (noticeFault k false (s.setSeq q))) := fun q =>
    (noticed false q).trans (enterAborting_apart ..)
  unfold takeFault
  split
  · split
    case h_1 | h_2 | h_3 => exact rested _
    case h_4 | h_5 | h_6 | h_7 => exact aborted _
    case h_8 => exact .ite (noticed ..) (noticed ..)
    case h_9 => exact noticed ..
  · exact .refl s

theorem abortRun_apart (r : RunResult) (s : State) : KeepsApart s (abortRun r s) := .ite (enterAborting_apart ..) (.refl s)

theorem enterHolding_apart (t : ResumeTarget) (causes : CauseSet) (s : State) : KeepsApart s (enterHolding t causes s) := .of_frame (by simp)

theorem holdFor_apart (c : Cause) (s : State) : KeepsApart s (holdFor c s) := .of_frame (by simp)

theorem armFault_apart (c : ArmCause) (s : State) : KeepsApart s (armFault c s) := .of_frame (by simp)

theorem appendEntry_apart (e : RunEntry) (s : State) : KeepsApart s (appendEntry e s) := .of_frame (by simp)

theorem enterEnding_apart (s : State) : KeepsApart s (enterEnding s) := by
  have ended : ∀ q, KeepsApart s (s.setSeq q) := fun _ => .of_frame (by simp)
  have levelled : ∀ u, KeepsApart u (clearPersist (stopSymbolizer (liftForEnd (takeHoldLevels u)))) := fun _ => .of_frame (by simp)
  have rinsed := fun q => ((ended q).trans (startPostRinse_apart _)).trans (levelled _)
  exact .ite ((rinsed _).trans (takeFault_apart ..)) (rinsed _)

theorem endStep_apart (r : StepResult) (s : State) : KeepsApart s (endStep r s) :=
  (appendEntry_apart ..).trans (enterEnding_apart _)

theorem checkDose_apart (s : State) : KeepsApart s (checkDose s) := .ite (endStep_apart ..) (.refl s)

theorem missEndpoint_apart (s : State) : KeepsApart s (missEndpoint s) := by
  have entered := appendEntry_apart (s.entryNow .endpointMissed) s
  unfold missEndpoint
  dsimp only
  split
  · exact entered.trans (enterEnding_apart _)
  · exact entered.then_frame (by simp)
  · exact entered.trans (enterAborting_apart ..)

theorem reachLimit_apart (s : State) : KeepsApart s (reachLimit s) := by
  unfold reachLimit
  split
  · exact endStep_apart ..
  · exact endStep_apart ..
  · exact .ite (endStep_apart ..) (missEndpoint_apart s)
  · exact .refl s

theorem startSwitches_apart (st : StepRec) (s : State) : KeepsApart s (startSwitches st s) := by
  have main := startSwitch_apart .main (targetOf .main st) s
  exact .ite (takeFault_apart ..) (.ite (main.trans (takeFault_apart ..)) (main.trans (startSwitch_apart ..)))

theorem reportTrips_apart (s : State) : KeepsApart s (reportTrips s) := by
  have platen : KeepsApart s (if s.pins.trip.platen then takeFault .driveTrip s else s) := .ite (takeFault_apart ..) (.refl s)
  exact .ite (platen.trans (takeFault_apart ..)) platen

theorem enterWaiting_apart (k : Nat) (fromStart : Bool) (s : State) : KeepsApart s (enterWaiting k fromStart s) := by
  have prepared : ∀ u, KeepsApart u (takeStepSpeeds (takeHoldOrVent u)) := fun _ => .of_frame (by simp)
  have early : KeepsApart s (takeStepSpeeds (takeHoldOrVent (rebuildRecord (s.setSeq (s.seq.newStep k))))) :=
    (KeepsApart.trans (.of_frame (by simp)) (rebuildRecord_apart _)).trans (prepared _)
  have trips : ∀ u, KeepsApart u (if fromStart then reportTrips u else u) := fun u => .ite (reportTrips_apart u) (.refl u)
  have last : ∀ u : State, KeepsApart u (if u.seq.state = .waiting ∧ (entryCauses s.seq.deferred u).isEmpty = false then
      enterHolding .waiting (entryCauses s.seq.deferred u) u else u) := fun u => .ite (enterHolding_apart ..) (.refl u)
  unfold enterWaiting
  dsimp only
  generalize takeStepSpeeds (takeHoldOrVent (rebuildRecord (s.setSeq (s.seq.newStep k)))) = u at early
  cases u.stepNow with
  | none => exact (early.trans (trips u)).trans (last _)
  | some st => exact ((early.trans (startSwitches_apart st u)).trans (trips _)).trans (last _)

theorem leaveHolding_apart (s : State) : KeepsApart s (leaveHolding s) := by
  have left : ∀ u x, KeepsApart u (noticeLeft x u) := fun _ _ => .of_frame (by simp)
  have turned : ∀ (u : State) q, KeepsApart u (u.setSeq q) := fun _ _ => .of_frame (by simp)
  unfold leaveHolding
  split
  · exact .ite ((left ..).trans (enterEnding_apart _)) (.ite (turned ..) (.of_frame (by simp)))
  · exact .ite (((appendEntry_apart ..).trans (left ..)).trans (enterEnding_apart _)) ((turned ..).trans (left ..))

theorem resumeHold_apart (s : State) : KeepsApart s (resumeHold s) := by
  have removed : KeepsApart s ((resumeDisposition s).setSeq { (resumeDisposition s).seq with causes := causesAfterResume (resumeDisposition s) }) :=
    .of_frame (by simp)
  exact .ite (removed.trans (leaveHolding_apart _)) removed

theorem noticeRunEnded_apart (timeout : Bool) (s : State) : KeepsApart s (noticeRunEnded timeout s) := .of_frame (by simp)

theorem completeEnding_apart (s : State) : KeepsApart s (completeEnding s) := by
  have done : ∀ q, KeepsApart s (s.setSeq q) := fun _ => .of_frame (by simp)
  exact .ite (enterWaiting_apart ..) (((done _).trans (enterRest_apart ..)).trans (noticeRunEnded_apart ..))

theorem completeAbort_apart (timeout : Bool) (s : State) : KeepsApart s (completeAbort timeout s) := by
  have done : ∀ q, KeepsApart s (s.setSeq q) := fun _ => .of_frame (by simp)
  exact ((done _).trans (enterRest_apart ..)).trans (noticeRunEnded_apart ..)

/-! ### Carrying a change through -/

theorem takeReports_apart (s : State) : KeepsApart s (takeReports s) := by
  have withdrawn : KeepsApart s (s.setSeq { s.seq with causes := causesAfterWithdrawal s }) := .of_frame (by simp)
  unfold takeReports
  split
  case h_1 => exact .ite (enterHolding_apart ..) (.refl s)
  case h_2 => exact .ite (.refl s) (.ite (withdrawn.trans (leaveHolding_apart _)) withdrawn)
  all_goals exact .refl s

theorem carry_apart (s : State) : KeepsApart s (carry s) := by
  have flow : ∀ u, KeepsApart u (markFlags (recomputeFlow u)) := fun _ => .of_frame (by simp)
  exact (rebuildRecord_apart s).trans (flow _)

theorem settle_apart (s : State) : KeepsApart s (settle s) := by
  have round : ∀ u, KeepsApart u (takeReports (carry u)) := fun u => (carry_apart u).trans (takeReports_apart _)
  have judged : ∀ u, KeepsApart u (judgePersist u) := fun _ => .of_frame (by simp)
  have rounds := ((round s).trans (round _)).trans (carry_apart _)
  exact .ite ((rounds.trans (setPumps_apart _)).trans (judged _)) (.refl s)

theorem KeepsApart.settle {s t : State} (h : KeepsApart s t) : KeepsApart s (settle t) := h.trans (settle_apart t)

/-! ### Resets and start-up -/

/-- A reset closes every valve and stops every hold-off (R37, R61). -/
theorem doReset_apart (cause : ResetCause) (held : Bool) (s : State) : KeepsApart s (doReset cause held s) where
  valves _ := reset_valvesApart
  grants _ := reset_grantsHeldOff

theorem calibrate_apart (s : State) : KeepsApart s (calibrate s) := by
  refine OpensNone.keeps ⟨fun c f o => ?_, id⟩ rfl
  cases c <;> exact o

/-- A watched valve stands as it is commanded (R61). -/
theorem startValveChecks_apart (s : State) : KeepsApart s (startValveChecks s) := by
  refine OpensNone.keeps ⟨fun c f o => ?_, id⟩ rfl
  cases c <;> cases f <;> exact o

/-- A good load (R195). -/
theorem loadImage_apart (b : List Byte) (s : State) : KeepsApart s (loadImage b s) := by
  have imaged : ∀ c, KeepsApart s (startRefresh (s.setCfg c)) := fun _ => .of_frame (by simp)
  have watched : ∀ u, KeepsApart u (beginSearch (scanStore (matchWarned (startDebouncers u)))) := fun _ => .of_frame (by simp)
  have checked := fun c => ((imaged c).trans (calibrate_apart _)).trans (startValveChecks_apart _)
  exact ((checked _).trans (watched _)).trans (reportTrips_apart _)

theorem endSettle_apart (s : State) : KeepsApart s (endSettle s) := by
  unfold endSettle
  split
  · exact loadImage_apart ..
  · exact .of_frame (by simp)

/-! ### The interlocks and the tool mode -/

theorem route_apart (r : Routing) (l : Line) (s : State) : KeepsApart s (route r l s) := by
  cases r with
  | note => exact .refl s
  | hold => exact holdFor_apart ..
  | abort => exact takeFault_apart ..
  | linkStop =>
    have stopped : ∀ u, KeepsApart u (placeStopFrame (numLine l) u) := fun _ => .of_frame (by simp)
    exact (takeFault_apart .interlock s).trans (stopped _)

theorem takeLine_apart (l : Line) (s : State) : KeepsApart s (takeLine l s) := by
  have taken : ∀ x, KeepsApart s (s.setLine l x) := fun _ => .of_frame (by simp)
  unfold takeLine
  dsimp only
  split
  · exact taken _
  · exact .ite ((taken _).trans (.trans (placeNotice_apart ..) (route_apart ..))) (taken _)

theorem takeStop_apart (s : State) : KeepsApart s (takeStop s) := by
  unfold takeStop
  split
  · exact holdFor_apart ..
  · exact abortRun_apart ..

theorem decodeMode_apart (s : State) : KeepsApart s (decodeMode s) := by
  have decoded : ∀ x, KeepsApart s (s.setIlk x) := fun _ => .of_frame (by simp)
  have changed : ∀ m u, KeepsApart u (modeChanged m u) := fun m u => by
    cases m with
    | run => exact .refl u
    | service => exact holdFor_apart ..
    | lockout => exact abortRun_apart ..
  exact .ite (decoded _) (((decoded _).trans (placeNotice_apart ..)).trans (changed ..))

/-! ### The orders -/

/-- An order's reply keeps the valves apart and the grants held off. -/
def Reply.KeepsApart (s : State) (r : Reply) : Prop := Machine.KeepsApart s r.st

theorem Reply.KeepsApart.refused (s : State) (c : Code) (d : List Byte) : Reply.KeepsApart s ⟨s, c, d⟩ := Machine.KeepsApart.refl s

theorem Reply.KeepsApart.ite {p : Prop} [Decidable p] {s : State} {r r' : Reply} (h : r.KeepsApart s) (h' : r'.KeepsApart s) :
    Reply.KeepsApart s (if p then r else r') := by
  split
  · exact h
  · exact h'

theorem orderLoad_apart (slot : Byte) (s : State) : (orderLoad slot s).KeepsApart s := by
  have corrupted : ∀ r, KeepsApart s (s.setRcp r) := fun _ => .of_frame (by simp)
  have copied : KeepsApart s (takeCopy (s.slot slot.toNat) s) := .trans (.of_frame (by simp)) (enterRest_apart ..)
  refine .ite (.refused ..) (.ite (.refused ..) (.ite (.refused ..) (.ite (.refused ..) ?_)))
  dsimp only
  split
  case h_4 => exact .ite copied.settle (corrupted _)
  all_goals exact .refused ..

theorem orderUnload_apart (s : State) : (orderUnload s).KeepsApart s := by
  have emptied : ∀ q, KeepsApart s (enterRest .empty (s.setSeq q)) := fun _ => .trans (.of_frame (by simp)) (enterRest_apart ..)
  exact .ite (.refused ..) (.ite (emptied _).settle (.refused ..))

theorem orderStart_apart (s : State) : (orderStart s).KeepsApart s := by
  have started : ∀ q, KeepsApart s (enterWaiting 1 true (s.setSeq q)) := fun _ => .trans (.of_frame (by simp)) (enterWaiting_apart ..)
  exact .ite (.refused ..) (.ite (.refused ..) (.ite (.refused ..) (.ite (.refused ..) (started _).settle)))

theorem orderHold_apart (s : State) : (orderHold s).KeepsApart s :=
  .ite (.refused ..) (.ite (holdFor_apart .ordered s).settle (.refused ..))

theorem orderResume_apart (s : State) : (orderResume s).KeepsApart s :=
  .ite (.refused ..) (.ite (resumeHold_apart s).settle (.refused ..))

theorem orderAbort_apart (s : State) : (orderAbort s).KeepsApart s :=
  .ite (.refused ..) (.ite (abortRun_apart .aborted s).settle (.ite (.refused ..) (.refused ..)))

theorem orderClearFault_apart (s : State) : (orderClearFault s).KeepsApart s := by
  have cleared : ∀ q, KeepsApart s (enterRest .done (clearChannelFaults (s.setSeq q))) := fun _ => .trans (.of_frame (by simp)) (enterRest_apart ..)
  exact .ite (.refused ..) (.ite (.refused ..) (.ite (.refused ..) (cleared _).settle))

/-- CLEAR_EVENTS clears flags, none of them a valve's or a grant's (R201). -/
theorem orderClearEvents_apart (mask : BitVec 16) (s : State) : (orderClearEvents mask s).KeepsApart s := by
  have lines : ∀ u, KeepsApart u (clearLines mask u) := fun u => by
    refine KeepsApart.foldl (fun v l => ?_) PerLine.indices u
    exact .ite (.of_frame (by simp)) (.refl v)
  have link : ∀ u, KeepsApart u (clearLinkFlags mask u) := fun _ => .of_frame (by simp)
  have mismatch : ∀ u : State, KeepsApart u (if mask.getLsbD 11 then u.setSdu { u.sdu with mismatch := false } else u) := fun u =>
    .ite (.of_frame ⟨rfl, rfl, rfl⟩) (.refl u)
  have tach : ∀ u : State, KeepsApart u (if mask.getLsbD 12 then u.setDrv { u.drv with tachLost := false } else u) := fun u =>
    .ite (.of_frame (by simp)) (.refl u)
  have pad : ∀ u : State, KeepsApart u (if mask.getLsbD 13 then clearCondLost u else u) := fun u => .ite (.of_frame (by simp)) (.refl u)
  have air : ∀ u : State, KeepsApart u
      (if mask.getLsbD 14 && !decide (u.pins.air < u.img.airWarn) then u.setHpc { u.hpc with warn := false } else u) := fun u =>
    .ite (.of_frame (by simp)) (.refl u)
  have mode : ∀ u : State, KeepsApart u (if mask.getLsbD 15 then clearModeIllegal u else u) := fun u => .ite (.of_frame (by simp)) (.refl u)
  have cleared : KeepsApart s (clearFlags mask s) :=
    ((((((lines s).trans (link _)).trans (mismatch _)).trans (tach _)).trans (pad _)).trans (air _)).trans (mode _)
  exact cleared.settle

/-- RESTART sets its mark, or resets at once (R202). -/
theorem orderRestart_apart (toAll : Bool) (s : State) : (orderRestart toAll s).KeepsApart s := by
  have pending : ∀ c, KeepsApart s (s.setCfg c) := fun _ => .of_frame (by simp)
  exact .ite (.refused ..) (.ite (.refused ..) (.ite (doReset_apart ..) (pending _)))

/-- The owner of every order keeps the valves apart and the grants held off: the store's orders, the replacements and the readings touch
neither. -/
theorem carryOut_apart (toAll : Bool) (o : Order) (s : State) : (carryOut toAll o s).KeepsApart s := by
  cases o with
  | load slot => exact orderLoad_apart slot s
  | unload => exact orderUnload_apart s
  | start => exact orderStart_apart s
  | hold => exact orderHold_apart s
  | resume => exact orderResume_apart s
  | abort => exact orderAbort_apart s
  | clearFault => exact orderClearFault_apart s
  | clearEvents mask => exact orderClearEvents_apart mask s
  | restart => exact orderRestart_apart toAll s
  | _ =>
    simp only [carryOut, orderReadResult, orderWriteHeader, orderWriteStep, orderCloseRecipe, orderEraseRecipe, orderSumRecipe,
      orderEraseStore, orderLockStore, orderReadRecipe, readReply, orderWriteProfile, orderDiskReplaced, orderPadReplaced,
      orderQueryStatus]
    (repeat' split) <;> exact KeepsApart.of_frame ⟨rfl, rfl, rfl⟩

/-- An ORDER as LNK takes it (R184). -/
theorem serve_apart (m : OrderMeta) {owner : State → Reply} {s : State} (h : (owner s).KeepsApart s) : KeepsApart s (serve m owner s) := by
  have answer : ∀ tag b u, KeepsApart u (placeAnswer tag b u) := fun _ _ _ => .of_frame (by simp)
  exact .ite (.ite h (h.trans (answer ..))) (.refl s)

/-- An ORDER payload, well formed or not (R184). -/
theorem takeOrder_apart (m : OrderMeta) (payload : List Byte) (s : State) : KeepsApart s (takeOrder m payload s) := by
  unfold takeOrder
  split
  · exact serve_apart m (.refused ..)
  · exact serve_apart m (.ite (.refused ..) (.refused ..))
  · exact serve_apart m (carryOut_apart ..)

/-- An order's owner behind the check of its length. -/
theorem ofLength_apart (good : Bool) {owner : State → Reply} {s : State} (h : (owner s).KeepsApart s) :
    (ofLength good owner s).KeepsApart s := by
  cases good
  · exact .refused ..
  · exact h

/-! ### The link -/

theorem setLnk_apart (s : State) (l : Lnk) : KeepsApart s (s.setLnk l) := .of_frame (by simp)

theorem restartIfSent_apart (s : State) : KeepsApart s (restartIfSent s) := .ite (doReset_apart ..) (.refl s)

theorem finishFrame_apart (s : State) : KeepsApart s (finishFrame s) := by
  unfold finishFrame
  split
  · exact .refl s
  · exact (setLnk_apart ..).trans (restartIfSent_apart _)

theorem mismatchEcho_apart (s : State) : KeepsApart s (mismatchEcho s) := by
  unfold mismatchEcho
  split
  · exact .refl s
  · exact (setLnk_apart ..).trans (restartIfSent_apart _)

/-- A duplicate node number is a fault, or the restart that was pending (R182). -/
theorem findDuplicate_apart (s : State) : KeepsApart s (findDuplicate s) := by
  have silenced : ∀ c l, KeepsApart s ((s.setCfg c).setLnk l) := fun _ _ => .of_frame (by simp)
  exact .ite (doReset_apart ..) ((silenced ..).trans (takeFault_apart ..))

/-- A frame of another node through the checks and to its owner (R181 to R183). -/
theorem hearOther_apart (k : FrameKind) (b : List Byte) (s : State) : KeepsApart s (hearOther k b s) := by
  have heard : KeepsApart s (hearFrame s) := .of_frame (by simp)
  have delivered : ∀ u, KeepsApart u (deliver k b u) := fun u => by
    cases k with
    | stop => exact takeStop_apart u
    | order => exact takeOrder_apart ..
    | answer => exact .refl u
    | demand => exact takeDemand_apart ..
    | notice => exact .refl u
  have accepted : ∀ u, KeepsApart u (acceptFrame k b u) := fun u => .ite (setLnk_apart ..) (.ite (delivered u) (.refl u))
  exact heard.trans (.ite ((accepted _).trans (shrRuns_apart ..)) (accepted _))

theorem checkFrame_apart (b : List Byte) (s : State) : KeepsApart s (checkFrame b s) := by
  unfold checkFrame
  split
  · exact setLnk_apart ..
  · split
    · exact setLnk_apart ..
    · exact .ite (findDuplicate_apart s) (hearOther_apart ..)

theorem endCarrier_apart (b : List Byte) (s : State) : KeepsApart s (endCarrier b s) :=
  .ite ((setLnk_apart ..).trans (checkFrame_apart ..).settle) (setLnk_apart ..)

end Sys2Proof.Machine
end

section
/-! The valves and the grants through every command and every step: O59. -/

namespace Sys2Proof.Machine

open Sys2Proof

/-- A line's level taken at once (R164). -/
theorem takeAtOnce_apart (l : Line) (s : State) : KeepsApart s (takeAtOnce l s) := .whenDue _ (.refl s) (takeLine_apart l s).settle

theorem judgeRegulation_apart (c : HeadCh) (s : State) : KeepsApart s (judgeRegulation c s) := by
  have cleared : ∀ u, KeepsApart u (clearRegTimer c u) := fun _ => .of_frame (by simp)
  have reported : KeepsApart s (reportHigh c s) := .of_frame (by simp)
  exact .ite ((cleared s).trans (takeFault_apart ..)) (.ite (reported.trans (cleared _)) (cleared s))

/-- An event of the part's own whose effect is carried through. -/
theorem event_apart {s : State} (due : Bool) {f : State → State} (h : KeepsApart s (f s)) :
    KeepsApart s (whenDue due s (fun u => settle (f u))) := .whenDue due (.refl s) h.settle

/-- Every command keeps the valves apart and the grants held off. -/
theorem exec_apart (c : Instr) (s : State) : ∃ t, exec c s = .next t ∧ KeepsApart s t := by
  have order : ∀ (m : OrderMeta) o, KeepsApart s (serve m (carryOut m.toAll o) s) := fun m o => serve_apart m (carryOut_apart ..)
  have write : ∀ (m : OrderMeta) good o, KeepsApart s (serve m (ofLength good (carryOut m.toAll o)) s) := fun m good o =>
    serve_apart m (ofLength_apart good (carryOut_apart ..))
  have pins : ∀ p, KeepsApart s (s.setPins p) := fun _ => .of_frame (by simp)
  cases c with
  -- resets and start-up
  | powerOn => exact ⟨_, rfl, doReset_apart ..⟩
  | resetLine => exact ⟨_, rfl, .ite (.of_frame ⟨rfl, rfl, rfl⟩) (.ite (.refl s) (doReset_apart ..))⟩
  | resetLineActive => exact ⟨_, rfl, .ite (.refl s) (.ite (.of_frame ⟨rfl, rfl, rfl⟩) (doReset_apart ..))⟩
  | settleEnd => exact ⟨_, rfl, event_apart _ (endSettle_apart s)⟩
  | listenEnd => exact ⟨_, rfl, .whenDue _ (.refl s) (.of_frame (by simp))⟩
  -- PEER and SHR
  | refreshTick => exact ⟨_, rfl, event_apart _ ((refresh_apart s).then_frame (by simp))⟩
  | entryStale n => exact ⟨_, rfl, event_apart _ (makeStale_apart n s)⟩
  | entryRemoved n => exact ⟨_, rfl, event_apart _ (removeEntry_apart n s)⟩
  | isolationBegun => exact ⟨_, rfl, event_apart _ (beginIsolation_apart s)⟩
  | derateDecrement f => exact ⟨_, rfl, event_apart _ (stepDerate_apart f s)⟩
  | holdOffExpiry f => exact ⟨_, rfl, event_apart _ (expireHoldOff_apart f s)⟩
  -- the link
  | frameReceived b => exact ⟨_, rfl, endCarrier_apart b s⟩
  | demandReceived source p => exact ⟨_, rfl, event_apart _ (takeDemand_apart source p s)⟩
  | stopReceived => exact ⟨_, rfl, event_apart _ (takeStop_apart s)⟩
  | carrierBegins => exact ⟨_, rfl, .of_frame (by simp)⟩
  | transmitStart => exact ⟨_, rfl, .whenDue _ (.refl s) (.of_frame (by simp))⟩
  | frameSent => exact ⟨_, rfl, .whenDue _ (.refl s) (finishFrame_apart s)⟩
  | echoMismatch => exact ⟨_, rfl, .whenDue _ (.refl s) (mismatchEcho_apart s)⟩
  -- the orders
  | unknownOrder m p => exact ⟨_, rfl, takeOrder_apart m p s⟩
  | load m slot => exact ⟨_, rfl, order m (.load slot)⟩
  | unload m => exact ⟨_, rfl, order m .unload⟩
  | start m => exact ⟨_, rfl, order m .start⟩
  | hold m => exact ⟨_, rfl, order m .hold⟩
  | resume m => exact ⟨_, rfl, order m .resume⟩
  | abort m => exact ⟨_, rfl, order m .abort⟩
  | clearFault m => exact ⟨_, rfl, order m .clearFault⟩
  | readResult m i => exact ⟨_, rfl, order m (.readResult i)⟩
  | writeHeader m slot part b => exact ⟨_, rfl, write m _ (.writeHeader slot part b)⟩
  | writeStep m slot i b => exact ⟨_, rfl, write m _ (.writeStep slot i b)⟩
  | closeRecipe m slot => exact ⟨_, rfl, order m (.closeRecipe slot)⟩
  | eraseRecipe m slot => exact ⟨_, rfl, order m (.eraseRecipe slot)⟩
  | eraseStore m => exact ⟨_, rfl, order m .eraseStore⟩
  | lockStore m => exact ⟨_, rfl, order m .lockStore⟩
  | readRecipe m slot kind part => exact ⟨_, rfl, order m (.readRecipe slot kind part)⟩
  | sumRecipe m slot => exact ⟨_, rfl, order m (.sumRecipe slot)⟩
  | writeProfile m profile count b => exact ⟨_, rfl, write m _ (.writeProfile profile count b)⟩
  | diskReplaced m => exact ⟨_, rfl, order m .diskReplaced⟩
  | padReplaced m => exact ⟨_, rfl, order m .padReplaced⟩
  | queryStatus m page => exact ⟨_, rfl, order m (.queryStatus page)⟩
  | clearEvents m mask => exact ⟨_, rfl, order m (.clearEvents mask)⟩
  | restart m => exact ⟨_, rfl, order m .restart⟩
  -- the dispense unit
  | valveFeedbackFault ch p => exact ⟨_, rfl, event_apart _ ((faultValve_apart ch p s).trans (takeFault_apart ..))⟩
  | nonOverlapEnd ch => exact ⟨_, rfl, event_apart _ (endNonOverlap_apart ch s)⟩
  | flushDone => exact ⟨_, rfl, event_apart _ (endFlush_apart s)⟩
  | postRinseWaitEnd => exact ⟨_, rfl, event_apart _ (runPostRinse_apart s)⟩
  | postRinseDone => exact ⟨_, rfl, event_apart _ (endPostRinse_apart s)⟩
  | warmUpEnd ch => exact ⟨_, rfl, .whenDue _ (.refl s) (endWarmUp_apart ch s)⟩
  | strokePulse ch =>
    have marked : KeepsApart s (markFlags (takeStroke ch s)) := (takeStroke_apart ch s).then_frame (by simp)
    exact ⟨_, rfl, event_apart _ (marked.trans (checkDose_apart _))⟩
  | flowmeterPulse ch => exact ⟨_, rfl, event_apart _ ((takePulse_apart ch s).trans (checkDose_apart _))⟩
  | crossCheckWindow ch => exact ⟨_, rfl, .whenDue _ (.refl s) (closeWindow_apart ch s)⟩
  | flowMismatch ch => exact ⟨_, rfl, event_apart _ (enterFallback_apart ch s)⟩
  | flowRestored ch => exact ⟨_, rfl, event_apart _ (restoreFlow_apart ch s)⟩
  | supplyLowRaise ch => exact ⟨_, rfl, event_apart _ (raiseLow_apart ch s)⟩
  | supplyLowClear ch => exact ⟨_, rfl, event_apart _ (clearLow_apart ch s)⟩
  | supplyPersist => exact ⟨_, rfl, event_apart _ (enterHolding_apart ..)⟩
  | pumpBlocked ch => exact ⟨_, rfl, event_apart _ ((stopPump_apart ch s).trans (takeFault_apart ..))⟩
  -- the sequencer
  | stepStart => exact ⟨_, rfl, event_apart _ (.of_frame (by simp))⟩
  | minTimeReached => exact ⟨_, rfl, event_apart _ (.trans (.of_frame (by simp)) (checkDose_apart _))⟩
  | stepLimitReached => exact ⟨_, rfl, event_apart _ (reachLimit_apart s)⟩
  | overpolishEnd => exact ⟨_, rfl, event_apart _ (endStep_apart ..)⟩
  | endingComplete => exact ⟨_, rfl, event_apart _ (completeEnding_apart s)⟩
  | abortingComplete => exact ⟨_, rfl, event_apart _ (completeAbort_apart false s)⟩
  | abortTimeout => exact ⟨_, rfl, event_apart _ (completeAbort_apart true s)⟩
  -- the head and the arm
  | regulationTimeout c => exact ⟨_, rfl, event_apart _ (judgeRegulation_apart c s)⟩
  | overpressure c => exact ⟨_, rfl, event_apart _ (.trans (.of_frame (by simp)) (takeFault_apart ..))⟩
  | supplyAir => exact ⟨_, rfl, event_apart _ (.trans (.of_frame (by simp)) (takeFault_apart ..))⟩
  | homeTimeout => exact ⟨_, rfl, event_apart _ (armFault_apart ..)⟩
  | armPositionFault => exact ⟨_, rfl, event_apart _ (armFault_apart ..)⟩
  | diskStall => exact ⟨_, rfl, event_apart _ (armFault_apart ..)⟩
  -- the interlocks, the tool mode and the drives
  | lineLevelChange l high =>
    have set : ∀ u, KeepsApart u (setRaw l high u) := fun _ => .of_frame (by simp)
    exact ⟨_, rfl, ((takeAtOnce_apart l s).trans (set _)).trans (takeAtOnce_apart l _)⟩
  | debounceExpiry l => exact ⟨_, rfl, event_apart _ (takeLine_apart l s)⟩
  | modeDecoded => exact ⟨_, rfl, event_apart _ (decodeMode_apart s)⟩
  | tachLost d => exact ⟨_, rfl, event_apart _ (.of_frame (by simp))⟩
  | tachRestored d => exact ⟨_, rfl, event_apart _ (.of_frame (by simp))⟩
  | driveTrip d =>
    have tripped : ∀ u, KeepsApart u (settle (takeFault .driveTrip (holdTripped d u))) := fun u =>
      (KeepsApart.trans (.of_frame (by simp)) (takeFault_apart ..)).settle
    exact ⟨_, rfl, .whenDue _ (pins _) (tripped _)⟩
  | driveTripRelease d => exact ⟨_, rfl, .whenDue _ (pins _) (.of_frame (by simp))⟩
  | currentSample counts => exact ⟨_, rfl, .whenDue _ (pins _) (.of_frame (by simp))⟩
  | modeLinesChange first second => exact ⟨_, rfl, .of_frame (by simp)⟩
  | driveFeedback d tach estimate => exact ⟨_, rfl, .of_frame (by simp)⟩
  | tachPulse d => exact ⟨_, rfl, .of_frame (by simp)⟩
  | measuredPressureChange c value => exact ⟨_, rfl, .of_frame (by simp)⟩
  -- the other events touch neither SDU nor SHR
  | _ => exact ⟨_, rfl, .whenDue _ (.refl s) (.of_frame (by simp))⟩

/-! ### Time -/

/-- A microsecond moves a valve's times, not the valve (R40). -/
theorem tickSdu_opensNone (s : State) {t : State} (h : t.sdu = tickSdu s) : OpensNone s t := by
  refine ⟨fun c f o => ?_, fun o => ?_⟩
  · rw [State.chan, h] at o
    simp only [tickSdu, tickChannel, PerChannel.get_of, PerFeed.get_of] at o
    split at o <;> exact o
  · rw [h] at o
    exact o

theorem tick_apart (s : State) : KeepsApart s (tick s) := by
  unfold tick
  split
  · exact .of_frame ⟨rfl, rfl, rfl⟩
  · split
    · exact (tickSdu_opensNone s rfl).keeps rfl
    · exact .of_frame ⟨rfl, rfl, rfl⟩

theorem idle_apart (s : State) : KeepsApart s (idle s) := by
  unfold idle
  split
  · exact tick_apart s
  · exact .of_frame ⟨rfl, rfl, rfl⟩
  · exact .of_frame ⟨rfl, rfl, rfl⟩

/-- A step, of the queue or of the part's own, keeps the valves apart and the grants held off. -/
theorem step_apart {s t : State} (h : step s = .next t) : KeepsApart s t := by
  unfold step at h
  split at h
  · next c rest _ =>
    obtain ⟨u, hu, kept⟩ := exec_apart c (s.setPending rest)
    obtain rfl : u = t := by simpa [hu] using h
    exact .trans (.of_frame (by simp)) kept
  · obtain rfl : idle s = t := by simpa using h
    exact idle_apart s

/-- Settles O59: every command keeps the valves apart and the grants held off, and so does time. -/
theorem valvesApartAndGrantsHeldOff : Obligations.ValvesApartAndGrantsHeldOff :=
  ⟨fun _ _ apart e => (step_apart e).valves apart, fun _ _ held e => (step_apart e).grants held⟩

end Sys2Proof.Machine
end

section
/-! A fall of the derate step, the end of a hold-off, and what a run does to a grant: O11 and O12. -/

namespace Sys2Proof.Machine

open Sys2Proof

/-! ### A run against the effective grant -/

/-- A computed grant at or below the effective grant is taken at once, and no hold-off runs (R33). -/
theorem FeedShare.take_of_fall {x : FeedShare} {c : Nat} (h : c ≤ x.effective) (now period : Nat) :
    (x.take c now period).effective = c ∧ (x.take c now period).holdOff = none := by
  simp [FeedShare.take, h]

/-- A computed grant above the effective grant waits for the hold-off, which is started where it is stopped (R34). -/
theorem FeedShare.take_of_rise {x : FeedShare} {c : Nat} (h : x.effective < c) (now period : Nat) :
    (x.take c now period).effective = x.effective ∧
    (x.take c now period).holdOff = some (x.holdOff.getD (now + period)) := by
  simp [FeedShare.take, Nat.not_le_of_lt h]

theorem State.period_eq (s : State) : s.period = 1000 * s.img.refreshPeriod := Nat.mul_comm ..

/-- Settles O12: a fall is immediate, a rise waits, and nothing but the feed's grants moves. -/
theorem fallInGrantIsImmediate : Obligations.FallInGrantIsImmediate := by
  unfold Obligations.FallInGrantIsImmediate
  intro s f started
  have own : (shrRun f s).shr.get f = (s.shr.get f).take (computedGrant s f) s.now s.period := by
    rw [shrRun_get f f started, if_pos rfl]
  obtain ⟨k, markFree, markSeen, last⟩ := shrRun_sameMarks f s f
  refine ⟨own ▸ FeedShare.take_computed .., fun fall => own ▸ FeedShare.take_of_fall fall .., fun rise => ?_,
    k, last, markFree, markSeen, shrRun_alone f s, fun g other => ?_⟩
  · obtain ⟨effective, timer⟩ := FeedShare.take_of_rise rise s.now s.period
    refine ⟨own ▸ effective, fun stopped => ?_, fun expiry running => ?_⟩
    · rw [own, timer, stopped, Option.getD_none, s.period_eq]
    · rw [own, timer, running, Option.getD_some]
  · rw [shrRun_get f g started, if_neg other]

/-! ### The events of a feed -/

theorem derateDecrement_spec {s : State} (started : s.started = true) (f : Feed) :
    exec (.derateDecrement f) s = .next (if derateDue f s = true then settle (stepDerate f s) else s) := by
  show Host.Outcome.next (whenDue (s.started && derateDue f s) s _) = _
  rw [started, Bool.true_and]
  rfl

theorem holdOffExpiry_spec {s : State} (started : s.started = true) (f : Feed) :
    exec (.holdOffExpiry f) s =
      .next (if (s.shr.get f).expiryDue s.now = true then settle (expireHoldOff f s) else s) := by
  show Host.Outcome.next (whenDue (s.started && (s.shr.get f).expiryDue s.now) s _) = _
  rw [started, Bool.true_and]
  rfl

/-- Settles O11: the decrement after 16 mark-free ticks unless a mark waits, and the expiry of a hold-off. -/
theorem derateFallsAndHoldOffEnds : Obligations.DerateFallsAndHoldOffEnds := by
  unfold Obligations.DerateFallsAndHoldOffEnds
  intro s f started
  refine ⟨fun ticks above => ?_, fun e running reached => ?_⟩
  · have due : derateDue f s = !markWaits s := by simp [derateDue, FeedShare.decrementDue, ticks, above]
    refine ⟨fun clear => ?_, fun waits => ?_⟩
    · rw [derateDecrement_spec started, due, clear, Bool.not_false, if_pos rfl]
      rfl
    · rw [derateDecrement_spec started, due, waits, Bool.not_true, if_neg (by decide)]
  · have due : (s.shr.get f).expiryDue s.now = true := by simp [FeedShare.expiryDue, running, reached]
    rw [holdOffExpiry_spec started, if_pos due]
    rfl

end Sys2Proof.Machine
end

section
/-! The floor stage of the share computation (R25, R26), and O13. -/

namespace Sys2Proof.Machine

open Sys2Proof

/-! ### The scan -/

theorem floorScan_parts (r : Nat) (ps : List Part) : (floorScan r ps).map Grant.part = ps := by
  induction ps generalizing r with
  | nil => rfl
  | cons p rest ih =>
    unfold floorScan
    split
    · exact congrArg (p :: ·) (ih _)
    · exact congrArg (p :: ·) (ih _)

/-- The scan gives out no more than it has. -/
theorem floorScan_sum (r : Nat) (ps : List Part) : grantSum (floorScan r ps) ≤ r := by
  induction ps generalizing r with
  | nil => exact Nat.zero_le r
  | cons p rest ih =>
    unfold floorScan
    split
    · have after := ih (r - p.m)
      simp only [grantSum, List.map_cons, List.sum_cons] at after ⊢
      omega
    · simpa [grantSum] using ih r

/-- Each participant in its turn has its floor where that fits in what the ones before it leave, and is denied where it does not (R26). -/
theorem floorScan_turn {r : Nat} {ps : List Part} {i : Nat} {g : Grant} (h : (floorScan r ps)[i]? = some g) :
    g = if g.part.m ≤ r - (((floorScan r ps).take i).map Grant.grant).sum then ⟨g.part, g.part.m, false⟩ else ⟨g.part, 0, true⟩ := by
  induction ps generalizing r i with
  | nil => simp [floorScan] at h
  | cons p rest ih =>
    unfold floorScan at h ⊢
    by_cases fits : p.m ≤ r
    · rw [if_pos fits] at h ⊢
      cases i with
      | zero =>
        obtain rfl : ⟨p, p.m, false⟩ = g := by simpa using h
        simp [fits]
      | succ i => simpa [Nat.sub_sub] using ih (r := r - p.m) (i := i) (by simpa using h)
    · rw [if_neg fits] at h ⊢
      cases i with
      | zero =>
        obtain rfl : ⟨p, 0, true⟩ = g := by simpa using h
        simp [fits]
      | succ i => simpa using ih (i := i) (by simpa using h)

/-- The scan's order: ascending rank, and node number within a rank (R26). -/
theorem scanOrder_sorted (ps : List Part) : (scanOrder ps).Pairwise scanBefore := by
  have total : Std.Total scanBefore := ⟨fun x y => by unfold scanBefore; omega⟩
  have trans : IsTrans Part scanBefore := ⟨fun x y z => by unfold scanBefore; omega⟩
  exact List.pairwise_insertionSort scanBefore ps

theorem scanOrder_perm (ps : List Part) : (scanOrder ps).Perm ps := List.perm_insertionSort ..

/-! ### Sound grants -/

/-- A grant within its request, at least its floor unless it is denied, and 0 where it is. -/
def Grant.Sound (g : Grant) : Prop :=
  g.grant ≤ g.part.q ∧ (g.denied = true → g.grant = 0) ∧ (g.denied = false → g.part.m ≤ g.grant)

theorem Grant.sound_floor {p : Part} (h : p.m ≤ p.q) : Grant.Sound ⟨p, p.m, false⟩ := ⟨h, nofun, fun _ => le_rfl⟩

theorem Grant.sound_denied (p : Part) : Grant.Sound ⟨p, 0, true⟩ := ⟨Nat.zero_le _, fun _ => rfl, nofun⟩

theorem Grant.Sound.zero_or_floor {g : Grant} (h : g.Sound) : g.grant = 0 ∨ g.part.m ≤ g.grant := by
  obtain ⟨-, denied, granted⟩ := h
  cases d : g.denied
  · exact .inr (granted d)
  · exact .inl (denied d)

/-- A floor that is not granted is denied. -/
theorem Grant.Sound.denied_of_zero {g : Grant} (h : g.Sound) (zero : g.grant = 0) (floor : 0 < g.part.m) : g.denied = true := by
  obtain ⟨-, -, granted⟩ := h
  by_contra d
  have := granted (by simpa using d)
  omega

theorem floorScan_sound {ps : List Part} (h : ∀ p ∈ ps, p.m ≤ p.q) (r : Nat) : ∀ g ∈ floorScan r ps, g.Sound := by
  induction ps generalizing r with
  | nil => exact fun g hg => by cases hg
  | cons p rest ih =>
    obtain ⟨hp, hrest⟩ := List.forall_mem_cons.1 h
    unfold floorScan
    split
    · exact List.forall_mem_cons.2 ⟨Grant.sound_floor hp, ih hrest _⟩
    · exact List.forall_mem_cons.2 ⟨Grant.sound_denied p, ih hrest _⟩

/-! ### The stage -/

/-- Floors that fit are all granted (R25). -/
theorem floorStage_of_fit {cap : Nat} {ps : List Part} (h : floorSum ps ≤ cap) :
    floorStage cap ps = ps.map (fun p => ⟨p, p.m, false⟩) := if_pos h

/-- Floors that do not fit are scanned in order (R26). -/
theorem floorStage_of_short {cap : Nat} {ps : List Part} (h : cap < floorSum ps) :
    floorStage cap ps = floorScan cap (scanOrder ps) := if_neg (Nat.not_le_of_lt h)

theorem floorStage_parts (cap : Nat) (ps : List Part) : ((floorStage cap ps).map Grant.part).Perm ps := by
  rcases Nat.lt_or_ge cap (floorSum ps) with short | fit
  · rw [floorStage_of_short short, floorScan_parts]
    exact scanOrder_perm ps
  · rw [floorStage_of_fit fit, List.map_map]
    exact .of_eq (List.map_id ps)

/-- The sum of floors all granted is M. -/
theorem grantSum_floors (ps : List Part) : grantSum (ps.map (fun p => ⟨p, p.m, false⟩)) = floorSum ps :=
  congrArg List.sum (List.map_map ..)

theorem floorStage_sum (cap : Nat) (ps : List Part) : grantSum (floorStage cap ps) ≤ cap := by
  rcases Nat.lt_or_ge cap (floorSum ps) with short | fit
  · exact floorStage_of_short short ▸ floorScan_sum ..
  · rw [floorStage_of_fit fit, grantSum_floors]
    exact fit

theorem floorStage_sound {ps : List Part} (h : ∀ p ∈ ps, p.m ≤ p.q) (cap : Nat) : ∀ g ∈ floorStage cap ps, g.Sound := by
  rcases Nat.lt_or_ge cap (floorSum ps) with short | fit
  · rw [floorStage_of_short short]
    exact floorScan_sound (fun p hp => h p ((scanOrder_perm ps).subset hp)) cap
  · rw [floorStage_of_fit fit]
    exact List.forall_mem_map.2 fun p hp => Grant.sound_floor (h p hp)

/-! ### From the floors to the remainder -/

theorem byNode_perm (gs : List Grant) : (byNode gs).Perm gs := List.perm_insertionSort ..

/-- The remainder is given in ascending order of node number (R29). -/
theorem byNode_sorted (gs : List Grant) : (byNode gs).Pairwise (fun x y => x.part.node ≤ y.part.node) := by
  have total : Std.Total (fun x y : Grant => x.part.node ≤ y.part.node) := ⟨fun _ _ => Nat.le_total ..⟩
  have trans : IsTrans Grant (fun x y => x.part.node ≤ y.part.node) := ⟨fun _ _ _ => Nat.le_trans⟩
  exact List.pairwise_insertionSort _ gs

theorem grantSum_perm {gs gs' : List Grant} (h : gs.Perm gs') : grantSum gs = grantSum gs' := (h.map _).sum_eq

theorem byNode_floorStage_length (cap : Nat) (ps : List Part) : (byNode (floorStage cap ps)).length = ps.length := by
  rw [(byNode_perm _).length_eq, ← List.length_map (f := Grant.part), (floorStage_parts cap ps).length_eq]

/-- The remainder stage starts from the floors granted, with R the rest of the effective capacity (R27). -/
theorem shareGrants_eq (cap : Nat) (ps : List Part) :
    shareGrants cap ps =
      remainderStage (ps.length + 1) (cap - grantSum (byNode (floorStage cap ps))) (byNode (floorStage cap ps)) := by
  rw [shareGrants, byNode_floorStage_length]

/-- Settles O13: floors that fit are all granted, and R is what they leave. -/
theorem floorsAreGrantedWhenTheyFit : Obligations.FloorsAreGrantedWhenTheyFit := by
  unfold Obligations.FloorsAreGrantedWhenTheyFit
  intro cap ps fit
  have floors := floorStage_of_fit (ps := ps) fit
  refine ⟨floors, ?_⟩
  rw [shareGrants_eq, floors, grantSum_perm (byNode_perm _), grantSum_floors, floorSum]

end Sys2Proof.Machine
end

section
/-! The remainder stage of the share computation (R27 to R29): what it gives, and the order in which it gives it. -/

namespace Sys2Proof.Machine

open Sys2Proof

/-! ### Members of the active set -/

theorem Grant.active_iff {g : Grant} : g.active = true ↔ g.denied = false ∧ g.grant < g.part.q := by
  simp [Grant.active, Grant.excess]

theorem Grant.fills_iff {r w : Nat} {g : Grant} : g.fills r w = true ↔ g.active = true ∧ g.excess ≤ tentative r w g := by
  simp [Grant.fills]

/-- A member that does not fill has an extra below its excess. -/
theorem Grant.tentative_lt {r w : Nat} {g : Grant} (h : g.active = true) (hf : g.fills r w = false) :
    tentative r w g < g.excess := by
  simpa [Grant.fills, h] using hf

/-- A member that fills leaves the active set, and nothing else changes in it. -/
theorem Grant.active_fill (r w : Nat) (g : Grant) : (g.fill r w).active = (g.active && !g.fills r w) := by
  cases hf : g.fills r w
  · simp [Grant.fill, hf]
  · simp [Grant.fill, hf, Grant.active, Grant.excess]
    omega

/-- A member that does not fill stays in the active set after its extra. -/
theorem Grant.active_extend {r w : Nat} {g : Grant} (hf : g.fills r w = false) : (g.extend r w).active = g.active := by
  cases ha : g.active
  · simp [Grant.extend, ha]
  · have small := g.tentative_lt ha hf
    obtain ⟨hd, -⟩ := g.active_iff.1 ha
    simp only [Grant.excess] at small
    simp only [Grant.extend, ha, if_true, Grant.active_iff, hd, true_and]
    omega

/-! ### A grant only rises, and only as far as its request -/

/-- `g'` is `g` later in the stage: the same participant with as much or more, its request at most, and nothing more where it is
denied. -/
structure Grant.RaisedTo (g g' : Grant) : Prop where
  part : g'.part = g.part
  denied : g'.denied = g.denied
  le : g.grant ≤ g'.grant
  within : g' = g ∨ g.denied = false ∧ g'.grant ≤ g.part.q

theorem Grant.RaisedTo.refl (g : Grant) : g.RaisedTo g := ⟨rfl, rfl, le_rfl, .inl rfl⟩

theorem Grant.RaisedTo.trans {a b c : Grant} (h : a.RaisedTo b) (h' : b.RaisedTo c) : a.RaisedTo c where
  part := h'.part.trans h.part
  denied := h'.denied.trans h.denied
  le := h.le.trans h'.le
  within := by
    rcases h'.within with rfl | ⟨hd, hq⟩
    · exact h.within
    · exact .inr ⟨h.denied ▸ hd, h.part ▸ hq⟩

/-- A member may receive up to its excess. -/
theorem Grant.raisedTo_give {g : Grant} {x : Nat} (h : g.active = true) (hx : x ≤ g.excess) :
    g.RaisedTo { g with grant := g.grant + x } where
  part := rfl
  denied := rfl
  le := Nat.le_add_right ..
  within := by
    obtain ⟨hd, hlt⟩ := g.active_iff.1 h
    simp only [Grant.excess] at hx
    exact .inr ⟨hd, by simp only; omega⟩

theorem Grant.raisedTo_fill (r w : Nat) (g : Grant) : g.RaisedTo (g.fill r w) := by
  unfold Grant.fill
  split
  next hf => exact Grant.raisedTo_give (Grant.fills_iff.1 hf).1 le_rfl
  next => exact .refl g

theorem Grant.raisedTo_extend {r w : Nat} {g : Grant} (hf : g.fills r w = false) : g.RaisedTo (g.extend r w) := by
  unfold Grant.extend
  split
  next ha => exact Grant.raisedTo_give ha (g.tentative_lt ha hf).le
  next => exact .refl g

theorem Grant.RaisedTo.sound {g g' : Grant} (h : g.RaisedTo g') (hg : g.Sound) : g'.Sound := by
  obtain ⟨hq, hd, hm⟩ := hg
  rcases h.within with rfl | ⟨free, within⟩
  · exact ⟨hq, hd, hm⟩
  · refine ⟨h.part ▸ within, fun denied => ?_, fun _ => h.part ▸ (hm free).trans h.le⟩
    rw [h.denied, free] at denied
    cases denied

theorem giveLeftover_raises (left : Nat) (gs : List Grant) : List.Forall₂ Grant.RaisedTo gs (giveLeftover left gs) := by
  fun_induction giveLeftover left gs with
  | case1 gs => exact List.forall₂_same.2 fun g _ => .refl g
  | case2 => exact .nil
  | case3 n g rest ha ih =>
    refine .cons (Grant.raisedTo_give ha ?_) ih
    have := (g.active_iff.1 ha).2
    simp only [Grant.excess]
    omega
  | case4 n g rest _ ih => exact .cons (.refl g) ih

theorem forall₂_raisedTo_map {f : Grant → Grant} {gs : List Grant} (h : ∀ g ∈ gs, g.RaisedTo (f g)) :
    List.Forall₂ Grant.RaisedTo gs (gs.map f) :=
  List.forall₂_map_right_iff.2 (List.forall₂_same.2 h)

theorem forall₂_raisedTo_trans {as bs cs : List Grant} (h : List.Forall₂ Grant.RaisedTo as bs)
    (h' : List.Forall₂ Grant.RaisedTo bs cs) : List.Forall₂ Grant.RaisedTo as cs := by
  induction h generalizing cs with
  | nil => exact h'
  | cons hab _ ih =>
    cases h' with
    | cons hbc rest => exact .cons (hab.trans hbc) (ih rest)

/-- The whole stage only raises grants, each to its request at most. -/
theorem remainderStage_raises (n r : Nat) (gs : List Grant) : List.Forall₂ Grant.RaisedTo gs (remainderStage n r gs) := by
  fun_induction remainderStage n r gs with
  | case1 _ gs => exact List.forall₂_same.2 fun g _ => .refl g
  | case2 r gs n _ _ ih => exact forall₂_raisedTo_trans (forall₂_raisedTo_map fun g _ => g.raisedTo_fill ..) ih
  | case3 r gs n _ hf =>
    simp only [List.any_eq_true, not_exists, not_and, Bool.not_eq_true] at hf
    exact forall₂_raisedTo_trans (forall₂_raisedTo_map fun g hg => Grant.raisedTo_extend (hf g hg)) (giveLeftover_raises ..)
  | case4 r gs n _ => exact List.forall₂_same.2 fun g _ => .refl g

theorem remainderStage_length (n r : Nat) (gs : List Grant) : (remainderStage n r gs).length = gs.length :=
  (remainderStage_raises n r gs).length_eq.symm

/-- Every grant at the end of the stage is one of its beginning, raised. -/
theorem mem_remainderStage {n r : Nat} {gs : List Grant} {g' : Grant} (h : g' ∈ remainderStage n r gs) :
    ∃ g ∈ gs, g.RaisedTo g' := by
  obtain ⟨i, hi, rfl⟩ := List.getElem_of_mem h
  have raises := List.forall₂_iff_get.1 (remainderStage_raises n r gs)
  have hi' : i < gs.length := raises.1 ▸ hi
  exact ⟨gs[i], List.getElem_mem hi', raises.2 i hi' hi⟩

/-! ### What a round gives out -/

/-- Giving `x g` to every grant that meets `p` adds what they receive to the sum of the grants. -/
theorem grantSum_give (p : Grant → Bool) (x : Grant → Nat) (gs : List Grant) :
    grantSum (gs.map fun g => if p g then { g with grant := g.grant + x g } else g) = grantSum gs + ((gs.filter p).map x).sum := by
  induction gs with
  | nil => rfl
  | cons g rest ih =>
    simp only [grantSum, List.map_cons, List.sum_cons] at ih ⊢
    rw [ih]
    cases hp : p g <;> simp [hp] <;> omega

theorem grantSum_fill (r w : Nat) (gs : List Grant) : grantSum (gs.map (Grant.fill r w)) = grantSum gs + filledSum r w gs :=
  grantSum_give ..

theorem grantSum_extend (r w : Nat) (gs : List Grant) : grantSum (gs.map (Grant.extend r w)) = grantSum gs + extendedSum r w gs :=
  grantSum_give ..

theorem sum_filter_le {p p' : Grant → Bool} {x x' : Grant → Nat} (h : ∀ g, p g = true → p' g = true ∧ x g ≤ x' g) (gs : List Grant) :
    ((gs.filter p).map x).sum ≤ ((gs.filter p').map x').sum := by
  induction gs with
  | nil => exact le_rfl
  | cons g rest ih =>
    cases hp : p g
    · rw [List.filter_cons_of_neg (by simp [hp])]
      exact ih.trans ((((List.sublist_cons_self g rest).filter p').map x').sum_le_sum fun _ _ => Nat.zero_le _)
    · obtain ⟨hp', hx⟩ := h g hp
      rw [List.filter_cons_of_pos hp, List.filter_cons_of_pos hp']
      exact Nat.add_le_add hx ih

/-- Shares of `r` by weight sum to at most `r` by the summed weight. -/
theorem sum_tentative_le (r w : Nat) (gs : List Grant) :
    (gs.map (tentative r w)).sum ≤ r * (gs.map fun g => g.part.w).sum / w := by
  induction gs with
  | nil => exact Nat.zero_le _
  | cons g rest ih =>
    rw [List.map_cons, List.map_cons, List.sum_cons, List.sum_cons, Nat.mul_add]
    exact (Nat.add_le_add_left ih _).trans (Nat.div_add_div_le_add_div ..)

/-- The tentative extras never sum to more than R. -/
theorem extendedSum_le (r : Nat) (gs : List Grant) : extendedSum r (weightSum gs) gs ≤ r :=
  (sum_tentative_le r _ _).trans (Nat.div_le_of_le_mul (Nat.mul_comm r _).le)

/-- Those that fill receive at most what their extras would have been. -/
theorem filledSum_le (r : Nat) (gs : List Grant) : filledSum r (weightSum gs) gs ≤ r :=
  (sum_filter_le (fun _ => Grant.fills_iff.1) gs).trans (extendedSum_le r gs)

theorem grantSum_giveLeftover (left : Nat) (gs : List Grant) : grantSum (giveLeftover left gs) ≤ grantSum gs + left := by
  fun_induction giveLeftover left gs with
  | case1 => exact le_rfl
  | case2 => exact Nat.zero_le _
  | case3 n g rest _ ih =>
    simp only [grantSum, List.map_cons, List.sum_cons] at ih ⊢
    omega
  | case4 n g rest _ ih =>
    simp only [grantSum, List.map_cons, List.sum_cons] at ih ⊢
    omega

/-- The stage gives out no more than R. -/
theorem grantSum_remainderStage (n r : Nat) (gs : List Grant) : grantSum (remainderStage n r gs) ≤ grantSum gs + r := by
  fun_induction remainderStage n r gs with
  | case1 => exact Nat.le_add_right ..
  | case2 r gs n _ _ ih =>
    rw [grantSum_fill] at ih
    have := filledSum_le r gs
    omega
  | case3 r gs n _ _ =>
    have given := grantSum_giveLeftover (r - extendedSum r (weightSum gs) gs) (gs.map (Grant.extend r (weightSum gs)))
    rw [grantSum_extend] at given
    have := extendedSum_le r gs
    omega
  | case4 => exact Nat.le_add_right ..

/-! ### The rounds -/

/-- The stage ends with no member or nothing left (R29). -/
theorem remainderStage_done {r : Nat} {gs : List Grant} (h : r = 0 ∨ gs.any Grant.active = false) (n : Nat) :
    remainderStage n r gs = gs := by
  cases n with
  | zero => rfl
  | succ n => exact if_neg fun both => by rcases h with h | h <;> simp [h] at both

/-- Where a member fills there is a member. -/
theorem any_active_of_any_fills {r w : Nat} {gs : List Grant} (h : gs.any (Grant.fills r w) = true) : gs.any Grant.active = true := by
  obtain ⟨g, hg, hf⟩ := List.any_eq_true.1 h
  exact List.any_eq_true.2 ⟨g, hg, (Grant.fills_iff.1 hf).1⟩

/-- A round in which some member fills (R28). -/
theorem remainderStage_fill {r : Nat} {gs : List Grant} (hr : 0 < r) (hf : gs.any (Grant.fills r (weightSum gs)) = true) (n : Nat) :
    remainderStage (n + 1) r gs =
      remainderStage n (r - filledSum r (weightSum gs) gs) (gs.map (Grant.fill r (weightSum gs))) := by
  rw [remainderStage, if_pos (by simp [any_active_of_any_fills hf, hr]), if_pos hf]

/-- The round in which none does, which is the last (R29). -/
theorem remainderStage_last {r : Nat} {gs : List Grant} (hr : 0 < r) (ha : gs.any Grant.active = true)
    (hf : gs.any (Grant.fills r (weightSum gs)) = false) (n : Nat) :
    remainderStage (n + 1) r gs =
      giveLeftover (r - extendedSum r (weightSum gs) gs) (gs.map (Grant.extend r (weightSum gs))) := by
  rw [remainderStage, if_pos (by simp [ha, hr]), if_neg (by simp [hf])]

/-! ### As many rounds as members are enough -/

theorem countP_active_eq_zero {gs : List Grant} : gs.countP Grant.active = 0 ↔ gs.any Grant.active = false := by
  simp [List.countP_eq_zero]

/-- Every round but the last takes a member out of the active set. -/
theorem countP_active_fill {r w : Nat} {gs : List Grant} (h : gs.any (Grant.fills r w) = true) :
    (gs.map (Grant.fill r w)).countP Grant.active < gs.countP Grant.active := by
  obtain ⟨g, hg, hf⟩ := List.any_eq_true.1 h
  have stays : ∀ x : Grant, (x.fill r w).active = true → x.active = true := fun x hx => by
    simp only [Grant.active_fill, Bool.and_eq_true] at hx
    exact hx.1
  rw [List.countP_map]
  obtain ⟨front, back, rfl⟩ := List.append_of_mem hg
  have hfront := List.countP_mono_left (l := front) fun x _ => stays x
  have hback := List.countP_mono_left (l := back) fun x _ => stays x
  have gone : (Grant.active ∘ Grant.fill r w) g = false := by simp [Grant.active_fill, hf]
  rw [List.countP_append, List.countP_append, List.countP_cons_of_neg (by simpa using gone),
    List.countP_cons_of_pos (Grant.fills_iff.1 hf).1]
  simp only [Function.comp_def] at hfront hback ⊢
  omega

/-- Fuel beyond the number of members changes nothing. -/
theorem remainderStage_fuel {n m r : Nat} {gs : List Grant} (h : gs.countP Grant.active ≤ n) (hm : gs.countP Grant.active ≤ m) :
    remainderStage n r gs = remainderStage m r gs := by
  induction n generalizing m r gs with
  | zero =>
    have none := countP_active_eq_zero.1 (Nat.le_zero.1 h)
    rw [remainderStage_done (.inr none), remainderStage_done (.inr none)]
  | succ n ih =>
    cases ha : gs.any Grant.active
    · rw [remainderStage_done (.inr ha), remainderStage_done (.inr ha)]
    · obtain ⟨m, rfl⟩ : ∃ k, m = k + 1 :=
        Nat.exists_eq_succ_of_ne_zero fun zero => by
          rw [countP_active_eq_zero.1 (Nat.le_zero.1 (zero ▸ hm))] at ha
          cases ha
      rcases Nat.eq_zero_or_pos r with rfl | hr
      · rw [remainderStage_done (.inl rfl), remainderStage_done (.inl rfl)]
      cases hf : gs.any (Grant.fills r (weightSum gs))
      · rw [remainderStage_last hr ha hf, remainderStage_last hr ha hf]
      · have fewer := countP_active_fill hf
        rw [remainderStage_fill hr hf, remainderStage_fill hr hf]
        exact ih (by omega) (by omega)

/-! ### Requests that fit are met -/

/-- What the active set can still receive. -/
def excessSum (gs : List Grant) : Nat := ((gs.filter Grant.active).map Grant.excess).sum

/-- A round takes from it what it gives out. -/
theorem excessSum_fill (r w : Nat) (gs : List Grant) : excessSum (gs.map (Grant.fill r w)) + filledSum r w gs = excessSum gs := by
  induction gs with
  | nil => rfl
  | cons g rest ih =>
    simp only [excessSum, filledSum, List.map_cons, List.filter_cons, Grant.active_fill] at ih ⊢
    cases hf : g.fills r w
    · cases ha : g.active <;> simp [Grant.fill, hf] <;> omega
    · simp [(Grant.fills_iff.1 hf).1]
      omega

theorem excessSum_eq_zero {gs : List Grant} (h : excessSum gs = 0) : gs.any Grant.active = false := by
  rw [List.any_eq_false]
  intro g hg ha
  have all := List.sum_eq_zero_iff.1 h g.excess (List.mem_map_of_mem (List.mem_filter.2 ⟨hg, ha⟩))
  have := (g.active_iff.1 ha).2
  simp only [Grant.excess] at all
  omega

/-- Grants none of which is denied or above its request lack just the excesses. -/
theorem grantSum_add_excessSum {gs : List Grant} (h : ∀ g ∈ gs, g.denied = false ∧ g.grant ≤ g.part.q) :
    grantSum gs + excessSum gs = (gs.map fun g => g.part.q).sum := by
  induction gs with
  | nil => rfl
  | cons g rest ih =>
    obtain ⟨⟨hd, hq⟩, hrest⟩ := List.forall_mem_cons.1 h
    have ih := ih hrest
    simp only [grantSum, excessSum, List.map_cons, List.sum_cons] at ih ⊢
    cases ha : g.active
    · rw [List.filter_cons_of_neg (by simp [ha])]
      have full : ¬ (g.denied = false ∧ g.grant < g.part.q) := fun h => by
        rw [g.active_iff.2 h] at ha
        cases ha
      simp only [hd, true_and] at full
      omega
    · rw [List.filter_cons_of_pos ha, List.map_cons, List.sum_cons]
      simp only [Grant.excess]
      omega

/-- Where no member fills, the members together want more than R: each wants more than its part by weight. -/
theorem lt_excessSum {r : Nat} {gs : List Grant} (hw : ∀ g ∈ gs, 1 ≤ g.part.w) (ha : gs.any Grant.active = true)
    (hf : gs.any (Grant.fills r (weightSum gs)) = false) : r < excessSum gs := by
  obtain ⟨g, hg, hga⟩ := List.any_eq_true.1 ha
  have hmem : g ∈ gs.filter Grant.active := List.mem_filter.2 ⟨hg, hga⟩
  have hpos : 0 < weightSum gs :=
    (hw g hg).trans (List.le_sum_of_mem (List.mem_map_of_mem (f := fun g : Grant => g.part.w) hmem))
  have each : ∀ x ∈ gs.filter Grant.active, r * x.part.w < x.excess * weightSum gs := fun x hx => by
    obtain ⟨hx, hxa⟩ := List.mem_filter.1 hx
    exact (Nat.div_lt_iff_lt_mul hpos).1 (x.tentative_lt hxa (by simpa using List.any_eq_false.1 hf x hx))
  have total := List.sum_lt_sum_of_ne_nil (List.ne_nil_of_mem hmem) _ _ each
  rw [List.sum_map_mul_left, List.sum_map_mul_right] at total
  exact Nat.lt_of_mul_lt_mul_right total

/-- Requests that fit are all met: the stage leaves no member. -/
theorem remainderStage_meets {n r : Nat} {gs : List Grant} (hw : ∀ g ∈ gs, 1 ≤ g.part.w) (hn : gs.countP Grant.active ≤ n)
    (hr : excessSum gs ≤ r) : (remainderStage n r gs).any Grant.active = false := by
  induction n generalizing r gs with
  | zero => exact countP_active_eq_zero.1 (Nat.le_zero.1 hn)
  | succ n ih =>
    cases ha : gs.any Grant.active
    · rw [remainderStage_done (.inr ha), ha]
    rcases Nat.eq_zero_or_pos r with rfl | hpos
    · rw [remainderStage_done (.inl rfl), excessSum_eq_zero (Nat.le_zero.1 hr)]
    cases hf : gs.any (Grant.fills r (weightSum gs))
    · exact absurd (lt_excessSum hw ha hf) (Nat.not_lt_of_le hr)
    · rw [remainderStage_fill hpos hf]
      have fewer := countP_active_fill hf
      have left := excessSum_fill r (weightSum gs) gs
      refine ih (List.forall_mem_map.2 fun g hg => ?_) (by omega) (by omega)
      rw [(g.raisedTo_fill ..).part]
      exact hw g hg

/-! ### The last round, grant by grant -/

/-- The leftover goes to the first members of the list, one unit each. -/
theorem giveLeftover_getElem? {left i : Nat} {gs : List Grant} {g : Grant} (h : gs[i]? = some g) :
    (giveLeftover left gs)[i]? =
      some (if g.active = true ∧ (gs.take i).countP Grant.active < left then { g with grant := g.grant + 1 } else g) := by
  fun_induction giveLeftover left gs generalizing i with
  | case1 => simpa using h
  | case2 => simp at h
  | case3 n x rest ha ih =>
    cases i with
    | zero =>
      obtain rfl : x = g := by simpa using h
      simp [ha]
    | succ i => simpa [ha] using ih (by simpa using h)
  | case4 n x rest ha ih =>
    cases i with
    | zero =>
      obtain rfl : x = g := by simpa using h
      simp [ha]
    | succ i => simpa [ha] using ih (by simpa using h)

/-- What the last round leaves at each place of the list (R29). -/
theorem remainderStage_last_getElem? {r i : Nat} {gs : List Grant} {g : Grant} (hr : 0 < r) (ha : gs.any Grant.active = true)
    (hf : gs.any (Grant.fills r (weightSum gs)) = false) (n : Nat) (h : gs[i]? = some g) :
    (remainderStage (n + 1) r gs)[i]? = some (if g.active = true then
      { g with grant := g.grant + tentative r (weightSum gs) g +
          (if (gs.take i).countP Grant.active < r - extendedSum r (weightSum gs) gs then 1 else 0) }
    else g) := by
  have stay : ∀ x ∈ gs, (x.extend r (weightSum gs)).active = x.active := fun x hx =>
    Grant.active_extend (by simpa using List.any_eq_false.1 hf x hx)
  have before : ((gs.map (Grant.extend r (weightSum gs))).take i).countP Grant.active = (gs.take i).countP Grant.active := by
    rw [← List.map_take, List.countP_map]
    exact List.countP_congr fun x hx => by rw [Function.comp_apply, stay x (List.mem_of_mem_take hx)]
  rw [remainderStage_last hr ha hf, giveLeftover_getElem? (g := g.extend r (weightSum gs)) (by simp [h]), before,
    stay g (List.mem_of_getElem? h)]
  cases hg : g.active
  · simp [Grant.extend, hg]
  · by_cases more : (gs.take i).countP Grant.active < r - extendedSum r (weightSum gs) gs <;> simp [Grant.extend, hg, more]

end Sys2Proof.Machine
end

section
/-! The whole share computation and the inputs of a run (R18, R19, R24 to R30), and O14. -/

namespace Sys2Proof.Machine

open Sys2Proof

/-! ### The grants of a share computation -/

/-- Every final grant is one of the floor stage, raised. -/
theorem mem_shareGrants {cap : Nat} {ps : List Part} {g : Grant} (h : g ∈ shareGrants cap ps) :
    ∃ g₀ ∈ floorStage cap ps, g₀.RaisedTo g := by
  obtain ⟨g₀, hg₀, raised⟩ := mem_remainderStage (shareGrants_eq cap ps ▸ h)
  exact ⟨g₀, (byNode_perm _).mem_iff.1 hg₀, raised⟩

theorem shareGrants_length (cap : Nat) (ps : List Part) : (shareGrants cap ps).length = ps.length := by
  rw [shareGrants_eq, remainderStage_length, byNode_floorStage_length]

/-- The grants fit the effective capacity: the floors do, and the remainder stage gives out no more than they leave. -/
theorem shareGrants_sum (cap : Nat) (ps : List Part) : grantSum (shareGrants cap ps) ≤ cap := by
  have floors : grantSum (byNode (floorStage cap ps)) ≤ cap :=
    (grantSum_perm (byNode_perm _)).le.trans (floorStage_sum cap ps)
  have given := grantSum_remainderStage (ps.length + 1) (cap - grantSum (byNode (floorStage cap ps))) (byNode (floorStage cap ps))
  rw [← shareGrants_eq] at given
  omega

theorem shareGrants_grant_le {cap : Nat} {ps : List Part} {g : Grant} (h : g ∈ shareGrants cap ps) : g.grant ≤ cap :=
  (List.le_sum_of_mem (List.mem_map_of_mem h)).trans (shareGrants_sum cap ps)

theorem shareGrants_part {cap : Nat} {ps : List Part} {g : Grant} (h : g ∈ shareGrants cap ps) : g.part ∈ ps := by
  obtain ⟨g₀, hg₀, raised⟩ := mem_shareGrants h
  rw [raised.part]
  exact (floorStage_parts cap ps).subset (List.mem_map_of_mem hg₀)

theorem shareGrants_sound {cap : Nat} {ps : List Part} (hm : ∀ p ∈ ps, p.m ≤ p.q) {g : Grant} (h : g ∈ shareGrants cap ps) :
    g.Sound := by
  obtain ⟨g₀, hg₀, raised⟩ := mem_shareGrants h
  exact raised.sound (floorStage_sound hm cap g₀ hg₀)

/-- Where the floors fit, none is denied to the end. -/
theorem shareGrants_not_denied {cap : Nat} {ps : List Part} (fit : floorSum ps ≤ cap) {g : Grant} (h : g ∈ shareGrants cap ps) :
    g.denied = false := by
  obtain ⟨g₀, hg₀, raised⟩ := mem_shareGrants h
  rw [floorStage_of_fit fit] at hg₀
  obtain ⟨p, -, rfl⟩ := List.mem_map.1 hg₀
  exact raised.denied

/-- When the requests fit, every participant is granted its request. -/
theorem shareGrants_meets {cap : Nat} {ps : List Part} (hm : ∀ p ∈ ps, p.m ≤ p.q) (hw : ∀ p ∈ ps, 1 ≤ p.w)
    (fit : (ps.map Part.q).sum ≤ cap) {g : Grant} (h : g ∈ shareGrants cap ps) : g.grant = g.part.q := by
  have floorsFit : floorSum ps ≤ cap := (List.sum_le_sum hm).trans fit
  have parts : ((byNode (floorStage cap ps)).map Grant.part).Perm ps := ((byNode_perm _).map _).trans (floorStage_parts cap ps)
  have free : ∀ x ∈ byNode (floorStage cap ps), x.denied = false ∧ x.grant ≤ x.part.q := fun x hx => by
    rw [(byNode_perm _).mem_iff, floorStage_of_fit floorsFit] at hx
    obtain ⟨p, hp, rfl⟩ := List.mem_map.1 hx
    exact ⟨rfl, hm p hp⟩
  have requests : ((byNode (floorStage cap ps)).map fun x => x.part.q).sum = (ps.map Part.q).sum := by
    rw [← (parts.map Part.q).sum_eq, List.map_map]
    rfl
  have wanted := grantSum_add_excessSum free
  have weights : ∀ x ∈ byNode (floorStage cap ps), 1 ≤ x.part.w := fun x hx =>
    hw _ (parts.subset (List.mem_map_of_mem hx))
  have members : (byNode (floorStage cap ps)).countP Grant.active ≤ ps.length + 1 :=
    List.countP_le_length.trans ((byNode_floorStage_length cap ps).le.trans (Nat.le_succ _))
  have met := remainderStage_meets (r := cap - grantSum (byNode (floorStage cap ps))) weights members (by omega)
  rw [← shareGrants_eq] at met
  have notBelow : ¬ g.grant < g.part.q := fun below =>
    List.any_eq_false.1 met g h (g.active_iff.2 ⟨shareGrants_not_denied floorsFit h, below⟩)
  exact Nat.le_antisymm (shareGrants_sound hm h).1 (Nat.le_of_not_lt notBelow)

/-- The bounds on the grants of one computation. -/
theorem shareGrants_fit {cap : Nat} {ps : List Part} (h : ∀ p ∈ ps, p.m ≤ p.q ∧ 1 ≤ p.w) :
    (shareGrants cap ps).length = ps.length ∧ grantSum (shareGrants cap ps) ≤ cap ∧
    (∀ g ∈ shareGrants cap ps, g.part ∈ ps ∧ g.grant ≤ g.part.q ∧ (g.grant = 0 ∨ g.part.m ≤ g.grant)) ∧
    ((ps.map Part.q).sum ≤ cap → ∀ g ∈ shareGrants cap ps, g.grant = g.part.q) ∧
    (cap = 0 → ∀ g ∈ shareGrants cap ps, g.grant = 0 ∧ (0 < g.part.m → g.denied = true)) := by
  have hm : ∀ p ∈ ps, p.m ≤ p.q := fun p hp => (h p hp).1
  refine ⟨shareGrants_length .., shareGrants_sum .., fun g hg => ?_, fun fit g => ?_, fun none g hg => ?_⟩
  · have sound := shareGrants_sound hm hg
    exact ⟨shareGrants_part hg, sound.1, sound.zero_or_floor⟩
  · exact shareGrants_meets hm (fun p hp => (h p hp).2) fit
  · have zero : g.grant = 0 := Nat.le_zero.1 (none ▸ shareGrants_grant_le hg)
    exact ⟨zero, (shareGrants_sound hm hg).denied_of_zero zero⟩

/-! ### The order of giving -/

/-- Floors that do not fit are given in ascending order of rank and node number, each where it fits in what remains (R26). -/
theorem floorStage_scan {cap : Nat} {ps : List Part} (short : cap < floorSum ps) :
    ((floorStage cap ps).map Grant.part).Perm ps ∧
    ((floorStage cap ps).map Grant.part).Pairwise (fun x y => x.rank < y.rank ∨ (x.rank = y.rank ∧ x.node ≤ y.node)) ∧
    ∀ (i : Nat) (g : Grant), (floorStage cap ps)[i]? = some g →
      g = (if g.part.m ≤ cap - (((floorStage cap ps).take i).map Grant.grant).sum then ⟨g.part, g.part.m, false⟩
        else ⟨g.part, 0, true⟩) := by
  refine ⟨floorStage_parts cap ps, ?_, fun i g hg => ?_⟩
  · rw [floorStage_of_short short, floorScan_parts]
    exact scanOrder_sorted ps
  · rw [floorStage_of_short short] at hg ⊢
    exact floorScan_turn hg

/-- `Grant.active` in the words of R27. -/
theorem Grant.active_eq : Grant.active = fun g => !g.denied && decide (g.grant < g.part.q) := by
  funext g
  simp [Grant.active, Grant.excess]

/-- A member that fills ends at its request. -/
theorem Grant.fill_eq (r w : Nat) : Grant.fill r w = fun g => if g.fills r w = true then { g with grant := g.part.q } else g := by
  funext g
  unfold Grant.fill
  split
  next hf =>
    have below := (g.active_iff.1 (Grant.fills_iff.1 hf).1).2
    have full : g.grant + g.excess = g.part.q := by
      unfold Grant.excess
      omega
    rw [full]
  next => rfl

/-- The rounds of the remainder stage, with the fuel the computation gives it. -/
theorem remainderStage_rounds (r n : Nat) (gs : List Grant) :
    (r = 0 ∨ gs.any Grant.active = false → remainderStage n r gs = gs) ∧
    (0 < r → gs.any (Grant.fills r (weightSum gs)) = true →
      remainderStage (n + 1) r gs = remainderStage n (r - filledSum r (weightSum gs) gs)
        (gs.map (fun g => if g.fills r (weightSum gs) = true then { g with grant := g.part.q } else g))) ∧
    (0 < r → gs.any Grant.active = true → gs.any (Grant.fills r (weightSum gs)) = false →
      (remainderStage (n + 1) r gs).length = gs.length ∧
      ∀ (i : Nat) (g : Grant), gs[i]? = some g →
        (remainderStage (n + 1) r gs)[i]? = some (if g.active = true then
          { g with grant := g.grant + tentative r (weightSum gs) g +
              (if ((gs.take i).filter Grant.active).length < r - extendedSum r (weightSum gs) gs then 1 else 0) }
        else g)) ∧
    (gs.length ≤ n → remainderStage (n + 1) r gs = remainderStage (gs.length + 1) r gs) := by
  refine ⟨fun h => remainderStage_done h n, fun hr hf => ?_, fun hr ha hf => ⟨remainderStage_length .., fun i g hg => ?_⟩,
    fun enough => ?_⟩
  · rw [remainderStage_fill hr hf, Grant.fill_eq]
  · rw [← List.countP_eq_length_filter]
    exact remainderStage_last_getElem? hr ha hf n hg
  · have members : gs.countP Grant.active ≤ gs.length := List.countP_le_length
    exact remainderStage_fuel (by omega) (by omega)

/-! ### The inputs of a run -/

theorem rankOf_eq (x : Summary) : rankOf x = if x = .running then 0 else if x = .holding then 1 else 2 := by
  cases x <;> rfl

theorem PeerEntry.rank_eq (e : PeerEntry) : e.rank = if e.presence = .stale then 2 else rankOf e.summary := by
  unfold PeerEntry.rank
  cases e.presence <;> rfl

theorem Item.takesPart_iff {i : Item} {f : Feed} : i.takesPart f = true ↔ i.feed = f ∧ 0 < i.q := by
  simp [Item.takesPart]

theorem OwnRecord.mem_parts {r : OwnRecord} {node : Nat} {f : Feed} {p : Part} :
    p ∈ r.parts node f ↔ ∃ i ∈ r.items, i.feed = f ∧ 0 < i.q ∧ p = ⟨true, node, rankOf r.summary, i.q, i.m, i.w⟩ := by
  simp only [OwnRecord.parts, List.mem_map, List.mem_filter, Item.takesPart_iff, and_assoc, eq_comm (a := p)]

theorem PeerEntry.mem_parts {e : PeerEntry} {f : Feed} {p : Part} :
    p ∈ e.parts f ↔ ∃ i ∈ e.items, i.feed = f ∧ 0 < i.q ∧ p = ⟨false, e.node, e.rank, i.q, i.m, i.w⟩ := by
  simp only [PeerEntry.parts, List.mem_map, List.mem_filter, Item.takesPart_iff, and_assoc, eq_comm (a := p)]

/-- The participants: the own items, and while ISOLATED is clear those of every entry (R24). -/
theorem mem_participants {node : Nat} {x : Peer} {f : Feed} {p : Part} :
    p ∈ participants node x f ↔ p ∈ x.own.parts node f ∨ x.isolated = false ∧ ∃ e ∈ x.table, p ∈ e.parts f := by
  unfold participants
  cases x.isolated <;> simp

/-- An own participant is an own item on the feed. -/
theorem own_of_mem_participants {node : Nat} {x : Peer} {f : Feed} {p : Part} (h : p ∈ participants node x f) (own : p.own = true) :
    ∃ i ∈ x.own.items, i.feed = f ∧ 0 < i.q ∧ p.q = i.q ∧ p.m = i.m := by
  rcases mem_participants.1 h with h | ⟨-, e, -, h⟩
  · obtain ⟨i, hi, hf, hq, rfl⟩ := OwnRecord.mem_parts.1 h
    exact ⟨i, hi, hf, hq, rfl, rfl⟩
  · obtain ⟨i, -, -, -, rfl⟩ := PeerEntry.mem_parts.1 h
    cases own

/-! ### The computed grant -/

theorem ownGrant_of_some {gs : List Grant} {g : Grant} (h : gs.find? (fun g => g.part.own) = some g) : ownGrant gs = g.grant := by
  rw [ownGrant, h]

theorem ownGrant_of_none {gs : List Grant} (h : gs.find? (fun g => g.part.own) = none) : ownGrant gs = 0 := by
  rw [ownGrant, h]

/-- The own grant is 0, or that of an own participant. -/
theorem ownGrant_zero_or (gs : List Grant) : ownGrant gs = 0 ∨ ∃ g ∈ gs, g.part.own = true ∧ ownGrant gs = g.grant := by
  cases h : gs.find? (fun g => g.part.own) with
  | none => exact .inl (ownGrant_of_none h)
  | some g => exact .inr ⟨g, List.mem_of_find?_eq_some h, List.find?_some (p := fun g : Grant => g.part.own) h, ownGrant_of_some h⟩

/-- The computed grant is 0, or the sound grant within the effective capacity of an own item on the feed. -/
theorem computedGrant_zero_or {s : State} {f : Feed} (hm : ∀ p ∈ participants s.img.node s.peer f, p.m ≤ p.q) :
    computedGrant s f = 0 ∨ computedGrant s f ≤ effectiveCapacity (capacityInForce s f) (s.shr.get f).k ∧
      ∃ i ∈ s.peer.own.items, i.feed = f ∧ 0 < i.q ∧ computedGrant s f ≤ i.q ∧ (computedGrant s f = 0 ∨ i.m ≤ computedGrant s f) := by
  rcases ownGrant_zero_or (shareGrants (effectiveCapacity (capacityInForce s f) (s.shr.get f).k)
    (participants s.img.node s.peer f)) with zero | ⟨g, hg, own, eq⟩
  · exact .inl zero
  · have sound := shareGrants_sound hm hg
    obtain ⟨i, hi, hf, hq, qEq, mEq⟩ := own_of_mem_participants (shareGrants_part hg) own
    rw [computedGrant, eq]
    exact .inr ⟨shareGrants_grant_le hg, i, hi, hf, hq, qEq ▸ sound.1, mEq ▸ sound.zero_or_floor⟩

/-- Settles O14: the two stages give no more than they have, and the remainder stage ends when no member is left, within as many
rounds as there are members. -/
theorem shareGrantsFitTheCapacity : Obligations.ShareGrantsFitTheCapacity := by
  unfold Obligations.ShareGrantsFitTheCapacity
  refine ⟨fun cap ps h => shareGrants_fit h, fun cap ps short => floorStage_scan short, fun cap ps => ?_, fun r n gs => ?_,
    fun s f => ?_⟩
  · exact ⟨byNode (floorStage cap ps), byNode_perm _, byNode_sorted _, shareGrants_eq cap ps⟩
  · intro active weights extra fills
    have hactive : Grant.active = active := Grant.active_eq
    have hweights : weightSum gs = weights := by rw [weightSum, hactive]
    have hfills : Grant.fills r weights = fills := funext fun g => by rw [Grant.fills, hactive]; rfl
    have rounds := remainderStage_rounds r n gs
    rw [filledSum, extendedSum, hweights, hactive] at rounds
    simp only [hfills] at rounds
    exact rounds
  · intro inForce cap ps rank
    have hrank : rankOf = rank := funext rankOf_eq
    refine ⟨fun p => ?_, fun g => ownGrant_of_some, ownGrant_of_none, fun h => ?_⟩
    · rw [← hrank, mem_participants]
      simp only [OwnRecord.mem_parts, PeerEntry.mem_parts, PeerEntry.rank_eq]
    · rcases computedGrant_zero_or fun p hp => (h p hp).1 with zero | ⟨hcap, i, hi, hf, hq, le, floor⟩
      · simp [zero]
      · refine ⟨hcap, fun none => absurd (none i hi hf) (Nat.ne_of_gt hq), fun it _ _ only => ?_⟩
        obtain rfl := only i hi hf
        exact ⟨le, floor⟩

end Sys2Proof.Machine
end

section
/-! The valves, the switches and the line feed through the operations of SDU, and the stages of a feed switch and of the post-rinse (R38 to R47):
O36. -/

namespace Sys2Proof.Machine

open Sys2Proof

/-! ### Closing -/

/-- A valve that is not open stays as it is when commanded closed (R39). -/
theorem Valve.close_of_shut {v : Valve} (h : v.isOpen = false) : v.close = v := by simp [Valve.close, h]

theorem Valve.close_of_closed {v : Valve} (h : v.state = .closed) : v.close = v := Valve.close_of_shut (by simp [Valve.isOpen, h])

/-- Every feed valve of the channel is commanded closed; its line feed, switch, target and rate stand (R39). -/
theorem closeFeeds_chan (c : Channel) (s : State) :
    (∀ f, ((closeFeeds c s).chan c).valves.get f = ((s.chan c).valves.get f).close) ∧
    ((closeFeeds c s).chan c).lineFeed = (s.chan c).lineFeed ∧ ((closeFeeds c s).chan c).switch = (s.chan c).switch ∧
    ((closeFeeds c s).chan c).target = (s.chan c).target ∧ ((closeFeeds c s).chan c).rate = (s.chan c).rate := by
  unfold closeFeeds
  dsimp only
  split
  · rw [State.chan_setChan]
    exact ⟨fun f => PerFeed.get_map _ _ f, rfl, rfl, rfl, rfl⟩
  · next none_open => exact ⟨fun f => (Valve.close_of_shut (Dispense.openFeed_isNone none_open f)).symm, rfl, rfl, rfl, rfl⟩

theorem closeFeeds_other {c x : Channel} (h : c ≠ x) (s : State) : (closeFeeds c s).chan x = s.chan x := by
  unfold closeFeeds
  dsimp only
  split
  · rw [State.chan_setChan_of_ne _ _ h]
    rfl
  · rfl

/-- Closing DI takes the MAIN line feed to NONE after a full flush volume, and changes nothing else of the channels (R41). -/
theorem closeDi_main (s : State) : (closeDi s).chan .main = { s.chan .main with
    lineFeed := if s.sdu.di.isOpen = true ∧ 100 * s.img.flushVolume ≤ s.sdu.diVolume then .none else (s.chan .main).lineFeed } := by
  have full : tenthsMl s.img.flushVolume = 100 * s.img.flushVolume := Nat.mul_comm ..
  by_cases o : s.sdu.di.isOpen = true
  · simp only [closeDi, o, full, if_true, true_and]
    split <;> rfl
  · simp [closeDi, o]

theorem closeDi_additive (s : State) : (closeDi s).chan .additive = s.chan .additive := by
  unfold closeDi
  split
  · rfl
  · rfl

theorem closeDi_di (s : State) : (closeDi s).sdu.di = s.sdu.di.close := by
  unfold closeDi
  split
  · rfl
  · next shut => exact (Valve.close_of_shut (by simpa using shut)).symm

/-- Every valve of the channel is commanded closed; its switch, target and rate stand, and so does the other channel (R39). -/
theorem closeChannel_chan (c : Channel) (s : State) :
    (∀ f, ((closeChannel c s).chan c).valves.get f = ((s.chan c).valves.get f).close) ∧
    ((closeChannel c s).chan c).switch = (s.chan c).switch ∧ ((closeChannel c s).chan c).target = (s.chan c).target ∧
    ((closeChannel c s).chan c).rate = (s.chan c).rate := by
  obtain ⟨valves, -, switch, target, rate⟩ := closeFeeds_chan c s
  cases c
  · rw [closeChannel, closeDi_main]
    exact ⟨valves, switch, target, rate⟩
  · exact ⟨valves, switch, target, rate⟩

theorem closeChannel_other {c x : Channel} (h : c ≠ x) (s : State) : (closeChannel c s).chan x = s.chan x := by
  cases c <;> cases x
  · exact absurd rfl h
  · exact (closeDi_additive _).trans (closeFeeds_other h s)
  · exact closeFeeds_other h s
  · exact absurd rfl h

/-! ### Opening -/

/-- A closed feed valve opens, and the line feed becomes its feed; the channel's switch and rate and the other channel stand (R39, R41). -/
theorem openFeedValve_chan {c : Channel} {f : Feed} {s : State} (closed : ((s.chan c).valves.get f).state = .closed) :
    (((openFeedValve c f s).chan c).valves.get f).state = .opened ∧ ((openFeedValve c f s).chan c).lineFeed = .feed f ∧
    ((openFeedValve c f s).chan c).rate = (s.chan c).rate ∧ ∀ x, c ≠ x → (openFeedValve c f s).chan x = s.chan x := by
  obtain ⟨valves, -, -, rate⟩ := closeChannel_chan c s
  have shut : (((closeChannel c s).chan c).valves.get f).state = .closed := by rw [valves, Valve.close_of_closed closed, closed]
  unfold openFeedValve
  dsimp only
  rw [if_pos shut, State.chan_setChan]
  refine ⟨?_, rfl, rate, fun x other => ?_⟩
  · simp [Valve.open_, shut]
  · rw [State.chan_setChan_of_ne _ _ other, closeChannel_other other]

/-- Opening a MAIN feed valve closes DI (R39). -/
theorem openFeedValve_di (f : Feed) (s : State) : (openFeedValve .main f s).sdu.di = s.sdu.di.close := by
  have di : (closeFeeds .main s).sdu.di = s.sdu.di := by simp
  have shut : (closeChannel .main s).sdu.di = s.sdu.di.close := by rw [closeChannel, closeDi_di, di]
  rw [← shut]
  unfold openFeedValve
  dsimp only
  split
  · simp
  · rfl

/-- DI opens unless it is FAULT_CLOSED, and is open from there (R38, R40). -/
theorem Valve.open_isOpen {v : Valve} (h : v.state ≠ .faultClosed) : v.open_.isOpen = true := by
  cases e : v.state <;> simp_all [Valve.open_, Valve.isOpen]

/-- DI opens with its volume from 0 and every MAIN feed valve shut; the line feed and the ADDITIVE channel stand (R39, R41). -/
theorem openDi_chan (s : State) :
    (openDi s).sdu.di = s.sdu.di.open_ ∧ (openDi s).sdu.diVolume = 0 ∧
    (∀ f, (((openDi s).chan .main).valves.get f).isOpen = false) ∧
    ((openDi s).chan .main).lineFeed = (s.chan .main).lineFeed ∧ (openDi s).chan .additive = s.chan .additive := by
  obtain ⟨-, line, -⟩ := closeFeeds_chan .main s
  have di : (closeFeeds .main s).sdu.di = s.sdu.di := by simp
  exact ⟨congrArg Valve.open_ di, rfl, closeFeeds_closes .main s, line, closeFeeds_other (by decide) s⟩

/-! ### Switches -/

theorem setSwitch_chan (c : Channel) (w : Switch) (s : State) : (setSwitch c w s).chan c = { s.chan c with switch := w } :=
  State.chan_setChan ..

theorem setSwitch_other {c x : Channel} (h : c ≠ x) (w : Switch) (s : State) : (setSwitch c w s).chan x = s.chan x :=
  State.chan_setChan_of_ne _ _ h

theorem setSwitch_di (c : Channel) (w : Switch) (s : State) :
    (setSwitch c w s).sdu.di = s.sdu.di ∧ (setSwitch c w s).sdu.diVolume = s.sdu.diVolume := ⟨rfl, rfl⟩

/-- A switch toward a feed completes: its valve open, the switch IDLE, the line feed known (R43). -/
theorem openTarget_feed {c : Channel} {f : Feed} {s : State} (closed : ((s.chan c).valves.get f).state = .closed) :
    let u := openTarget c (.feed f) s
    (u.chan c).switch = .idle ∧ ((u.chan c).valves.get f).state = .opened ∧ (u.chan c).lineFeed = .feed f ∧
    (u.chan c).rate = (s.chan c).rate ∧ ∀ x, c ≠ x → u.chan x = s.chan x := by
  obtain ⟨opened, line, rate, other⟩ := openFeedValve_chan closed
  simp only [openTarget, setSwitch_chan]
  exact ⟨trivial, opened, line, rate, fun x h => (setSwitch_other h ..).trans (other x h)⟩

/-- A switch toward DI completes, the line feed as it was (R43). -/
theorem openTarget_di {s : State} (closed : s.sdu.di.state = .closed) :
    let u := openTarget .main .di s
    (u.chan .main).switch = .idle ∧ u.sdu.di.state = .opened ∧ u.sdu.diVolume = 0 ∧
    (∀ f : Feed, ((u.chan .main).valves.get f).isOpen = false) ∧ (u.chan .main).lineFeed = (s.chan .main).lineFeed ∧
    u.chan .additive = s.chan .additive := by
  obtain ⟨di, volume, shut, line, additive⟩ := openDi_chan s
  simp only [openTarget, setSwitch_chan, setSwitch_di]
  exact ⟨trivial, by simp [di, Valve.open_, closed], volume, shut, line, (setSwitch_other (by decide) ..).trans additive⟩

/-- What the switches and the post-rinse never touch, in PEER's own part and every other block but SDU. -/
def SduAlone (s t : State) : Prop :=
  t.seq = s.seq ∧ t.hpc = s.hpc ∧ t.pcc = s.pcc ∧ t.epm = s.epm ∧ t.drv = s.drv ∧ t.rcp = s.rcp ∧ t.ilk = s.ilk ∧
  t.lnk = s.lnk ∧ t.cfg = s.cfg ∧ t.pins = s.pins ∧ t.shr = s.shr ∧ t.pending = s.pending

theorem endNonOverlap_alone (c : Channel) (s : State) : SduAlone s (endNonOverlap c s) := by
  refine ⟨?_, ?_, ?_, ?_, ?_, ?_, ?_, ?_, ?_, ?_, ?_, ?_⟩ <;> simp

theorem endFlush_alone (s : State) : SduAlone s (endFlush s) := by
  refine ⟨?_, ?_, ?_, ?_, ?_, ?_, ?_, ?_, ?_, ?_, ?_, ?_⟩ <;> simp

theorem runPostRinse_alone (s : State) : SduAlone s (runPostRinse s) := by
  refine ⟨?_, ?_, ?_, ?_, ?_, ?_, ?_, ?_, ?_, ?_, ?_, ?_⟩ <;> simp

theorem endPostRinse_alone (s : State) : SduAlone s (endPostRinse s) := by
  refine ⟨?_, ?_, ?_, ?_, ?_, ?_, ?_, ?_, ?_, ?_, ?_, ?_⟩ <;> simp

/-! ### The end of the non-overlap time -/

theorem nonOverlapEnd_spec {s : State} {c : Channel} {e : Nat} (started : s.started = true)
    (switch : (s.chan c).switch = .nonOverlap e) (time : e ≤ s.now) :
    exec (.nonOverlapEnd c) s = .next (settle (endNonOverlap c s)) := by
  have due : (s.started && nonOverlapDue c s) = true := by simp [started, nonOverlapDue, switch, time]
  exact congrArg Host.Outcome.next (if_pos due)

/-- A flush is needed on MAIN alone, toward a feed, in a line that holds another feed or an unknown one (R43). -/
theorem needsFlush_iff {c : Channel} {f : Feed} {s : State} : needsFlush c (.feed f) s = true ↔
    c = .main ∧ (s.chan c).lineFeed ≠ .none ∧ (s.chan c).lineFeed ≠ .feed f ∧ 0 < s.img.flushVolume := by
  cases line : (s.chan c).lineFeed with
  | feed g => simp [needsFlush, needsNonOverlap, line, and_assoc, eq_comm (a := f)]
  | none => simp [needsFlush, needsNonOverlap, line]
  | unknown => simp [needsFlush, needsNonOverlap, line]

/-- The flush begins: DI open with its volume from 0 (R43, R44). -/
theorem endNonOverlap_flushes {c : Channel} {s : State} (flush : needsFlush c (s.chan c).target s = true) :
    ((endNonOverlap c s).chan c).switch = .flush 0 ∧ (endNonOverlap c s).sdu.diVolume = 0 ∧
    (s.sdu.di.state ≠ .faultClosed → (endNonOverlap c s).sdu.di.isOpen = true) := by
  obtain ⟨di, volume, -⟩ := openDi_chan s
  simp only [endNonOverlap, flush, if_true, setSwitch_chan, setSwitch_di, di]
  exact ⟨trivial, volume, Valve.open_isOpen⟩

theorem endNonOverlap_opens {c : Channel} {s : State} (flush : ¬ needsFlush c (s.chan c).target s = true) :
    endNonOverlap c s = openTarget c (s.chan c).target s := if_neg flush

/-! ### The end of the flush -/

theorem flushDone_spec {s : State} {v : Nat} (started : s.started = true) (switch : (s.chan .main).switch = .flush v)
    (volume : 100 * s.img.flushVolume ≤ v) : exec .flushDone s = .next (settle (endFlush s)) := by
  have due : (s.started && flushDue s) = true := by
    have full : tenthsMl s.img.flushVolume ≤ v := (Nat.mul_comm ..).trans_le volume
    simp [started, flushDue, switch, full]
  exact congrArg Host.Outcome.next (if_pos due)

/-- The end of the flush: the pump stopped, DI closed, the target's valve open (R44). -/
theorem endFlush_opens {s : State} {f : Feed} (target : (s.chan .main).target = .feed f)
    (closed : ((s.chan .main).valves.get f).state = .closed) :
    let u := endFlush s
    (u.chan .main).switch = .idle ∧ (u.chan .main).rate = 0 ∧ u.sdu.di.isOpen = false ∧
    ((u.chan .main).valves.get f).state = .opened ∧ (u.chan .main).lineFeed = .feed f ∧ u.chan .additive = s.chan .additive := by
  have target' : (((s.chan .main).setRate 0)).target = .feed f := by
    unfold Dispense.setRate
    split
    · exact target
    · split <;> exact target
  obtain ⟨stopped, -, -⟩ := (s.chan .main).setRate_keeps 0
  have valves := (s.chan .main).setRate_valves 0
  generalize hw : closeDi (setSwitch .main .idle (s.setChan .main ((s.chan .main).setRate 0))) = w
  have unfolded : endFlush s = openTarget .main (.feed f) w := by
    simp only [endFlush, State.chan_setChan, target', hw]
  have main : w.chan .main = _ := hw ▸ closeDi_main _
  simp only [setSwitch_chan, State.chan_setChan] at main
  have additive : w.chan .additive = s.chan .additive := by
    rw [← hw, closeDi_additive, setSwitch_other (by decide), State.chan_setChan_of_ne _ _ (by decide)]
  have shut : w.sdu.di.isOpen = false := hw ▸ closeDi_closes _
  obtain ⟨idle, opened, line, rate, other⟩ := openTarget_feed (c := .main) (f := f) (s := w) (by rw [main]; simpa [valves] using closed)
  dsimp only
  rw [unfolded]
  refine ⟨idle, rate.trans (by rw [main]; exact stopped), ?_, opened, line, (other _ (by decide)).trans additive⟩
  rw [openTarget, (setSwitch_di ..).1, openFeedValve_di, Valve.close_isOpen]

/-! ### The post-rinse -/

theorem postRinseWaitEnd_spec {s : State} {e : Nat} (started : s.started = true)
    (switch : (s.chan .main).switch = .postRinseWait e) (time : e ≤ s.now) :
    exec .postRinseWaitEnd s = .next (settle (runPostRinse s)) := by
  have due : (s.started && postRinseWaitDue s) = true := by simp [started, postRinseWaitDue, switch, time]
  exact congrArg Host.Outcome.next (if_pos due)

/-- The rinse begins with DI opened (R47). -/
theorem runPostRinse_opens {s : State} (closed : s.sdu.di.state = .closed) :
    let u := runPostRinse s
    (u.chan .main).switch = .postRinse 0 ∧ u.sdu.di.state = .opened ∧ u.sdu.diVolume = 0 ∧
    (∀ f : Feed, ((u.chan .main).valves.get f).isOpen = false) ∧ u.chan .additive = s.chan .additive := by
  have shut : ¬ s.sdu.di.isOpen = true := by simp [Valve.isOpen, closed]
  obtain ⟨di, volume, feeds, -, additive⟩ := openDi_chan s
  simp only [runPostRinse, if_neg shut, setSwitch_chan, setSwitch_di]
  exact ⟨trivial, by simp [di, Valve.open_, closed], volume, feeds, (setSwitch_other (by decide) ..).trans additive⟩

theorem postRinseDone_spec {s : State} {v : Nat} (started : s.started = true) (switch : (s.chan .main).switch = .postRinse v)
    (volume : 100 * s.postRinse ≤ v) : exec .postRinseDone s = .next (settle (endPostRinse s)) := by
  have due : (s.started && postRinseDue s) = true := by
    have full : tenthsMl s.postRinse ≤ v := (Nat.mul_comm ..).trans_le volume
    simp [started, postRinseDue, switch, full]
  exact congrArg Host.Outcome.next (if_pos due)

/-- The end of the rinse: the pump stopped, DI closed, the line feed NONE after a full flush volume (R41, R47). -/
theorem endPostRinse_closes {s : State} (opened : s.sdu.di.isOpen = true) :
    let u := endPostRinse s
    (u.chan .main).switch = .idle ∧ (u.chan .main).rate = 0 ∧ u.sdu.di.state = .closed ∧ u.sdu.rinseDone = true ∧
    (u.chan .main).lineFeed = (if 100 * s.img.flushVolume ≤ s.sdu.diVolume then .none else (s.chan .main).lineFeed) ∧
    u.chan .additive = s.chan .additive ∧ u.peer = s.peer := by
  obtain ⟨stopped, -, -⟩ := (s.chan .main).setRate_keeps 0
  have line : ((s.chan .main).setRate 0).lineFeed = (s.chan .main).lineFeed := by
    unfold Dispense.setRate
    split
    · rfl
    · split <;> rfl
  generalize hw : setSwitch .main .idle (s.setChan .main ((s.chan .main).setRate 0)) = w
  have main : w.chan .main = { (s.chan .main).setRate 0 with switch := .idle } := by rw [← hw, setSwitch_chan, State.chan_setChan]
  have additive : w.chan .additive = s.chan .additive := by
    rw [← hw, setSwitch_other (by decide), State.chan_setChan_of_ne _ _ (by decide)]
  have di : w.sdu.di = s.sdu.di ∧ w.sdu.diVolume = s.sdu.diVolume ∧ w.img = s.img := by rw [← hw]; exact ⟨rfl, rfl, rfl⟩
  have unfolded : endPostRinse s = (closeDi w).setSdu { (closeDi w).sdu with rinseDone := true } := by simp only [endPostRinse, hw]
  have chan : ∀ x, (endPostRinse s).chan x = (closeDi w).chan x := fun x => by rw [unfolded]; rfl
  obtain ⟨di, volume, img⟩ := di
  dsimp only
  rw [chan, chan, closeDi_main, closeDi_additive, main, additive, di, opened, volume, img]
  refine ⟨rfl, stopped, ?_, by rw [unfolded]; rfl, by simp [line], rfl, by simp⟩
  have shut : (endPostRinse s).sdu.di = w.sdu.di.close := by rw [unfolded]; exact closeDi_di w
  rw [shut, di, Valve.close, if_pos opened]

/-- Settles O36: the non-overlap time's end by whether a flush is needed, then the flush and the post-rinse. -/
theorem switchesAndPostRinseEnd : Obligations.SwitchesAndPostRinseEnd := by
  unfold Obligations.SwitchesAndPostRinseEnd
  refine ⟨fun s started => ⟨?_, ?_, ?_⟩, fun s started => ⟨?_, ?_⟩⟩
  · intro c f e switch time target closed
    have next := nonOverlapEnd_spec started switch time
    refine ⟨fun flush => ?_, fun direct => ?_⟩
    · obtain ⟨switched, volume, opened⟩ := endNonOverlap_flushes (target ▸ needsFlush_iff.2 flush)
      exact ⟨_, next, switched, volume, opened, endNonOverlap_alone c s⟩
    · have unflushed : ¬ needsFlush c (s.chan c).target s = true := by
        rw [target, needsFlush_iff]
        rintro ⟨rfl, unknown, other, volume⟩
        rcases direct with h | h | h | h
        · cases h
        · omega
        · exact other h
        · exact unknown h
      obtain ⟨idle, opened, line, -⟩ := openTarget_feed closed
      have opens := endNonOverlap_opens unflushed
      rw [target] at opens
      refine ⟨_, next, ?_, ?_, ?_, endNonOverlap_alone c s⟩ <;> rw [opens] <;> assumption
  · intro e switch time target closed
    have opens : endNonOverlap .main s = openTarget .main .di s := by
      rw [← target]
      exact endNonOverlap_opens (by rw [target]; simp [needsFlush])
    obtain ⟨idle, opened, volume, shut, line, additive⟩ := openTarget_di closed
    rw [← opens] at idle opened volume shut line additive
    exact ⟨_, nonOverlapEnd_spec started switch time, idle, opened, volume, shut, line, additive, endNonOverlap_alone .main s⟩
  · intro f v switch volume target closed
    obtain ⟨idle, stopped, shut, opened, line, additive⟩ := endFlush_opens target closed
    exact ⟨_, flushDone_spec started switch volume, idle, stopped, shut, opened, line, additive, endFlush_alone s⟩
  · intro e switch time closed
    obtain ⟨seq, hpc, pcc, epm, drv, rcp, ilk, lnk, cfg, pins, -, pending⟩ := runPostRinse_alone s
    obtain ⟨rinsing, opened, volume, shut, additive⟩ := runPostRinse_opens closed
    exact ⟨_, postRinseWaitEnd_spec started switch time, rinsing, opened, volume, shut, by simp, additive, seq, hpc, pcc, epm, drv,
      rcp, ilk, lnk, cfg, pins, pending⟩
  · intro v switch volume opened
    obtain ⟨seq, hpc, pcc, epm, drv, rcp, ilk, lnk, cfg, pins, -, pending⟩ := endPostRinse_alone s
    obtain ⟨idle, stopped, shut, done, line, additive, peer⟩ := endPostRinse_closes opened
    exact ⟨_, postRinseDone_spec started switch volume, idle, stopped, shut, done, line, additive, seq, hpc, pcc, epm, drv,
      rcp, ilk, lnk, cfg, pins, peer, pending⟩

end Sys2Proof.Machine
end

section
/-! What the sequencer's reactions leave of SDU's meters and of its FAULT_CLOSED paths, and a fault of SDU reported: O35. -/

namespace Sys2Proof.Machine

open Sys2Proof

/-! ### Meters and FAULT_CLOSED paths -/

/-- A channel's calibration and cross-check stand, its window's counts stand or are abandoned at 0, and the same valves are FAULT_CLOSED (R40,
R49, R54 to R56). -/
structure Dispense.Stands (d d' : Dispense) : Prop where
  volumes : d'.vf = d.vf ∧ d'.vs = d.vs
  judged : d'.calibrated = d.calibrated ∧ d'.source = d.source ∧ d'.disagreeing = d.disagreeing ∧ d'.agreeing = d.agreeing
  strokes : d'.strokes = d.strokes ∨ d'.strokes = 0
  pulses : d'.pulses = d.pulses ∨ d'.pulses = 0
  faulted : ∀ f, (d'.valves.get f).state = .faultClosed ↔ (d.valves.get f).state = .faultClosed

theorem Dispense.Stands.refl (d : Dispense) : d.Stands d := ⟨⟨rfl, rfl⟩, ⟨rfl, rfl, rfl, rfl⟩, .inl rfl, .inl rfl, fun _ => .rfl⟩

theorem Dispense.Stands.trans {a b c : Dispense} (h : a.Stands b) (h' : b.Stands c) : a.Stands c where
  volumes := ⟨h'.volumes.1.trans h.volumes.1, h'.volumes.2.trans h.volumes.2⟩
  judged := by
    obtain ⟨calibrated, source, disagreeing, agreeing⟩ := h.judged
    obtain ⟨calibrated', source', disagreeing', agreeing'⟩ := h'.judged
    exact ⟨calibrated'.trans calibrated, source'.trans source, disagreeing'.trans disagreeing, agreeing'.trans agreeing⟩
  strokes := h'.strokes.elim (fun e => h.strokes.imp e.trans e.trans) .inr
  pulses := h'.pulses.elim (fun e => h.pulses.imp e.trans e.trans) .inr
  faulted f := (h'.faulted f).trans (h.faulted f)

/-- A pump that starts or stops abandons its window (R49, R54). -/
theorem Dispense.setRate_stands (d : Dispense) (r : Nat) : d.Stands (d.setRate r) := by
  have abandoned : ∀ {d' : Dispense}, d'.strokes = 0 → d'.pulses = 0 → d'.valves = d.valves → d'.vf = d.vf ∧ d'.vs = d.vs →
      d'.calibrated = d.calibrated ∧ d'.source = d.source ∧ d'.disagreeing = d.disagreeing ∧ d'.agreeing = d.agreeing →
      d.Stands d' := fun strokes pulses valves volumes judged =>
    ⟨volumes, judged, .inr strokes, .inr pulses, fun f => by rw [valves]⟩
  unfold Dispense.setRate
  split
  · exact abandoned rfl rfl rfl ⟨rfl, rfl⟩ ⟨rfl, rfl, rfl, rfl⟩
  · split
    · exact abandoned rfl rfl rfl ⟨rfl, rfl⟩ ⟨rfl, rfl, rfl, rfl⟩
    · exact ⟨⟨rfl, rfl⟩, ⟨rfl, rfl, rfl, rfl⟩, .inl rfl, .inl rfl, fun _ => .rfl⟩

theorem Valve.close_faulted (v : Valve) : v.close.state = .faultClosed ↔ v.state = .faultClosed := by
  unfold Valve.close
  split
  · next o => simp_all [Valve.isOpen]
  · rfl

theorem Valve.open_faulted (v : Valve) : v.open_.state = .faultClosed ↔ v.state = .faultClosed := by
  unfold Valve.open_
  split
  · next o => simp [o]
  · rfl

/-- Both channels stand, and DI is FAULT_CLOSED exactly as it was. -/
structure PathsStand (s t : State) : Prop where
  channel : ∀ c, (s.chan c).Stands (t.chan c)
  di : t.sdu.di.state = .faultClosed ↔ s.sdu.di.state = .faultClosed

theorem PathsStand.refl (s : State) : PathsStand s s := ⟨fun _ => .refl _, .rfl⟩

theorem PathsStand.trans {s t u : State} (h : PathsStand s t) (h' : PathsStand t u) : PathsStand s u :=
  ⟨fun c => (h.channel c).trans (h'.channel c), h'.di.trans h.di⟩

theorem PathsStand.of_frame {s t : State} (h : t.sdu.ch = s.sdu.ch ∧ t.sdu.di = s.sdu.di) : PathsStand s t := by
  obtain ⟨ch, di⟩ := h
  exact ⟨fun c => by rw [State.chan, State.chan, ch]; exact .refl _, by rw [di]⟩

theorem PathsStand.ite {p : Prop} [Decidable p] {s t u : State} (h : PathsStand s t) (h' : PathsStand s u) :
    PathsStand s (if p then t else u) := by
  split
  · exact h
  · exact h'

theorem PathsStand.setChan {s : State} {c : Channel} {d : Dispense} (h : (s.chan c).Stands d) : PathsStand s (s.setChan c d) := by
  refine ⟨fun x => ?_, .rfl⟩
  by_cases same : c = x
  · rwa [← same, State.chan_setChan]
  · rw [State.chan_setChan_of_ne _ _ same]
    exact .refl _

/-! ### Valves, switches and pumps -/

theorem closeFeeds_stand (c : Channel) (s : State) : PathsStand s (closeFeeds c s) := by
  have low : ∀ p, PathsStand s (s.setPeer p) := fun _ => .of_frame ⟨rfl, rfl⟩
  refine .ite ((low _).trans (.setChan ⟨⟨rfl, rfl⟩, ⟨rfl, rfl, rfl, rfl⟩, .inl rfl, .inl rfl, fun f => ?_⟩)) (.refl s)
  rw [PerFeed.get_map]
  exact Valve.close_faulted _

theorem closeDi_stand (s : State) : PathsStand s (closeDi s) := by
  refine ⟨fun c => ?_, by rw [closeDi_di]; exact Valve.close_faulted _⟩
  cases c
  · rw [closeDi_main]
    exact ⟨⟨rfl, rfl⟩, ⟨rfl, rfl, rfl, rfl⟩, .inl rfl, .inl rfl, fun _ => .rfl⟩
  · rw [closeDi_additive]
    exact .refl _

theorem closeChannel_stand (c : Channel) (s : State) : PathsStand s (closeChannel c s) := by
  cases c
  · exact (closeFeeds_stand .main s).trans (closeDi_stand _)
  · exact closeFeeds_stand .additive s

theorem setSwitch_stand (c : Channel) (w : Switch) (s : State) : PathsStand s (setSwitch c w s) :=
  .setChan ⟨⟨rfl, rfl⟩, ⟨rfl, rfl, rfl, rfl⟩, .inl rfl, .inl rfl, fun _ => .rfl⟩

theorem openDi_stand (s : State) : PathsStand s (openDi s) :=
  (closeFeeds_stand .main s).trans ⟨fun _ => .refl _, Valve.open_faulted _⟩

theorem setPumps_stand (s : State) : PathsStand s (setPumps s) := by
  refine ⟨fun c => ?_, .rfl⟩
  cases c
  · exact Dispense.setRate_stands (s.chan .main) _
  · exact Dispense.setRate_stands (s.chan .additive) _

theorem cutDispense_stand (s : State) : PathsStand s (cutDispense s) := by
  have closed := (closeChannel_stand .main s).trans (closeChannel_stand .additive _)
  have switched := (closed.trans (setSwitch_stand .main .idle _)).trans (setSwitch_stand .additive .idle _)
  exact switched.trans (setPumps_stand _)

theorem runPostRinse_stand (s : State) : PathsStand s (runPostRinse s) :=
  (PathsStand.ite (.refl s) (openDi_stand s)).trans (setSwitch_stand ..)

theorem startPostRinse_stand (s : State) : PathsStand s (startPostRinse s) := by
  have reported : ∀ (u : State) b, PathsStand u (u.setSdu { u.sdu with rinseDone := b }) := fun _ _ => .of_frame ⟨rfl, rfl⟩
  have waits : ∀ u e, PathsStand u (setSwitch .main (.postRinseWait e) u) := fun u e => setSwitch_stand ..
  unfold startPostRinse
  dsimp only
  refine ((reported s false).trans (closeFeeds_stand .additive _)).trans ?_
  generalize closeFeeds .additive (s.setSdu _) = u
  refine .ite (((closeChannel_stand .main u).trans (setSwitch_stand ..)).trans (reported ..)) (.ite (.refl u) (.ite
    ((closeFeeds_stand .main u).trans (setSwitch_stand ..)) (.ite (runPostRinse_stand u) ?_)))
  split
  · exact setSwitch_stand ..
  · exact runPostRinse_stand u

/-! ### The sequencer's entries and exits -/

theorem enterRest_stand (x : SeqState) (s : State) : PathsStand s (enterRest x s) := by
  have vented : PathsStand s (ventHead (s.setSeq { s.seq with state := x })) := .of_frame (by simp)
  have stopped : ∀ u, PathsStand u (stopSymbolizer (stopDrives u)) := fun _ => .of_frame (by simp)
  exact (vented.trans (cutDispense_stand _)).trans (stopped _)

theorem enterAborting_stand (r : RunResult) (s : State) : PathsStand s (enterAborting r s) := by
  have cut : PathsStand s (if undecided s then appendEntry (s.entryNow .cut) s else s) := .ite (.of_frame (by simp)) (.refl s)
  have vented : ∀ (u : State) q, PathsStand u (ventHead (u.setSeq q)) := fun _ _ => .of_frame (by simp)
  have stopped : ∀ u, PathsStand u (clearPersist (stopSymbolizer (stopDrives (liftForEnd u)))) := fun _ => .of_frame (by simp)
  exact ((cut.trans (vented ..)).trans (cutDispense_stand _)).trans (stopped _)

theorem takeFault_stand (k : FaultKind) (s : State) : PathsStand s (takeFault k s) := by
  have noticed : ∀ later q, PathsStand s (noticeFault k later (s.setSeq q)) := fun _ _ => .of_frame (by simp)
  unfold takeFault
  split
  · split
    case h_1 | h_2 | h_3 => exact (noticed ..).trans (enterRest_stand ..)
    case h_4 | h_5 | h_6 | h_7 => exact (noticed ..).trans (enterAborting_stand ..)
    case h_8 => exact .ite (noticed ..) (noticed ..)
    case h_9 => exact noticed ..
  · exact .refl s

theorem enterEnding_stand (s : State) : PathsStand s (enterEnding s) := by
  have ended : ∀ q, PathsStand s (s.setSeq q) := fun _ => .of_frame (by simp)
  have levelled : ∀ u, PathsStand u (clearPersist (stopSymbolizer (liftForEnd (takeHoldLevels u)))) := fun _ => .of_frame (by simp)
  have rinsed := fun q => ((ended q).trans (startPostRinse_stand _)).trans (levelled _)
  exact .ite ((rinsed _).trans (takeFault_stand ..)) (rinsed _)

theorem endStep_stand (r : StepResult) (s : State) : PathsStand s (endStep r s) :=
  (PathsStand.of_frame (t := appendEntry (s.entryNow r) s) (by simp)).trans (enterEnding_stand _)

theorem checkDose_stand (s : State) : PathsStand s (checkDose s) := .ite (endStep_stand ..) (.refl s)

theorem leaveHolding_stand (s : State) : PathsStand s (leaveHolding s) := by
  unfold leaveHolding
  split
  · refine .ite (PathsStand.trans ?_ (enterEnding_stand _)) (.ite ?_ ?_) <;> exact .of_frame (by simp)
  · refine .ite (PathsStand.trans ?_ (enterEnding_stand _)) ?_ <;> exact .of_frame (by simp)

theorem takeReports_stand (s : State) : PathsStand s (takeReports s) := by
  have withdrawn : PathsStand s (s.setSeq { s.seq with causes := causesAfterWithdrawal s }) := .of_frame (by simp)
  unfold takeReports
  split
  case h_1 => exact .ite (.of_frame (by simp)) (.refl s)
  case h_2 => exact .ite (.refl s) (.ite (withdrawn.trans (leaveHolding_stand _)) withdrawn)
  all_goals exact .refl s

/-- Carrying a change through judges no window and finds no valve path. -/
theorem settle_stand (s : State) : PathsStand s (settle s) := by
  have carried : ∀ u, PathsStand u (carry u) := fun _ => .of_frame (by simp)
  have judged : ∀ u, PathsStand u (judgePersist u) := fun _ => .of_frame (by simp)
  have round : ∀ u, PathsStand u (takeReports (carry u)) := fun u => (carried u).trans (takeReports_stand _)
  have rounds := ((round s).trans (round _)).trans (carried _)
  exact .ite ((rounds.trans (setPumps_stand _)).trans (judged _)) (.refl s)

/-! ### A fault reported -/

/-- The notices of LNK turn on LNK and CFG alone (R178, R186). -/
theorem placeNotice_lnk_congr {s s' : State} (lnk : s'.lnk = s.lnk) (cfg : s'.cfg = s.cfg) (kind : Nat) (body : List Byte) :
    (placeNotice kind body s').lnk = (placeNotice kind body s).lnk := by
  simp only [placeNotice, State.silent, lnk, cfg, State.ite_lnk, State.setLnk_lnk]

theorem noticesEnded_lnk_congr (es : List RunEntry) {s s' : State} (lnk : s'.lnk = s.lnk) (cfg : s'.cfg = s.cfg) :
    (es.foldl (fun u e => placeNotice 4 e.bytes u) s').lnk = (es.foldl (fun u e => placeNotice 4 e.bytes u) s).lnk := by
  induction es generalizing s s' with
  | nil => exact lnk
  | cons e es ih => exact ih (placeNotice_lnk_congr lnk cfg ..) (by simpa using cfg)

/-- A cut reads of the state before it the step's entry, the run record, LNK and CFG, and of the state after it the run record and the notices
(R85). -/
theorem CutsStep.congr {s s' t t' : State} (h : CutsStep s' t') (cut : cutOf s' = cutOf s) (record : s'.seq.record = s.seq.record)
    (lnk : s'.lnk = s.lnk) (cfg : s'.cfg = s.cfg) (record' : t.seq.record = t'.seq.record)
    (notices : t.lnk.notices = t'.lnk.notices) (lost : t.lnk.lost = t'.lnk.lost) : CutsStep s t := by
  obtain ⟨recorded, noticed, counted⟩ := h
  have same := noticesEnded_lnk_congr (cutOf s) lnk cfg
  rw [cut] at recorded noticed counted
  exact ⟨record'.trans (record ▸ recorded), notices.trans (same ▸ noticed), lost.trans (same ▸ counted)⟩

/-- The first fault of the record enters no entry of the step. -/
theorem cutOf_congr {s s' : State} {first : Option FaultKind} (seq : s'.seq = { s.seq with first := first })
    (dose : s'.sdu.dose = s.sdu.dose) : cutOf s' = cutOf s := by
  simp only [cutOf, stepEntry, seq, dose]

theorem takeFault_of_run {s : State} (k : FaultKind) (started : s.started = true) (run : s.seq.state.inRun = true) :
    takeFault k s = enterAborting .faulted (noticeFault k false (s.setSeq { s.seq with first := some k })) := by
  simp only [takeFault, started, if_true]
  split <;> simp_all [SeqState.inRun]

theorem takeFault_of_rest {s : State} (k : FaultKind) (started : s.started = true)
    (rest : s.seq.state = .empty ∨ s.seq.state = .loaded ∨ s.seq.state = .done) :
    takeFault k s = enterRest .faulted (noticeFault k false (s.setSeq { s.seq with first := some k })) := by
  simp only [takeFault, started, if_true]
  rcases rest with h | h | h <;> simp only [h]

theorem takeFault_of_first {s : State} (k : FaultKind) (started : s.started = true) (aborting : s.seq.state = .aborting)
    (first : s.seq.first = none) : takeFault k s = noticeFault k false (s.setSeq { s.seq with first := some k }) := by
  simp [takeFault, started, aborting, first]

theorem takeFault_of_later {s : State} (k : FaultKind) (started : s.started = true)
    (later : (s.seq.state = .aborting ∧ s.seq.first ≠ none) ∨ s.seq.state = .faulted) :
    takeFault k s = noticeFault k true (s.setSeq { s.seq with later := s.seq.later.add k }) := by
  rcases later with ⟨aborting, first⟩ | faulted
  · simp [takeFault, started, aborting, first]
  · simp [takeFault, started, faulted]

/-- A fault leaves a started part outside RUNNING and HOLDING. -/
theorem takeFault_calm {s : State} (k : FaultKind) (started : s.started = true) :
    (takeFault k s).seq.state ≠ .running ∧ (takeFault k s).seq.state ≠ .holding := by
  rcases takeFault_state k started with h | ⟨h, -⟩ <;> simp [h]

theorem enterAborting_setpoint (r : RunResult) (s : State) (d : Drive) : ((enterAborting r s).drive d).setpoint = 0 := by
  have drv : (enterAborting r s).drv = (stopDrives s).drv := by simp [enterAborting, stopDrives]
  rw [State.drive, drv]
  exact stopDrives_setpoint s d

theorem noticeFault_seq (k : FaultKind) (later : Bool) (s : State) : (noticeFault k later s).seq = s.seq := by simp

/-- A fault taken by a state that has the sequencer, the notices and the dose of `s`, carried through, has been reported to `s` (R85, R87). -/
theorem takeFault_reported {s u : State} (k : FaultKind) (started : s.started = true) (seq : u.seq = s.seq) (lnk : u.lnk = s.lnk)
    (dose : u.sdu.dose = s.sdu.dose) (stands : OutsideStands s u) : FaultReported k s (settle (takeFault k u)) := by
  obtain ⟨cfg, rcp, ilk, pins, now, free, pending, table, refresh, quiet, isolated⟩ := stands
  have started' : u.started = true := by rw [State.started, State.inReset, cfg, pins]; exact started
  obtain ⟨calm, calm'⟩ := takeFault_calm k started'
  obtain ⟨seq', -, -, -, drv, notices, lost, -⟩ := settle_calm calm calm'
  have noticed : ∀ (later : Bool) (q : Seq), q.state = s.seq.state → (noticeFault k later (u.setSeq q)).lnk =
      (placeNotice 8 [byteOf (numKind k), yesNo later, byteOf (numState s.seq.state)] s).lnk := fun later q state => by
    rw [noticeFault, State.setSeq_seq, state]
    exact placeNotice_lnk_congr (s' := u.setSeq q) lnk cfg ..
  have queued : ∀ {later : Bool} {q : Seq}, q.state = s.seq.state → (takeFault k u).lnk = (noticeFault k later (u.setSeq q)).lnk →
      (settle (takeFault k u)).lnk.notices =
        (placeNotice 8 [byteOf (numKind k), yesNo later, byteOf (numState s.seq.state)] s).lnk.notices ∧
      (settle (takeFault k u)).lnk.lost =
        (placeNotice 8 [byteOf (numKind k), yesNo later, byteOf (numState s.seq.state)] s).lnk.lost := fun state same => by
    rw [notices, lost, same, noticed _ _ state]
    exact ⟨rfl, rfl⟩
  have state := congrArg Seq.state seq
  refine ⟨fun run => ?_, fun rest => ?_, fun aborting first => ?_, fun aborting first => ?_, fun faulted => ?_, by simp [dose],
    by simp [lnk], ?_⟩
  · have taken := takeFault_of_run k started' (by rwa [seq])
    have cuts := enterAborting_cuts .faulted (noticeFault k false (u.setSeq { u.seq with first := some k }))
    have entered := enterAborting_seq .faulted (noticeFault k false (u.setSeq { u.seq with first := some k }))
    rw [← taken] at cuts entered
    rw [noticeFault_seq] at entered
    rw [seq', entered]
    refine ⟨rfl, rfl, rfl, rfl, rfl, rfl, fun d => ?_, cuts.congr (cutOf_congr (first := some k) ?_ ?_) ?_ ?_ ?_ ?_ notices lost⟩
    · rw [State.drive, drv, taken]
      exact enterAborting_setpoint ..
    · simp [seq]
    · simp [dose]
    · simp [seq]
    · exact noticed false _ state
    · simp [cfg]
    · rw [seq']
  · have taken := takeFault_of_rest k started' (by rwa [seq])
    refine ⟨?_, queued (later := false) (q := { u.seq with first := some k }) state (by rw [taken]; simp [enterRest])⟩
    rw [seq', taken]
    simp [enterRest, seq]
  · have taken := takeFault_of_first k started' (by rwa [seq]) (by rwa [seq])
    refine ⟨?_, queued (later := false) (q := { u.seq with first := some k }) state (by rw [taken])⟩
    rw [seq', taken]
    simp [seq]
  · have taken := takeFault_of_later k started' (.inl (by rw [seq]; exact ⟨aborting, first⟩))
    refine ⟨?_, queued (later := true) (q := { u.seq with later := u.seq.later.add k }) state (by rw [taken])⟩
    rw [seq', taken]
    simp [seq]
  · have taken := takeFault_of_later k started' (.inr (by rwa [seq]))
    refine ⟨?_, queued (later := true) (q := { u.seq with later := u.seq.later.add k }) state (by rw [taken])⟩
    rw [seq', taken]
    simp [seq]
  · refine ⟨?_, ?_, ?_, ?_, ?_, ?_, ?_, ?_, ?_, ?_, ?_⟩ <;> simpa

end Sys2Proof.Machine
end

section
/-! A valve found disagreeing and a blocked pump: O35. -/

namespace Sys2Proof.Machine

open Sys2Proof

/-! ### A pump stopped -/

theorem Dispense.setRate_zero_clamp (d : Dispense) : (d.setRate 0).clampTimer = 0 := by simp [Dispense.setRate]

/-- Outside RUNNING and HOLDING carrying a change through does no more to a channel than to set its pump's rate. -/
theorem settle_chan_of_calm {s : State} (started : s.started = true) (running : s.seq.state ≠ .running) (holding : s.seq.state ≠ .holding)
    (c : Channel) : ∃ r, (settle s).chan c = (s.chan c).setRate r := by
  have stands : ∀ x, (carry (carry (carry s))).chan x = s.chan x := fun x => by simp [State.chan]
  have pumped : ∀ u : State, ∃ r, (clearPersist (setPumps u)).chan c = (u.chan c).setRate r := fun u => by
    cases c
    · exact ⟨mainRate u, rfl⟩
    · exact ⟨additiveRate u, rfl⟩
  rw [settle_eq_of_calm running holding, if_pos started, ← stands c]
  exact pumped _

/-- With no flush and no post-rinse on MAIN, carrying a change through outside RUNNING and HOLDING leaves the pump stopped and its clamp timer 0
(R49, R60). -/
theorem settle_stops_pump {s : State} (started : s.started = true) (running : s.seq.state ≠ .running) (holding : s.seq.state ≠ .holding)
    (c : Channel) (idle : c = .main → (s.chan .main).switch = .idle) :
    ((settle s).chan c).rate = 0 ∧ ((settle s).chan c).clampTimer = 0 := by
  obtain ⟨r, chan⟩ := settle_chan_of_calm started running holding c
  obtain ⟨rate, switch, -⟩ := (s.chan c).setRate_keeps r
  obtain ⟨main, additive⟩ := settle_ratesCurrent started
  have rest : (settle s).seq.state ≠ .running := by rwa [(settle_calm running holding).1]
  have stopped : ((settle s).chan c).rate = 0 := by
    cases c
    · have idle' : ((settle s).chan .main).switch = .idle := by rw [chan, switch, idle rfl]
      rw [main]
      exact (mainRate_of_step (by simp [idle']) (by simp [idle'])).1 rest
    · rw [additive]
      exact (additiveRate_spec _).1 (.inl rest)
  have zero : r = 0 := by rw [← rate, ← chan, stopped]
  rw [chan, zero]
  exact ⟨((s.chan c).setRate_keeps 0).1, Dispense.setRate_zero_clamp _⟩

/-- The cut of the dispense unit leaves no switch under way (R45). -/
theorem cutDispense_idle (s : State) : ((cutDispense s).chan .main).switch = .idle := by
  have switch : ∀ u : State, ((setPumps u).chan .main).switch = (u.chan .main).switch := fun u => ((u.chan .main).setRate_keeps _).2.1
  rw [cutDispense, switch, setSwitch_other (by decide), setSwitch_chan]

/-- A fault taken outside ABORTING and FAULTED cuts the dispense unit (R45, R85, R87). -/
theorem takeFault_idle {s : State} (k : FaultKind) (started : s.started = true) (aborting : s.seq.state ≠ .aborting)
    (faulted : s.seq.state ≠ .faulted) : ((takeFault k s).chan .main).switch = .idle := by
  have ended : ∀ u, (clearPersist (stopSymbolizer (stopDrives (liftForEnd u)))).sdu.ch = u.sdu.ch := fun _ => by simp
  have stopped : ∀ u, (stopSymbolizer (stopDrives u)).sdu.ch = u.sdu.ch := fun _ => by simp
  have cut : ∀ x : State, ∃ y, (enterAborting .faulted x).sdu.ch = (cutDispense y).sdu.ch := fun x => ⟨_, ended _⟩
  have cut' : ∀ x : State, ∃ y, (enterRest .faulted x).sdu.ch = (cutDispense y).sdu.ch := fun x => ⟨_, stopped _⟩
  have idle : ∀ {x : State}, (∃ y, x.sdu.ch = (cutDispense y).sdu.ch) → (x.chan .main).switch = .idle := fun {x} ⟨y, ch⟩ => by
    rw [State.chan, ch]
    exact cutDispense_idle y
  cases run : s.seq.state.inRun
  · have rest : s.seq.state = .empty ∨ s.seq.state = .loaded ∨ s.seq.state = .done := by
      cases state : s.seq.state <;> simp_all [SeqState.inRun]
    rw [takeFault_of_rest k started rest]
    exact idle (cut' _)
  · rw [takeFault_of_run k started run]
    exact idle (cut _)

/-- In ABORTING and FAULTED a fault joins the record and leaves the dispense unit. -/
theorem takeFault_sdu {s : State} (k : FaultKind) (state : s.seq.state = .aborting ∨ s.seq.state = .faulted) :
    (takeFault k s).sdu = s.sdu := by
  unfold takeFault
  split
  · rcases state with h | h <;> simp [h]
  · rfl

/-! ### The events -/

theorem valveFeedbackFault_spec {s : State} {c : Channel} {p : Path} {v : Valve} (started : s.started = true)
    (found : valveOf c p s = some v) (sound : v.state ≠ .faultClosed) (time : 500000 ≤ v.disagree) :
    exec (.valveFeedbackFault c p) s = .next (settle (takeFault .valve (faultValve c p s))) := by
  have due : (s.started && valveFaultDue c p s) = true := by
    have long : feedbackTime ≤ v.disagree := time
    simp [started, valveFaultDue, found, sound, long]
  exact congrArg Host.Outcome.next (if_pos due)

theorem faultValve_outside (c : Channel) (p : Path) (s : State) : OutsideStands s (faultValve c p s) := by
  refine ⟨?_, ?_, ?_, ?_, ?_, ?_, ?_, ?_, ?_, ?_, ?_⟩ <;> simp

theorem faultValve_feed (c : Channel) (f : Feed) (s : State) :
    (((faultValve c (.feed f) s).chan c).valves.get f).state = .faultClosed := by
  rw [faultValve, State.chan_setChan, PerFeed.get_set_self]

theorem faultValve_di (c : Channel) (s : State) : (faultValve c .di s).sdu.di.state = .faultClosed := rfl

theorem faultValve_reported (c : Channel) (p : Path) {s : State} (started : s.started = true) :
    FaultReported .valve s (settle (takeFault .valve (faultValve c p s))) :=
  takeFault_reported .valve started (by simp) (by simp) (by simp) (faultValve_outside c p s)

theorem pumpBlocked_spec {s : State} {c : Channel} (started : s.started = true) (runs : 0 < (s.chan c).rate)
    (time : 1000 * s.img.clampTimeout ≤ (s.chan c).clampTimer) :
    exec (.pumpBlocked c) s = .next (settle (takeFault .pumpBlocked (stopPump c s))) := by
  have due : (s.started && blockedDue c s) = true := by
    have long : ms s.img.clampTimeout ≤ (s.chan c).clampTimer := (Nat.mul_comm ..).trans_le time
    simp [started, blockedDue, runs, long]
  exact congrArg Host.Outcome.next (if_pos due)

/-- A blocked pump is stopped once its fault has been carried through (R60). -/
theorem blockedPump_stops {s : State} {c : Channel} (started : s.started = true)
    (idle : c = .main → s.seq.state = .aborting ∨ s.seq.state = .faulted → (s.chan .main).switch = .idle) :
    let t := settle (takeFault .pumpBlocked (stopPump c s))
    (t.chan c).rate = 0 ∧ (t.chan c).clampTimer = 0 := by
  have stopped : (stopPump c s).started = true := by simpa [State.started, State.inReset] using started
  have faulted : (takeFault .pumpBlocked (stopPump c s)).started = true := by simpa [State.started, State.inReset] using started
  obtain ⟨running, holding⟩ := takeFault_calm .pumpBlocked stopped
  refine settle_stops_pump faulted running holding c fun main => ?_
  by_cases state : s.seq.state = .aborting ∨ s.seq.state = .faulted
  · have switch : ((stopPump c s).chan .main).switch = (s.chan .main).switch := by
      rw [main, stopPump, State.chan_setChan]
      exact ((s.chan .main).setRate_keeps 0).2.1
    rw [State.chan, takeFault_sdu _ (by simpa using state)]
    exact switch.trans (idle main state)
  · rw [not_or] at state
    exact takeFault_idle _ stopped (by simpa using state.1) (by simpa using state.2)

/-- Settles O35: each path that is found, then the pump by the state in which it is found blocked. -/
theorem dispenseFaultsAreReported : Obligations.DispenseFaultsAreReported := by
  unfold Obligations.DispenseFaultsAreReported
  intro s started
  have stands := fun c p => (takeFault_stand .valve (faultValve c p s)).trans (settle_stand _)
  refine ⟨fun c f plumbed sound time => ?_, fun sound time => ?_, fun c runs time => ?_⟩
  · have found : valveOf c (.feed f) s = some ((s.chan c).valves.get f) := if_pos plumbed
    exact ⟨_, valveFeedbackFault_spec started found sound time,
      (((stands c (.feed f)).channel c).faulted f).2 (faultValve_feed c f s), faultValve_reported c _ started⟩
  · exact ⟨_, valveFeedbackFault_spec started rfl sound time, (stands .main .di).di.2 (faultValve_di .main s),
      faultValve_reported .main _ started⟩
  · have reported : FaultReported .pumpBlocked s (settle (takeFault .pumpBlocked (stopPump c s))) := by
      refine takeFault_reported .pumpBlocked started (by simp) (by simp) (by simp) ?_
      refine ⟨?_, ?_, ?_, ?_, ?_, ?_, ?_, ?_, ?_, ?_, ?_⟩ <;> simp
    refine ⟨_, pumpBlocked_spec started runs time, reported, fun _ _ idle => blockedPump_stops started fun _ _ => idle,
      fun elsewhere => blockedPump_stops started fun main state => ?_⟩
    rcases elsewhere with ⟨aborting, faulted⟩ | additive
    · exact (state.elim aborting faulted).elim
    · exact absurd (main.symm.trans additive) (by decide)

end Sys2Proof.Machine
end

section
/-! The end of a step: what entering ENDING leaves, and the DOSE and ENDPOINT steps (R73 to R75, R82): O42. -/

namespace Sys2Proof.Machine

open Sys2Proof

/-! ### The step at the step index -/

theorem State.termination_of_step {s : State} {st : StepRec} (step : s.stepNow = some st) : s.termination = some st.termination := by
  rw [State.termination, step]
  rfl

/-- The dose target against the dose as it is shown (R52, R73). -/
theorem doseMet_iff {s : State} {st : StepRec} (step : s.stepNow = some st) :
    doseMet s = true ↔ st.doseTarget ≤ min 65535 (s.sdu.dose / 100) := by
  rw [doseMet, step]
  exact decide_eq_true_iff

theorem minTimeMet_iff {s : State} {st : StepRec} (step : s.stepNow = some st) :
    minTimeMet s = true ↔ 100000 * st.minTime ≤ s.seq.elapsed := by
  rw [minTimeMet, step, Nat.mul_comm]
  exact decide_eq_true_iff

/-- A post-rinse of volume 0, or one with a sound DI path, can be run (R47). -/
theorem rinse_runs {s : State} {st : StepRec} (step : s.stepNow = some st)
    (rinse : st.postRinse = 0 ∨ s.sdu.di.state ≠ .faultClosed) : postRinseFault s = false := by
  have volume : s.postRinse = st.postRinse := by rw [State.postRinse, step]; rfl
  rcases rinse with zero | sound
  · simp [postRinseFault, volume, zero]
  · simp [postRinseFault, sound]

/-- Whether a post-rinse can be run turns on the step and on DI being FAULT_CLOSED alone (R47). -/
theorem postRinseFault_congr {s t : State} (copy : t.seq.copy = s.seq.copy) (index : t.seq.index = s.seq.index)
    (di : t.sdu.di.state = .faultClosed ↔ s.sdu.di.state = .faultClosed) : postRinseFault t = postRinseFault s := by
  have volume : t.postRinse = s.postRinse := by simp only [State.postRinse, State.stepNow, copy, index]
  rw [Bool.eq_iff_iff]
  simp [postRinseFault, volume, di]

theorem State.stepNow_congr {s t : State} (copy : t.seq.copy = s.seq.copy) (index : t.seq.index = s.seq.index) :
    t.stepNow = s.stepNow := by
  simp only [State.stepNow, copy, index]

/-! ### Entry to ENDING -/

theorem appendEntry_seq (e : RunEntry) (s : State) :
    (appendEntry e s).seq = { s.seq with record := s.seq.record ++ [e] } := by
  simp [appendEntry]

theorem State.entryNow_eq (s : State) (r : StepResult) : s.entryNow r = stepEntry s r := rfl

/-- A sound channel takes the target it is given (R114, R115). -/
theorem takeTargets_target {s : State} {c : HeadCh} (sound : (s.head c).state ≠ .channelFault) (v : PerHead Nat) (n : Nat) (b : Bool) :
    ((takeTargets v n b s).head c).target = v.get c := by
  have takes : (s.hpc.ch.get c).sound = true := by simpa [HeadChan.sound, State.head] using sound
  unfold takeTargets
  dsimp only
  split
  · next same =>
    simp only [Bool.and_eq_true, decide_eq_true_eq] at same
    obtain ⟨⟨-, same⟩, -⟩ := same
    rw [same, State.targets, PerHead.get_map]
    rfl
  · split
    · simp [State.head, HeadChan.takeNow, takes]
    · simp [State.head, HeadChan.startRamp, takes]

theorem enterEnding_of_rinse {s : State} (rinse : postRinseFault s = false) :
    enterEnding s = clearPersist (stopSymbolizer (liftForEnd (takeHoldLevels (startPostRinse
      (s.setSeq { s.seq with state := .ending, causes := .empty, deferred := .empty, resume := none }))))) := by
  refine if_neg ?_
  have di := (startPostRinse_stand
    (s.setSeq { s.seq with state := .ending, causes := .empty, deferred := .empty, resume := none })).di
  have same : postRinseFault (clearPersist (stopSymbolizer (liftForEnd (takeHoldLevels (startPostRinse
      (s.setSeq { s.seq with state := .ending, causes := .empty, deferred := .empty, resume := none })))))) = postRinseFault s :=
    postRinseFault_congr (by simp) (by simp) (by simpa using di)
  simp [same, rinse]

/-- The end of a step whose post-rinse can be run, carried through (R82). -/
theorem endStep_ends {s : State} (r : StepResult) (rinse : postRinseFault s = false) :
    EndsStep r s (settle (endStep r s)) := by
  have recorded := appendEntry_seq (stepEntry s r) s
  have rinse' : postRinseFault (appendEntry (stepEntry s r) s) = false := by
    rw [postRinseFault_congr (s := s) (by simp) (by simp) (by simp), rinse]
  have ended : endStep r s = enterEnding (appendEntry (stepEntry s r) s) := rfl
  rw [enterEnding_of_rinse rinse'] at ended
  have seq : (endStep r s).seq = { s.seq with
      state := .ending, causes := .empty, deferred := .empty, resume := none, record := s.seq.record ++ [stepEntry s r] } := by
    rw [ended]
    simp [recorded]
  have hpc : (endStep r s).hpc = (takeHoldLevels (startPostRinse ((appendEntry (stepEntry s r) s).setSeq
      { (appendEntry (stepEntry s r) s).seq with state := .ending, causes := .empty, deferred := .empty, resume := none }))).hpc := by
    rw [ended]
    simp
  obtain ⟨seq', hpc', pcc', epm', drv', notices', -⟩ := settle_calm (s := endStep r s) (by simp [seq]) (by simp [seq])
  refine ⟨seq'.trans seq, ?_, by simp, ?_, ?_, fun c sound => ?_, ?_, by simp, ?_⟩
  · rw [notices', ← appendEntry_lnk, ended]
    simp
  · rw [epm', ended]
    simp [stopSymbolizer]
  · rw [pcc', ended]
    simp [liftForEnd, State.armOut]
  · rw [State.head, hpc', hpc]
    have target := takeTargets_target (s := startPostRinse ((appendEntry (stepEntry s r) s).setSeq
      { (appendEntry (stepEntry s r) s).seq with state := .ending, causes := .empty, deferred := .empty, resume := none })) (c := c)
      (by simpa [State.head] using sound) (holdTargets s.img)
    simpa [takeHoldLevels, State.head, State.img] using target _ _
  · rw [drv', ended]
    simp
  · refine ⟨?_, ?_, ?_, ?_, ?_, ?_, ?_, ?_, ?_, ?_, ?_⟩ <;> simp

/-! ### Judging the dose -/

/-- A DOSE step with its dose and its min time ends (R73). -/
theorem checkDose_ends {s : State} {st : StepRec} (running : s.seq.state = .running) (step : s.stepNow = some st)
    (dose : st.termination = .dose) (met : st.doseTarget ≤ min 65535 (s.sdu.dose / 100))
    (time : 100000 * st.minTime ≤ s.seq.elapsed) : checkDose s = endStep .doneDose s := by
  refine if_pos ?_
  simp [running, State.termination_of_step step, dose, (doseMet_iff step).2 met, (minTimeMet_iff step).2 time]

theorem checkDose_stands_short {s : State} {st : StepRec} (step : s.stepNow = some st)
    (short : st.termination ≠ .dose ∨ min 65535 (s.sdu.dose / 100) < st.doseTarget) : checkDose s = s := by
  refine if_neg ?_
  rcases short with other | short
  · simp [State.termination_of_step step, other]
  · have unmet : ¬ doseMet s = true := fun met => absurd ((doseMet_iff step).1 met) (Nat.not_le.2 short)
    simp [unmet]

theorem checkDose_of_rest {s : State} (rest : s.seq.state ≠ .running) : checkDose s = s := if_neg (by simp [rest])

/-! ### The min time -/

theorem minTimeReached_spec {s : State} {st : StepRec} (started : s.started = true) (running : s.seq.state = .running)
    (step : s.stepNow = some st) (first : s.seq.minReached = false) (time : 100000 * st.minTime ≤ s.seq.elapsed) :
    exec .minTimeReached s = .next (settle (checkDose { s with seq := { s.seq with minReached := true } })) := by
  have due : (s.started && minTimeDue s) = true := by simp [started, minTimeDue, running, first, (minTimeMet_iff step).2 time]
  exact congrArg Host.Outcome.next (if_pos due)

/-! ### The limit and the overpolish end -/

theorem stepLimitReached_spec {s : State} {st : StepRec} (started : s.started = true) (running : s.seq.state = .running)
    (step : s.stepNow = some st) (counted : doseWaits s = false) (time : 100000 * st.limit ≤ s.seq.elapsed) :
    exec .stepLimitReached s = .next (settle (reachLimit s)) := by
  have due : (s.started && limitDue s) = true := by
    have reached : tenths st.limit ≤ s.seq.elapsed := (Nat.mul_comm ..).trans_le time
    simp [started, limitDue, running, counted, step, reached]
  exact congrArg Host.Outcome.next (if_pos due)

/-- The limit of a DOSE step waits for the MAIN pulses of its instant while its dose is short (R73). -/
theorem stepLimitReached_waits {s : State} (waits : doseWaits s = true) : exec .stepLimitReached s = .next s := by
  have due : ¬ (s.started && limitDue s) = true := by simp [limitDue, waits]
  exact congrArg Host.Outcome.next (if_neg due)

theorem doseWaits_iff {s : State} {st : StepRec} (step : s.stepNow = some st) : doseWaits s = true ↔
    st.termination = .dose ∧ min 65535 (s.sdu.dose / 100) < st.doseTarget ∧ s.pending.any mainPulse = true := by
  rw [← Nat.not_le, ← doseMet_iff step]
  simp only [doseWaits, State.termination_of_step step, Bool.and_eq_true, Bool.not_eq_true', Bool.not_eq_true, beq_iff_eq,
    Option.some.injEq, and_assoc]

theorem doseLimit_ends {s : State} {st : StepRec} (started : s.started = true) (running : s.seq.state = .running)
    (step : s.stepNow = some st) (dose : st.termination = .dose) (time : 100000 * st.limit ≤ s.seq.elapsed)
    (rinse : postRinseFault s = false) (counted : st.doseTarget ≤ min 65535 (s.sdu.dose / 100) ∨ s.pending.any mainPulse = false) :
    ∃ t, exec .stepLimitReached s = .next t ∧
      EndsStep (if st.doseTarget ≤ min 65535 (s.sdu.dose / 100) then .doneDose else .doseShort) s t := by
  have taken : doseWaits s = false := by
    refine Bool.eq_false_iff.2 fun waits => ?_
    obtain ⟨-, short, pulse⟩ := (doseWaits_iff step).1 waits
    rcases counted with met | none_waits
    · omega
    · exact absurd pulse (by simp [none_waits])
  refine ⟨_, stepLimitReached_spec started running step taken time, ?_⟩
  simp only [reachLimit, State.termination_of_step step, dose, doseMet_iff step]
  exact endStep_ends _ rinse

theorem overpolishEnd_spec {s : State} {e : Nat} (started : s.started = true) (running : s.seq.state = .running)
    (overEnd : s.seq.overEnd = some e) (time : 100000 * e ≤ s.seq.elapsed) :
    exec .overpolishEnd s = .next (settle (endStep .doneEndpoint s)) := by
  have due : (s.started && overpolishDue s) = true := by
    have reached : tenths e ≤ s.seq.elapsed := (Nat.mul_comm ..).trans_le time
    simp [started, overpolishDue, running, overEnd, reached]
  exact congrArg Host.Outcome.next (if_pos due)

theorem endpointLimit_spec {s : State} {st : StepRec} (started : s.started = true) (running : s.seq.state = .running)
    (step : s.stepNow = some st) (endpoint : st.termination = .endpoint) (time : 100000 * st.limit ≤ s.seq.elapsed) :
    exec .stepLimitReached s = .next (settle (if s.seq.endpoint.isSome then endStep .doneEndpoint s else missEndpoint s)) := by
  have taken : doseWaits s = false := Bool.eq_false_iff.2 fun waits => by simp [doseWaits_iff step, endpoint] at waits
  rw [stepLimitReached_spec started running step taken time]
  simp only [reachLimit, State.termination_of_step step, endpoint]

/-! ### An endpoint missed -/

theorem missEndpoint_next {s : State} {st : StepRec} (step : s.stepNow = some st) (miss : st.miss = .next) :
    missEndpoint s = endStep .endpointMissed s := by
  have step' : (appendEntry (s.entryNow .endpointMissed) s).stepNow = some st := (State.stepNow_congr (by simp) (by simp)).trans step
  simp only [missEndpoint, step', Option.map_some, Option.getD_some, miss]
  rfl

theorem missEndpoint_hold {s : State} {st : StepRec} (step : s.stepNow = some st) (miss : st.miss = .hold) :
    missEndpoint s = enterHolding .running (s.seq.causes.add .endpoint)
      ((appendEntry (stepEntry s .endpointMissed) s).setSeq
        { (appendEntry (stepEntry s .endpointMissed) s).seq with disposition := .concluded }) := by
  have step' : (appendEntry (stepEntry s .endpointMissed) s).stepNow = some st := (State.stepNow_congr (by simp) (by simp)).trans step
  have causes : (appendEntry (stepEntry s .endpointMissed) s).seq.causes = s.seq.causes := by simp
  simp only [missEndpoint, State.entryNow_eq, step', Option.map_some, Option.getD_some, miss, causes]

theorem missEndpoint_abort {s : State} {st : StepRec} (step : s.stepNow = some st) (miss : st.miss = .abort) :
    missEndpoint s = enterAborting .aborted (appendEntry (stepEntry s .endpointMissed) s) := by
  have step' : (appendEntry (stepEntry s .endpointMissed) s).stepNow = some st := (State.stepNow_congr (by simp) (by simp)).trans step
  simp only [missEndpoint, State.entryNow_eq, step', Option.map_some, Option.getD_some, miss]

/-- The hold that a missed endpoint causes stays as it is carried through (R75, R77). -/
theorem missEndpoint_holds {s : State} {st : StepRec} (started : s.started = true) (step : s.stepNow = some st) (miss : st.miss = .hold) :
    let t := settle (missEndpoint s)
    t.seq.state = .holding ∧ t.seq.causes.endpoint = true ∧ t.seq.resume = some .running ∧ t.seq.disposition = .concluded ∧
    t.seq.record = s.seq.record ++ [stepEntry s .endpointMissed] ∧ t.seq.elapsed = s.seq.elapsed ∧ t.seq.index = s.seq.index ∧
    t.seq.copy = s.seq.copy ∧ t.sdu.dose = s.sdu.dose ∧ t.drv = s.drv ∧ t.lnk.answers = s.lnk.answers ∧ OutsideStands s t := by
  have held := missEndpoint_hold step miss
  have seq : (missEndpoint s).seq = { s.seq with
      state := .holding, causes := s.seq.causes.add .endpoint, resume := some .running, disposition := .concluded
      record := s.seq.record ++ [stepEntry s .endpointMissed] } := by
    rw [held, enterHolding_seq, State.setSeq_seq, appendEntry_seq]
  have stays : holdStays (missEndpoint s) := .inl (by simp [seq, CauseSet.add, CauseSet.put, CauseSet.notForSlurry])
  have started' : (missEndpoint s).started = true := by simpa [State.started, State.inReset] using started
  obtain ⟨seq', -, -, -, drv', -⟩ := settle_stays started' (by rw [seq]) stays
  rw [seq] at seq'
  dsimp only
  refine ⟨?_, ?_, ?_, ?_, ?_, ?_, ?_, ?_, by simp, ?_, by simp, ?_⟩
  case refine_9 =>
    rw [drv', held]
    simp
  case refine_10 => refine ⟨?_, ?_, ?_, ?_, ?_, ?_, ?_, ?_, ?_, ?_, ?_⟩ <;> simp
  case refine_2 =>
    rw [seq']
    rfl
  all_goals rw [seq']

/-- A missed endpoint that aborts leaves its own entry, and no CUT one behind it (R75, R85). -/
theorem missEndpoint_aborts {s : State} {st : StepRec} (step : s.stepNow = some st) (miss : st.miss = .abort) :
    let t := settle (missEndpoint s)
    t.seq.state = .aborting ∧ t.seq.result = .aborted ∧ t.seq.record = s.seq.record ++ [stepEntry s .endpointMissed] ∧
    t.seq.causes = CauseSet.empty ∧ t.seq.deferred = CauseSet.empty ∧ t.seq.resume = none ∧ t.seq.abortTimer = some 0 ∧
    t.seq.first = s.seq.first ∧ (∀ d : Drive, (t.drive d).setpoint = 0) ∧ t.sdu.dose = s.sdu.dose ∧
    t.lnk.answers = s.lnk.answers ∧ OutsideStands s t := by
  have aborted := missEndpoint_abort step miss
  have recorded := appendEntry_seq (stepEntry s .endpointMissed) s
  have decided : cutOf (appendEntry (stepEntry s .endpointMissed) s) = [] := by
    refine if_neg fun h => ?_
    obtain ⟨-, undecided⟩ := h
    exact undecided (stepEntry s .endpointMissed) (by simp [recorded]) (by simp [stepEntry])
  obtain ⟨record, -⟩ := enterAborting_cuts .aborted (appendEntry (stepEntry s .endpointMissed) s)
  rw [decided, List.append_nil, recorded, ← aborted] at record
  have entered := enterAborting_seq .aborted (appendEntry (stepEntry s .endpointMissed) s)
  rw [← aborted, record, recorded] at entered
  obtain ⟨seq', -, -, -, drv', -⟩ := settle_calm (s := missEndpoint s) (by simp [entered]) (by simp [entered])
  dsimp only
  rw [seq', entered]
  refine ⟨rfl, rfl, rfl, rfl, rfl, rfl, rfl, rfl, fun d => ?_, by simp, by simp, ?_⟩
  · rw [State.drive, drv', aborted]
    exact enterAborting_setpoint ..
  · refine ⟨?_, ?_, ?_, ?_, ?_, ?_, ?_, ?_, ?_, ?_, ?_⟩ <;> simp

/-- Settles O42: the min time and the limit of a DOSE step, then the overpolish end and the limit of an ENDPOINT step. -/
theorem doseAndEndpointStepsEnd : Obligations.DoseAndEndpointStepsEnd := by
  unfold Obligations.DoseAndEndpointStepsEnd
  refine ⟨fun s st started running step => ⟨fun first time => ?_, fun dose short waits => ?_, fun dose time rinse counted => ?_⟩,
    fun s st started running step endpoint => ⟨fun e overEnd time rinse => ?_, fun time => ?_⟩⟩
  · have reached := minTimeReached_spec started running step first time
    refine ⟨fun short => ?_, fun dose met rinse => ?_⟩
    · rw [reached, checkDose_stands_short (s := { s with seq := { s.seq with minReached := true } }) step short]
    · rw [checkDose_ends (s := { s with seq := { s.seq with minReached := true } }) running step dose met time] at reached
      exact ⟨_, reached, endStep_ends .doneDose
        (rinse_runs (s := { s with seq := { s.seq with minReached := true } }) step rinse)⟩
  · exact stepLimitReached_waits ((doseWaits_iff step).2 ⟨dose, short, waits⟩)
  · exact doseLimit_ends started running step dose time (rinse_runs step rinse) counted
  · exact ⟨_, overpolishEnd_spec started running overEnd time, endStep_ends .doneEndpoint (rinse_runs step rinse)⟩
  · have reached := endpointLimit_spec started running step endpoint time
    refine ⟨fun found rinse => ?_, fun missed => ?_⟩
    · rw [if_pos found] at reached
      exact ⟨_, reached, endStep_ends .doneEndpoint (rinse_runs step rinse)⟩
    · rw [if_neg (by simp [missed])] at reached
      refine ⟨fun next rinse => ?_, fun hold => ⟨_, reached, missEndpoint_holds started step hold⟩,
        fun abort => ⟨_, reached, missEndpoint_aborts step abort⟩⟩
      rw [missEndpoint_next step next] at reached
      exact ⟨_, reached, endStep_ends .endpointMissed (rinse_runs step rinse)⟩

end Sys2Proof.Machine
end

section
/-! A stroke and the window it closes (R53 to R56), and FLOW_FALLBACK as the step's flag (R89): O38. -/

namespace Sys2Proof.Machine

open Sys2Proof

/-! ### The FLOW_FALLBACK flag of the step (R89) -/

/-- In RUNNING the flag joins a channel in fallback and the mismatch event. -/
theorem markFlags_flowFallback {s : State} (running : s.seq.state = .running) :
    (markFlags s).seq.flags.flowFallback = (s.seq.flags.flowFallback ||
      ((s.chan .main).source == .fallback || (s.chan .additive).source == .fallback || s.sdu.mismatch)) := by
  simp [markFlags, running]

theorem markFlags_keeps_flowFallback {s : State} (flagged : s.seq.flags.flowFallback = true) :
    (markFlags s).seq.flags.flowFallback = true := by
  by_cases running : s.seq.state = .running
  · rw [markFlags_flowFallback running, flagged, Bool.true_or]
  · rwa [markFlags_of_ne_running running]

theorem markFlags_clamped_condLost (s : State) : (markFlags s).seq.flags.clamped = s.seq.flags.clamped ∧
    (markFlags s).seq.flags.condLost = s.seq.flags.condLost := by
  unfold markFlags
  split <;> exact ⟨rfl, rfl⟩

theorem carry_keeps_flowFallback {s : State} (flagged : s.seq.flags.flowFallback = true) :
    (carry s).seq.flags.flowFallback = true :=
  markFlags_keeps_flowFallback (by simpa using flagged)

theorem armFault_flowFallback (c : ArmCause) (s : State) : (armFault c s).seq.flags.flowFallback = s.seq.flags.flowFallback := by
  simp only [armFault]
  split
  · simp [flagCondLost]
  · split <;> simp [flagCondLost]
  · split <;> simp
  all_goals simp

theorem returnSweep_flowFallback (s : State) : (returnSweep s).seq.flags.flowFallback = s.seq.flags.flowFallback := by
  unfold returnSweep
  split
  · rfl
  · split
    · rfl
    · split
      · rfl
      · exact armFault_flowFallback ..

theorem takeStepTargets_flowFallback (s : State) : (takeStepTargets s).seq.flags.flowFallback = s.seq.flags.flowFallback := by
  have reported : ∀ u : State, (reportClamped u).seq.flags.flowFallback = u.seq.flags.flowFallback := fun u => by
    unfold reportClamped
    split <;> rfl
  rw [takeStepTargets, reported]
  split <;> simp

theorem leaveHolding_flowFallback (s : State) : (leaveHolding s).seq.flags.flowFallback = s.seq.flags.flowFallback := by
  have returned : (returnToRunning s).seq.flags.flowFallback = s.seq.flags.flowFallback := by
    unfold returnToRunning
    rw [returnSweep_flowFallback]
    simp [takeStepTargets_flowFallback]
  unfold leaveHolding
  split
  · split
    · simp
    · split
      · simp
      · exact returned
  · split <;> simp

theorem takeReports_flowFallback (s : State) : (takeReports s).seq.flags.flowFallback = s.seq.flags.flowFallback := by
  unfold takeReports
  split
  · split <;> simp
  · dsimp only
    split
    · rfl
    · split
      · rw [leaveHolding_flowFallback]
        rfl
      · rfl
  all_goals rfl

/-- The flag stands as a change is carried through. -/
theorem settle_keeps_flowFallback {s : State} (flagged : s.seq.flags.flowFallback = true) :
    (settle s).seq.flags.flowFallback = true := by
  have round : ∀ {u : State}, u.seq.flags.flowFallback = true → (takeReports (carry u)).seq.flags.flowFallback = true := fun h =>
    (takeReports_flowFallback _).trans (carry_keeps_flowFallback h)
  unfold settle
  split
  · simpa [judgePersist, apply_ite State.seq] using carry_keeps_flowFallback (round (round flagged))
  · exact flagged

/-! ### A window closed and judged (R54 to R56) -/

theorem windowAgrees_iff (vf vs tolerance : Nat) :
    windowAgrees vf vs tolerance = true ↔ (vf - vs + (vs - vf)) * 100 ≤ vs * tolerance := decide_eq_true_iff

theorem windowDisagrees_iff (vf vs tolerance : Nat) :
    windowAgrees vf vs tolerance = false ↔ vs * tolerance < (vf - vs + (vs - vf)) * 100 := by
  rw [← Bool.not_eq_true, windowAgrees_iff, Nat.not_le]

/-- The channel with its window closed and not yet judged: the counts are 0 for the next (R54, log entry 12). -/
def Dispense.closed (d : Dispense) (pulse : Nat) : Dispense :=
  { d with strokes := 0, pulses := 0, vf := d.pulses * pulse, vs := 200 * d.calibrated }

/-- In FLOWMETER an agreeing window recalibrates the stroke within its bounds (R54). -/
theorem Dispense.closeWindow_recalibrates {d : Dispense} {pulse tolerance : Nat} (source : d.source = .flowmeter)
    (agrees : windowAgrees (d.pulses * pulse) (200 * d.calibrated) tolerance = true) : d.closeWindow pulse tolerance =
      { d.closed pulse with calibrated := max 10 (min 5000 (d.pulses * pulse / 200)), disagreeing := 0 } := by
  simp only [Dispense.closeWindow, source, agrees, if_true, boundStroke, Dispense.closed]

/-- In FLOWMETER a disagreeing window is counted (R55). -/
theorem Dispense.closeWindow_disagrees {d : Dispense} {pulse tolerance : Nat} (source : d.source = .flowmeter)
    (disagrees : windowAgrees (d.pulses * pulse) (200 * d.calibrated) tolerance = false) :
    d.closeWindow pulse tolerance = { d.closed pulse with disagreeing := min 3 (d.disagreeing + 1) } := by
  simp only [Dispense.closeWindow, source, disagrees, Bool.false_eq_true, if_false, Dispense.closed]

/-- In FLOW_FALLBACK the agreeing windows in a row are counted (R56). -/
theorem Dispense.closeWindow_fallback {d : Dispense} {pulse tolerance : Nat} (source : d.source = .fallback) :
    d.closeWindow pulse tolerance = { d.closed pulse with
      agreeing := if windowAgrees (d.pulses * pulse) (200 * d.calibrated) tolerance = true then min 3 (d.agreeing + 1) else 0 } := by
  simp only [Dispense.closeWindow, source, Dispense.closed]
  split <;> rfl

/-- Whatever the judging finds, a closed window leaves its volumes, and counts of 0 for the next (R54). -/
theorem Dispense.closeWindow_counts (d : Dispense) (pulse tolerance : Nat) :
    (d.closeWindow pulse tolerance).strokes = 0 ∧ (d.closeWindow pulse tolerance).pulses = 0 ∧
    (d.closeWindow pulse tolerance).vf = d.pulses * pulse ∧ (d.closeWindow pulse tolerance).vs = 200 * d.calibrated := by
  cases source : d.source with
  | flowmeter =>
    cases agrees : windowAgrees (d.pulses * pulse) (200 * d.calibrated) tolerance with
    | true =>
      rw [Dispense.closeWindow_recalibrates source agrees]
      exact ⟨rfl, rfl, rfl, rfl⟩
    | false =>
      rw [Dispense.closeWindow_disagrees source agrees]
      exact ⟨rfl, rfl, rfl, rfl⟩
  | fallback =>
    rw [Dispense.closeWindow_fallback source]
    exact ⟨rfl, rfl, rfl, rfl⟩

theorem closeWindow_chan (c : Channel) (s : State) :
    (closeWindow c s).chan c = (s.chan c).closeWindow (s.img.pulseVolume.get c) s.img.tolerance :=
  State.chan_setChan ..

theorem placeNotice_chan (kind : Nat) (body : List Byte) (s : State) (c : Channel) : (placeNotice kind body s).chan c = s.chan c := by
  simp [State.chan]

theorem enterFallback_chan (c : Channel) (s : State) :
    (enterFallback c s).chan c = { s.chan c with source := .fallback, disagreeing := 0, agreeing := 0 } := by
  rw [enterFallback, placeNotice_chan]
  exact State.chan_setChan ..

theorem restoreFlow_chan (c : Channel) (s : State) :
    (restoreFlow c s).chan c = { s.chan c with source := .flowmeter, agreeing := 0 } := by
  rw [restoreFlow, placeNotice_chan]
  exact State.chan_setChan ..

theorem enterFallback_mismatch (c : Channel) (s : State) : (enterFallback c s).sdu.mismatch = true := by
  simp [enterFallback]

/-! ### The window that a stroke closes -/

/-- A window due closes, and with neither end of FLOWMETER nor of FLOW_FALLBACK reached that is all. -/
theorem settleWindow_closes {c : Channel} {s : State} (due : windowDue c s = true) (stays : fallbackDue c (closeWindow c s) = false)
    (stays' : restoreDue c (closeWindow c s) = false) : settleWindow c s = closeWindow c s := by
  simp only [settleWindow, due, whenDue_true, stays, whenDue_false, stays']

/-- The third disagreeing window in a row enters FLOW_FALLBACK (R55). -/
theorem settleWindow_falls {c : Channel} {s : State} (due : windowDue c s = true) (falls : fallbackDue c (closeWindow c s) = true) :
    settleWindow c s = enterFallback c (closeWindow c s) := by
  have settled : restoreDue c (enterFallback c (closeWindow c s)) = false := by simp [restoreDue, enterFallback_chan]
  simp only [settleWindow, due, whenDue_true, falls, settled, whenDue_false]

/-- The third agreeing window in a row returns to FLOWMETER (R56). -/
theorem settleWindow_returns {c : Channel} {s : State} (due : windowDue c s = true) (returns : restoreDue c (closeWindow c s) = true) :
    settleWindow c s = restoreFlow c (closeWindow c s) := by
  have stays : fallbackDue c (closeWindow c s) = false := by
    simp only [restoreDue, Bool.and_eq_true, beq_iff_eq] at returns
    obtain ⟨source, -⟩ := returns
    simp [fallbackDue, source]
  simp only [settleWindow, due, whenDue_true, stays, whenDue_false, returns]

/-- Whatever the judging brings, a window due leaves its volumes and counts of 0 (R54). -/
theorem settleWindow_counts {c : Channel} {s : State} (due : windowDue c s = true) :
    ((settleWindow c s).chan c).strokes = 0 ∧ ((settleWindow c s).chan c).pulses = 0 ∧
    ((settleWindow c s).chan c).vf = (s.chan c).pulses * s.img.pulseVolume.get c ∧
    ((settleWindow c s).chan c).vs = 200 * (s.chan c).calibrated := by
  have closed := Dispense.closeWindow_counts (s.chan c) (s.img.pulseVolume.get c) s.img.tolerance
  rw [← closeWindow_chan] at closed
  cases falls : fallbackDue c (closeWindow c s) with
  | true =>
    rw [settleWindow_falls due falls, enterFallback_chan]
    exact closed
  | false =>
    cases returns : restoreDue c (closeWindow c s) with
    | true =>
      rw [settleWindow_returns due returns, restoreFlow_chan]
      exact closed
    | false => rwa [settleWindow_closes due falls returns]

/-- In FLOW_FALLBACK fewer than two agreeing windows return to nothing, whether a window closes or not (R56). -/
theorem settleWindow_stays_fallback {c : Channel} {s : State} (source : (s.chan c).source = .fallback)
    (agreeing : (s.chan c).agreeing < 2) : ((settleWindow c s).chan c).source = .fallback := by
  have stays : ∀ u : State, (u.chan c).source = .fallback → (u.chan c).agreeing < 3 →
      fallbackDue c u = false ∧ restoreDue c u = false := fun u h h' => by simp [fallbackDue, restoreDue, h, h']
  cases due : windowDue c s with
  | true =>
    have closed := closeWindow_chan c s
    rw [Dispense.closeWindow_fallback source] at closed
    have few : ((closeWindow c s).chan c).agreeing < 3 := by
      rw [closed]
      dsimp only
      split <;> omega
    have source' : ((closeWindow c s).chan c).source = .fallback := by rw [closed]; exact source
    obtain ⟨fallen, returned⟩ := stays _ source' few
    rwa [settleWindow_closes due fallen returned]
  | false =>
    obtain ⟨fallen, returned⟩ := stays s source (by omega)
    simpa only [settleWindow, due, whenDue_false, fallen, returned] using source

/-- What an event leaves unchanged, an event that may not be due leaves unchanged. -/
theorem whenDue_unchanged {α : Type} (view : State → α) {b : Bool} {s : State} {f : State → State} (h : view (f s) = view s) :
    view (whenDue b s f) = view s := by
  cases b
  · rfl
  · exact h

/-- Judging a window of one channel leaves the other as it was. -/
theorem settleWindow_other {c x : Channel} (s : State) (other : c ≠ x) : (settleWindow c s).chan x = s.chan x := by
  have closed : ∀ u, (closeWindow c u).chan x = u.chan x := fun u => State.chan_setChan_of_ne _ _ other
  have fallen : ∀ u, (enterFallback c u).chan x = u.chan x := fun u => by
    rw [enterFallback, placeNotice_chan]
    exact State.chan_setChan_of_ne _ _ other
  have returned : ∀ u, (restoreFlow c u).chan x = u.chan x := fun u => by
    rw [restoreFlow, placeNotice_chan]
    exact State.chan_setChan_of_ne _ _ other
  rw [settleWindow, whenDue_unchanged (·.chan x) (returned _), whenDue_unchanged (·.chan x) (fallen _),
    whenDue_unchanged (·.chan x) (closed _)]

/-- The mismatch event stays through the judging of a window (R55). -/
theorem settleWindow_mismatch {c : Channel} {s : State} (mismatch : s.sdu.mismatch = true) : (settleWindow c s).sdu.mismatch = true := by
  have due : ∀ (b : Bool) (u : State) (f : State → State), u.sdu.mismatch = true → (f u).sdu.mismatch = true →
      (whenDue b u f).sdu.mismatch = true := by
    intro b u f h h'
    cases b
    · exact h
    · exact h'
  have closed := due (windowDue c s) s (closeWindow c) mismatch (by simpa using mismatch)
  have fallen := due (fallbackDue c (whenDue (windowDue c s) s (closeWindow c))) _ (enterFallback c) closed (enterFallback_mismatch ..)
  exact due _ _ (restoreFlow c) fallen (by simpa using fallen)

/-! ### A stroke of a running pump -/

/-- The stroke counted in the window and in the volumes, before a full window is judged. -/
def strokeCounted (c : Channel) (s : State) : State :=
  if (s.chan c).strokesCount then countVolume c (s.chan c).calibrated (s.setChan c (s.chan c).countStroke)
  else s.setChan c (s.chan c).countStroke

theorem takeStroke_of_running {c : Channel} {s : State} (runs : (s.chan c).rate ≠ 0) :
    takeStroke c s = settleWindow c (strokeCounted c s) := if_neg runs

theorem takeStroke_of_stopped {c : Channel} {s : State} (stopped : (s.chan c).rate = 0) : takeStroke c s = s := if_pos stopped

theorem takePulse_of_stopped {c : Channel} {s : State} (stopped : (s.chan c).rate = 0) : takePulse c s = s := if_pos stopped

/-- A counted volume moves of its own channel the switch alone, and of another channel nothing (R44, R47). -/
theorem countVolume_chan (c : Channel) (v : Nat) (s : State) (x : Channel) :
    ∃ w, (countVolume c v s).chan x = { s.chan x with switch := w } := by
  cases c
  · cases x <;> exact ⟨_, rfl⟩
  · exact ⟨_, rfl⟩

theorem countVolume_other {c x : Channel} (v : Nat) (s : State) (other : c ≠ x) : (countVolume c v s).chan x = s.chan x := by
  cases c
  · exact State.chan_setChan_of_ne s _ other
  · rfl

theorem strokeCounted_chan (c : Channel) (s : State) :
    ∃ w, (strokeCounted c s).chan c = { (s.chan c).countStroke with switch := w } := by
  unfold strokeCounted
  split
  · obtain ⟨w, counted⟩ := countVolume_chan c (s.chan c).calibrated (s.setChan c (s.chan c).countStroke) c
    rw [State.chan_setChan] at counted
    exact ⟨w, counted⟩
  · exact ⟨_, State.chan_setChan ..⟩

theorem strokeCounted_other {c x : Channel} (s : State) (other : c ≠ x) : (strokeCounted c s).chan x = s.chan x := by
  unfold strokeCounted
  split
  · rw [countVolume_other _ _ other, State.chan_setChan_of_ne _ _ other]
  · exact State.chan_setChan_of_ne _ _ other

@[simp] theorem strokeCounted_img (c : Channel) (s : State) : (strokeCounted c s).img = s.img := by
  unfold strokeCounted
  split <;> simp [State.img]

theorem strokeCounted_mismatch (c : Channel) (s : State) : (strokeCounted c s).sdu.mismatch = s.sdu.mismatch := by
  unfold strokeCounted
  split <;> simp

/-! ### The stroke that closes its window -/

/-- A stroke of the warm pump that is the 200th of its open window (R54). -/
structure ClosesWindow (c : Channel) (s : State) : Prop where
  runs : (s.chan c).rate ≠ 0
  warm : (s.chan c).warm = true
  windowOpen : (s.chan c).windowOpen = true
  last : 199 ≤ (s.chan c).strokes

theorem ClosesWindow.counted {c : Channel} {s : State} (h : ClosesWindow c s) : ∃ w,
    (strokeCounted c s).chan c = { s.chan c with strokes := (s.chan c).strokes + 1, switch := w } := by
  obtain ⟨w, counted⟩ := strokeCounted_chan c s
  refine ⟨w, ?_⟩
  rw [counted, Dispense.countStroke, if_pos h.warm, if_pos h.windowOpen]

theorem ClosesWindow.due {c : Channel} {s : State} (h : ClosesWindow c s) : windowDue c (strokeCounted c s) = true := by
  obtain ⟨w, counted⟩ := h.counted
  simp [windowDue, counted, h.windowOpen, h.last]

theorem ClosesWindow.counts {c : Channel} {s : State} (h : ClosesWindow c s) :
    ((takeStroke c s).chan c).strokes = 0 ∧ ((takeStroke c s).chan c).pulses = 0 ∧
    ((takeStroke c s).chan c).vf = (s.chan c).pulses * s.img.pulseVolume.get c ∧
    ((takeStroke c s).chan c).vs = 200 * (s.chan c).calibrated := by
  obtain ⟨w, counted⟩ := h.counted
  have counts := settleWindow_counts h.due
  rwa [counted, strokeCounted_img, ← takeStroke_of_running h.runs] at counts

/-- The channel with the 200th stroke's window closed, before a fallback or a return is entered. -/
theorem ClosesWindow.closed {c : Channel} {s : State} (h : ClosesWindow c s) :
    ∃ d : Dispense, (closeWindow c (strokeCounted c s)).chan c = d.closeWindow (s.img.pulseVolume.get c) s.img.tolerance ∧
      d.source = (s.chan c).source ∧ d.pulses = (s.chan c).pulses ∧ d.calibrated = (s.chan c).calibrated ∧
      d.disagreeing = (s.chan c).disagreeing ∧ d.agreeing = (s.chan c).agreeing := by
  obtain ⟨w, counted⟩ := h.counted
  have closed := closeWindow_chan c (strokeCounted c s)
  rw [counted, strokeCounted_img] at closed
  exact ⟨_, closed, rfl, rfl, rfl, rfl, rfl⟩

theorem ClosesWindow.recalibrates {c : Channel} {s : State} (h : ClosesWindow c s) (source : (s.chan c).source = .flowmeter)
    (agrees : windowAgrees ((s.chan c).pulses * s.img.pulseVolume.get c) (200 * (s.chan c).calibrated) s.img.tolerance = true) :
    ((takeStroke c s).chan c).calibrated = max 10 (min 5000 ((s.chan c).pulses * s.img.pulseVolume.get c / 200)) ∧
    ((takeStroke c s).chan c).source = .flowmeter ∧ ((takeStroke c s).chan c).disagreeing = 0 := by
  obtain ⟨d, closed, source', pulses, calibrated, -, -⟩ := h.closed
  rw [← pulses, ← calibrated] at agrees
  rw [Dispense.closeWindow_recalibrates (source'.trans source) agrees] at closed
  have stays : fallbackDue c (closeWindow c (strokeCounted c s)) = false := by simp [fallbackDue, closed]
  have stays' : restoreDue c (closeWindow c (strokeCounted c s)) = false := by
    simp [restoreDue, closed, Dispense.closed, source', source]
  rw [takeStroke_of_running h.runs, settleWindow_closes h.due stays stays', closed, ← pulses]
  exact ⟨rfl, source'.trans source, rfl⟩

theorem ClosesWindow.disagrees {c : Channel} {s : State} (h : ClosesWindow c s) (source : (s.chan c).source = .flowmeter)
    (disagrees : windowAgrees ((s.chan c).pulses * s.img.pulseVolume.get c) (200 * (s.chan c).calibrated) s.img.tolerance = false)
    (few : (s.chan c).disagreeing < 2) :
    ((takeStroke c s).chan c).calibrated = (s.chan c).calibrated ∧ ((takeStroke c s).chan c).source = .flowmeter ∧
    ((takeStroke c s).chan c).disagreeing = (s.chan c).disagreeing + 1 := by
  obtain ⟨d, closed, source', pulses, calibrated, disagreeing, -⟩ := h.closed
  rw [← pulses, ← calibrated] at disagrees
  rw [Dispense.closeWindow_disagrees (source'.trans source) disagrees, disagreeing, Nat.min_eq_right (by omega)] at closed
  have few' : ¬ 2 ≤ (s.chan c).disagreeing := by omega
  have stays : fallbackDue c (closeWindow c (strokeCounted c s)) = false := by simp [fallbackDue, closed, few']
  have stays' : restoreDue c (closeWindow c (strokeCounted c s)) = false := by
    simp [restoreDue, closed, Dispense.closed, source', source]
  rw [takeStroke_of_running h.runs, settleWindow_closes h.due stays stays', closed]
  exact ⟨calibrated, source'.trans source, rfl⟩

/-- The 200th stroke of the third disagreeing window in a row enters FLOW_FALLBACK itself (R55). -/
theorem ClosesWindow.falls {c : Channel} {s : State} (h : ClosesWindow c s) (source : (s.chan c).source = .flowmeter)
    (disagrees : windowAgrees ((s.chan c).pulses * s.img.pulseVolume.get c) (200 * (s.chan c).calibrated) s.img.tolerance = false)
    (third : 2 ≤ (s.chan c).disagreeing) :
    ((takeStroke c s).chan c).calibrated = (s.chan c).calibrated ∧ ((takeStroke c s).chan c).source = .fallback ∧
    (takeStroke c s).sdu.mismatch = true := by
  obtain ⟨d, closed, source', pulses, calibrated, disagreeing, -⟩ := h.closed
  rw [← pulses, ← calibrated] at disagrees
  rw [Dispense.closeWindow_disagrees (source'.trans source) disagrees, disagreeing, Nat.min_eq_left (by omega)] at closed
  have falls : fallbackDue c (closeWindow c (strokeCounted c s)) = true := by
    simp [fallbackDue, closed, Dispense.closed, source', source]
  rw [takeStroke_of_running h.runs, settleWindow_falls h.due falls, enterFallback_chan, closed]
  exact ⟨calibrated, rfl, enterFallback_mismatch ..⟩

/-- The 200th stroke of the third agreeing window in a row returns to FLOWMETER itself (R56). -/
theorem ClosesWindow.returns {c : Channel} {s : State} (h : ClosesWindow c s) (source : (s.chan c).source = .fallback)
    (agrees : windowAgrees ((s.chan c).pulses * s.img.pulseVolume.get c) (200 * (s.chan c).calibrated) s.img.tolerance = true)
    (third : 2 ≤ (s.chan c).agreeing) :
    ((takeStroke c s).chan c).calibrated = (s.chan c).calibrated ∧ ((takeStroke c s).chan c).source = .flowmeter := by
  obtain ⟨d, closed, source', pulses, calibrated, -, agreeing⟩ := h.closed
  rw [← pulses, ← calibrated] at agrees
  rw [Dispense.closeWindow_fallback (source'.trans source), if_pos agrees, agreeing, Nat.min_eq_left (by omega)] at closed
  have returns : restoreDue c (closeWindow c (strokeCounted c s)) = true := by
    simp [restoreDue, closed, Dispense.closed, source', source]
  rw [takeStroke_of_running h.runs, settleWindow_returns h.due returns, restoreFlow_chan, closed]
  exact ⟨calibrated, rfl⟩

/-! ### The commands of the cross-check -/

/-- A running pump is driven at rate × 1000 / calibrated strokes a minute (R51). -/
theorem Dispense.strokeRate_mul_calibrated {d : Dispense} (calibrated : 0 < d.calibrated) :
    d.strokeRate * (d.calibrated : Rat) = 1000 * (d.rate : Rat) := by
  have positive : (d.calibrated : Rat) ≠ 0 := by exact_mod_cast calibrated.ne'
  rw [Dispense.strokeRate, div_mul_cancel₀ _ positive]
  push_cast
  ring

theorem crossCheckWindow_spec {s : State} {c : Channel} (started : s.started = true) (windowOpen : (s.chan c).windowOpen = true)
    (full : 200 ≤ (s.chan c).strokes) : exec (.crossCheckWindow c) s = .next (closeWindow c s) := by
  have due : (s.started && windowDue c s) = true := by simp [started, windowDue, windowOpen, full]
  exact congrArg Host.Outcome.next (if_pos due)

theorem flowMismatch_spec {s : State} {c : Channel} (started : s.started = true) (source : (s.chan c).source = .flowmeter)
    (third : 3 ≤ (s.chan c).disagreeing) : exec (.flowMismatch c) s = .next (settle (enterFallback c s)) := by
  have due : (s.started && fallbackDue c s) = true := by simp [started, fallbackDue, source, third]
  exact congrArg Host.Outcome.next (if_pos due)

theorem flowRestored_spec {s : State} {c : Channel} (started : s.started = true) (source : (s.chan c).source = .fallback)
    (third : 3 ≤ (s.chan c).agreeing) : exec (.flowRestored c) s = .next (settle (restoreFlow c s)) := by
  have due : (s.started && restoreDue c s) = true := by simp [started, restoreDue, source, third]
  exact congrArg Host.Outcome.next (if_pos due)

theorem strokePulse_spec {s : State} (c : Channel) (started : s.started = true) :
    exec (.strokePulse c) s = .next (settle (checkDose (markFlags (takeStroke c s)))) :=
  congrArg Host.Outcome.next (if_pos started)

theorem flowmeterPulse_spec {s : State} (c : Channel) (started : s.started = true) :
    exec (.flowmeterPulse c) s = .next (settle (checkDose (takePulse c s))) :=
  congrArg Host.Outcome.next (if_pos started)

/-! ### A stroke carried through -/

/-- Outside SDU and the notices a stroke changes nothing. -/
theorem takeStroke_frame (c : Channel) (s : State) : takeStroke c s = { s with sdu := (takeStroke c s).sdu, lnk := (takeStroke c s).lnk } := by
  obtain ⟨-, -, -, frame⟩ := takeStroke_joins c s
  exact frame

theorem takePulse_frame (c : Channel) (s : State) : takePulse c s = { s with sdu := (takePulse c s).sdu, lnk := (takePulse c s).lnk } := by
  obtain ⟨-, -, -, frame⟩ := takePulse_joins c s
  exact frame

theorem takeStroke_seq (c : Channel) (s : State) : (takeStroke c s).seq = s.seq := by rw [takeStroke_frame]

theorem takePulse_seq (c : Channel) (s : State) : (takePulse c s).seq = s.seq := by rw [takePulse_frame]

/-- What a stroke leaves of its channel's judging stands as the stroke is carried through. -/
theorem strokePulse_stands (c : Channel) (s : State) :
    PathsStand (takeStroke c s) (settle (checkDose (markFlags (takeStroke c s)))) :=
  (PathsStand.of_frame (by simp)).trans ((checkDose_stand _).trans (settle_stand _))

/-- A stroke that leaves its channel in fallback marks the step that is RUNNING (R89). -/
theorem strokePulse_flags {s : State} {c : Channel} (running : s.seq.state = .running)
    (fallback : ((takeStroke c s).chan c).source = .fallback) :
    (settle (checkDose (markFlags (takeStroke c s)))).seq.flags.flowFallback = true := by
  have running' : (takeStroke c s).seq.state = .running := by rw [takeStroke_seq, running]
  refine settle_keeps_flowFallback ?_
  have flagged : (markFlags (takeStroke c s)).seq.flags.flowFallback = true := by
    rw [markFlags_flowFallback running']
    cases c <;> simp [fallback]
  simpa using flagged

/-- Settles O38: the drive of a pump, the three commands of the cross-check, and the 200th stroke, which does their work itself. -/
theorem crossCheckJudgesTheWindow : Obligations.CrossCheckJudgesTheWindow := by
  unfold Obligations.CrossCheckJudgesTheWindow
  refine ⟨fun d => Dispense.strokeRate_mul_calibrated, fun s c started => ?_⟩
  dsimp only
  simp only [← windowAgrees_iff, ← windowDisagrees_iff]
  refine ⟨fun windowOpen full => ?_, fun source third => flowMismatch_spec started source third,
    fun source third => flowRestored_spec started source third, fun runs warm windowOpen last => ?_⟩
  · have closed := crossCheckWindow_spec started windowOpen full
    refine ⟨fun source agrees => ?_, fun source disagrees => ?_, fun source => ?_⟩
    · rw [closed, closeWindow, Dispense.closeWindow_recalibrates source agrees]
      rfl
    · rw [closed, closeWindow, Dispense.closeWindow_disagrees source disagrees]
      rfl
    · rw [closed, closeWindow, Dispense.closeWindow_fallback source]
      rfl
  · have h : ClosesWindow c s := ⟨runs.ne', warm, windowOpen, last⟩
    obtain ⟨⟨vf, vs⟩, ⟨calibrated, source', disagreeing, -⟩, strokes, pulses, -⟩ := (strokePulse_stands c s).channel c
    obtain ⟨strokes0, pulses0, vf0, vs0⟩ := h.counts
    have frame := takeStroke_frame c s
    refine ⟨_, strokePulse_spec c started, strokes.elim (·.trans strokes0) id, pulses.elim (·.trans pulses0) id, vf.trans vf0, vs.trans vs0,
      fun source agrees => ?_, fun source disagrees few => ?_, fun source disagrees third => ?_, fun source agrees third => ?_, ?_⟩
    · rw [calibrated, source', disagreeing]
      exact h.recalibrates source agrees
    · rw [calibrated, source', disagreeing]
      exact h.disagrees source disagrees few
    · obtain ⟨unchanged, fallen, mismatch⟩ := h.falls source disagrees third
      exact ⟨calibrated.trans unchanged, source'.trans fallen, by simpa using mismatch, fun running => strokePulse_flags running fallen⟩
    · rw [calibrated, source']
      exact h.returns source agrees third
    · refine ⟨?_, ?_, ?_, ?_, ?_, ?_⟩ <;> rw [frame] <;> simp

end Sys2Proof.Machine
end

section
/-! Strokes, pulses, the volumes they join, and the dose that ends a step (R51 to R53, R73): O37. -/

namespace Sys2Proof.Machine

open Sys2Proof

/-! ### The warm-up and a stopped pump -/

theorem warmUpEnd_spec {s : State} {c : Channel} (started : s.started = true) (runs : 0 < (s.chan c).rate)
    (cold : (s.chan c).warm = false) (time : 2000000 ≤ (s.chan c).warmTimer) :
    exec (.warmUpEnd c) s = .next (s.setChan c { s.chan c with warm := true }) := by
  have reached : warmUpTime ≤ (s.chan c).warmTimer := time
  have due : (s.started && warmDue c s) = true := by simp [started, warmDue, runs, cold, reached]
  exact congrArg Host.Outcome.next (if_pos due)

/-- Outside RUNNING a stroke marks nothing and ends no step. -/
theorem strokePulse_of_rest {s : State} (c : Channel) (started : s.started = true) (rest : s.seq.state ≠ .running) :
    exec (.strokePulse c) s = .next (settle (takeStroke c s)) := by
  have rest' : (takeStroke c s).seq.state ≠ .running := by rwa [takeStroke_seq]
  rw [strokePulse_spec c started, markFlags_of_ne_running rest', checkDose_of_rest rest']

theorem flowmeterPulse_of_rest {s : State} (c : Channel) (started : s.started = true) (rest : s.seq.state ≠ .running) :
    exec (.flowmeterPulse c) s = .next (settle (takePulse c s)) := by
  have rest' : (takePulse c s).seq.state ≠ .running := by rwa [takePulse_seq]
  rw [flowmeterPulse_spec c started, checkDose_of_rest rest']

/-! ### What a stroke and a pulse leave alone -/

theorem takeStroke_di (c : Channel) (s : State) : (takeStroke c s).sdu.di = s.sdu.di := by
  unfold takeStroke
  split
  · rfl
  · obtain ⟨-, -, -, di, -⟩ := settleWindow_keepsVolumes c (strokeCounted c s)
    refine di.trans ?_
    unfold strokeCounted
    split <;> simp

theorem takeStroke_answers (c : Channel) (s : State) : (takeStroke c s).lnk.answers = s.lnk.answers := by
  unfold takeStroke
  split
  · rfl
  · have judged : ∀ u, (settleWindow c u).lnk.answers = u.lnk.answers := fun u => by
      unfold settleWindow
      dsimp only
      rw [whenDue_unchanged (·.lnk.answers) (by simp), whenDue_unchanged (·.lnk.answers) (by simp),
        whenDue_unchanged (·.lnk.answers) (by simp)]
    rw [judged]
    split <;> simp

theorem takePulse_di (c : Channel) (s : State) : (takePulse c s).sdu.di = s.sdu.di := by
  unfold takePulse
  split
  · rfl
  · dsimp only
    split <;> simp

/-- A pulse queues nothing. -/
theorem takePulse_lnk (c : Channel) (s : State) : (takePulse c s).lnk = s.lnk := by
  unfold takePulse
  split
  · rfl
  · dsimp only
    split <;> simp

theorem takePulse_eq (c : Channel) (s : State) : takePulse c s = { s with sdu := (takePulse c s).sdu } := by
  have frame := takePulse_frame c s
  rwa [takePulse_lnk] at frame

theorem Dispense.countStroke_judging (d : Dispense) : d.countStroke.source = d.source ∧ d.countStroke.agreeing = d.agreeing := by
  unfold Dispense.countStroke
  split
  · split <;> exact ⟨rfl, rfl⟩
  · exact ⟨rfl, rfl⟩

theorem takeStroke_other {c x : Channel} (s : State) (other : c ≠ x) : (takeStroke c s).chan x = s.chan x := by
  by_cases stopped : (s.chan c).rate = 0
  · rw [takeStroke_of_stopped stopped]
  · rw [takeStroke_of_running stopped, settleWindow_other _ other, strokeCounted_other _ other]

theorem takeStroke_mismatch {c : Channel} {s : State} (mismatch : s.sdu.mismatch = true) : (takeStroke c s).sdu.mismatch = true := by
  by_cases stopped : (s.chan c).rate = 0
  · rwa [takeStroke_of_stopped stopped]
  · rw [takeStroke_of_running stopped]
    exact settleWindow_mismatch ((strokeCounted_mismatch c s).trans mismatch)

theorem takeStroke_stays_fallback {c : Channel} {s : State} (source : (s.chan c).source = .fallback) (few : (s.chan c).agreeing < 2) :
    ((takeStroke c s).chan c).source = .fallback := by
  by_cases stopped : (s.chan c).rate = 0
  · rwa [takeStroke_of_stopped stopped]
  · obtain ⟨w, counted⟩ := strokeCounted_chan c s
    obtain ⟨source', agreeing'⟩ := (s.chan c).countStroke_judging
    rw [takeStroke_of_running stopped]
    refine settleWindow_stays_fallback ?_ ?_ <;> rw [counted]
    · exact source'.trans source
    · exact agreeing'.trans_lt few

/-! ### The volumes joined -/

/-- The volume that a stroke counts: the calibrated one during the warm-up and in FLOW_FALLBACK of a running pump (R53). -/
def strokeVolume (c : Channel) (s : State) : Nat :=
  if (s.chan c).rate != 0 && (!(s.chan c).warm || (s.chan c).source == .fallback) then (s.chan c).calibrated else 0

/-- The volume that a flowmeter pulse counts: the pulse volume after the warm-up in FLOWMETER of a running pump (R53). -/
def pulseVolume (c : Channel) (s : State) : Nat :=
  if (s.chan c).rate != 0 && (s.chan c).warm && (s.chan c).source == .flowmeter then s.img.pulseVolume.get c else 0

theorem takeStroke_joins_strokeVolume (c : Channel) (s : State) : JoinsVolumes c (strokeVolume c s) s (takeStroke c s) := by
  simpa [strokeVolume, Dispense.strokesCount] using takeStroke_joins c s

theorem takePulse_joins_pulseVolume (c : Channel) (s : State) : JoinsVolumes c (pulseVolume c s) s (takePulse c s) := by
  simpa [pulseVolume, Dispense.pulsesCount, and_assoc] using takePulse_joins c s

/-- A counted volume as it is judged and carried through, the flags of the step marked or not. -/
theorem JoinsVolumes.settled {c : Channel} {v : Nat} {s x y : State} (joins : JoinsVolumes c v s x) (marked : y = x ∨ y = markFlags x) :
    let t := settle (checkDose y)
    t.sdu.dose = (if c = .main ∧ s.seq.state = .running then s.sdu.dose + v else s.sdu.dose) ∧
    t.rcp = s.rcp ∧ t.ilk = s.ilk ∧ t.cfg = s.cfg ∧ t.pins = s.pins ∧ t.peer.table = s.peer.table ∧
    t.seq.copy = s.seq.copy ∧ t.seq.index = s.seq.index ∧ t.pending = s.pending := by
  obtain ⟨-, -, dose, frame⟩ := joins
  dsimp only
  rw [← dose]
  rcases marked with rfl | rfl <;> refine ⟨by simp, ?_, ?_, ?_, ?_, ?_, ?_, ?_, ?_⟩ <;> rw [frame] <;> simp

/-- Outside RUNNING a counted volume joins the switch and an open DI, and no dose. -/
theorem JoinsVolumes.of_rest {c : Channel} {v : Nat} {s u : State} (joins : JoinsVolumes c v s u) (rest : s.seq.state ≠ .running) :
    (∀ x, (s.chan .main).switch = .flush x → (u.chan .main).switch = .flush (x + if c = .main then v else 0)) ∧
    (∀ x, (s.chan .main).switch = .postRinse x → (u.chan .main).switch = .postRinse (x + if c = .main then v else 0)) ∧
    u.sdu.diVolume = (if s.sdu.di.isOpen = true then s.sdu.diVolume + (if c = .main then v else 0) else s.sdu.diVolume) ∧
    u.sdu.dose = s.sdu.dose ∧ u = { s with sdu := u.sdu, lnk := u.lnk } := by
  obtain ⟨switch, diVolume, dose, frame⟩ := joins
  rw [if_neg fun ⟨_, running⟩ => rest running] at dose
  refine ⟨fun x flush => ?_, fun x rinse => ?_, diVolume, dose, frame⟩
  · rw [switch, flush]
    rfl
  · rw [switch, rinse]
    rfl

/-! ### The dose that ends a step -/

/-- The end of a step reads of SDU the dose alone. -/
theorem EndsStep.of_sdu {r : StepResult} {s t : State} {x : Sdu} (dose : x.dose = s.sdu.dose) (h : EndsStep r { s with sdu := x } t) :
    EndsStep r s t := by
  obtain ⟨seq, notices, answers, epm, pcc, targets, drv, dose', outside⟩ := h
  have entry : stepEntry { s with sdu := x } r = stepEntry s r := by simp only [stepEntry, dose]
  rw [entry] at seq notices
  have same := placeNotice_lnk_congr (s := s) (s' := { s with sdu := x }) rfl rfl 4 (stepEntry s r).bytes
  rw [same] at notices
  exact ⟨seq, notices, answers, epm, pcc, targets, drv, dose'.trans dose, outside⟩

/-- A DOSE step past its min time that has its dose with a count ends by it (R73). -/
theorem doseCounted_ends {s u : State} {st : StepRec} (step : s.stepNow = some st) (termination : st.termination = .dose)
    (time : 100000 * st.minTime ≤ s.seq.elapsed) (rinse : st.postRinse = 0 ∨ s.sdu.di.state ≠ .faultClosed)
    (running : u.seq.state = .running) (copy : u.seq.copy = s.seq.copy) (index : u.seq.index = s.seq.index)
    (elapsed : u.seq.elapsed = s.seq.elapsed) (di : u.sdu.di = s.sdu.di)
    (met : st.doseTarget ≤ min 65535 (u.sdu.dose / 100)) : EndsStep .doneDose u (settle (checkDose u)) := by
  have step' : u.stepNow = some st := (State.stepNow_congr copy index).trans step
  rw [checkDose_ends running step' termination met (by rwa [elapsed])]
  exact endStep_ends .doneDose (rinse_runs step' (by rwa [di]))

/-- A pulse that brings the dose ends the step (R53, R73). -/
theorem flowmeterPulse_ends {s : State} {st : StepRec} (running : s.seq.state = .running) (step : s.stepNow = some st)
    (termination : st.termination = .dose) (time : 100000 * st.minTime ≤ s.seq.elapsed)
    (rinse : st.postRinse = 0 ∨ s.sdu.di.state ≠ .faultClosed)
    (met : st.doseTarget ≤ min 65535 ((s.sdu.dose + pulseVolume .main s) / 100)) :
    EndsStep .doneDose { s with sdu := { s.sdu with dose := s.sdu.dose + pulseVolume .main s } } (settle (checkDose (takePulse .main s))) := by
  obtain ⟨-, -, dose, -⟩ := takePulse_joins_pulseVolume .main s
  rw [if_pos ⟨rfl, running⟩] at dose
  have seq := takePulse_seq .main s
  have ends := doseCounted_ends step termination time rinse (u := takePulse .main s) (by rw [seq, running]) (by rw [seq]) (by rw [seq])
    (by rw [seq]) (takePulse_di ..) (by rwa [dose])
  exact .of_sdu dose ((congrArg (EndsStep .doneDose · (settle (checkDose (takePulse .main s)))) (takePulse_eq .main s)).mp ends)

/-- A stroke marks FLOW_FALLBACK in RUNNING where a channel is or was in fallback, or enters it by the window that it closes (R55, R89). -/
theorem takeStroke_flags {s : State} (running : s.seq.state = .running) (runs : (s.chan .main).rate ≠ 0)
    (fallback : ((s.chan .main).source = .fallback ∧ (s.chan .main).agreeing < 2) ∨ (s.chan .additive).source = .fallback ∨
      s.sdu.mismatch = true ∨ s.seq.flags.flowFallback = true ∨
      ((s.chan .main).warm = true ∧ (s.chan .main).source = .flowmeter ∧ (s.chan .main).windowOpen = true ∧
        199 ≤ (s.chan .main).strokes ∧ 2 ≤ (s.chan .main).disagreeing ∧
        windowAgrees ((s.chan .main).pulses * s.img.pulseVolume.main) (200 * (s.chan .main).calibrated) s.img.tolerance = false)) :
    (markFlags (takeStroke .main s)).seq.flags.flowFallback = true := by
  have running' : (takeStroke .main s).seq.state = .running := by rw [takeStroke_seq, running]
  have additive : (takeStroke .main s).chan .additive = s.chan .additive := takeStroke_other s (by decide)
  rw [markFlags_flowFallback running', takeStroke_seq, additive]
  rcases fallback with ⟨source, few⟩ | source | mismatch | flagged | ⟨warm, source, windowOpen, last, third, disagrees⟩
  · simp [takeStroke_stays_fallback source few]
  · simp [source]
  · simp [takeStroke_mismatch mismatch]
  · simp [flagged]
  · obtain ⟨-, fallen, -⟩ := ClosesWindow.falls ⟨runs, warm, windowOpen, last⟩ source disagrees third
    simp [fallen]

/-- A stroke that brings the dose ends the step, its entry as the step stands but for the flags (R53, R73). -/
theorem strokePulse_ends {s : State} {st : StepRec} (running : s.seq.state = .running) (step : s.stepNow = some st)
    (termination : st.termination = .dose) (time : 100000 * st.minTime ≤ s.seq.elapsed)
    (rinse : st.postRinse = 0 ∨ s.sdu.di.state ≠ .faultClosed)
    (met : st.doseTarget ≤ min 65535 ((s.sdu.dose + strokeVolume .main s) / 100)) :
    let t := settle (checkDose (markFlags (takeStroke .main s)))
    let e := stepEntry (markFlags (takeStroke .main s)) .doneDose
    t.seq.state = .ending ∧ t.seq.record = s.seq.record ++ [e] ∧
    e = { stepEntry { s with sdu := { s.sdu with dose := s.sdu.dose + strokeVolume .main s } } .doneDose with flags := e.flags } ∧
    e.flags.clamped = s.seq.flags.clamped ∧ e.flags.condLost = s.seq.flags.condLost ∧
    t.sdu.dose = s.sdu.dose + strokeVolume .main s ∧ t.lnk.answers = s.lnk.answers ∧ OutsideStands s t := by
  obtain ⟨-, -, dose, frame⟩ := takeStroke_joins_strokeVolume .main s
  rw [if_pos ⟨rfl, running⟩] at dose
  have seq := takeStroke_seq .main s
  have ends := doseCounted_ends step termination time rinse (u := markFlags (takeStroke .main s)) (by simp [seq, running])
    (by simp [seq]) (by simp [seq]) (by simp [seq]) (by simp [takeStroke_di]) (by simpa [dose] using met)
  obtain ⟨ended, -, answers, -, -, -, -, dose', -⟩ := ends
  obtain ⟨clamped, condLost⟩ := markFlags_clamped_condLost (takeStroke .main s)
  dsimp only
  refine ⟨by rw [ended], ?_, ?_, ?_, ?_, ?_, ?_, ?_⟩
  · rw [ended]
    simp [seq]
  · simp [stepEntry, seq, dose]
  · exact clamped.trans (by rw [seq])
  · exact condLost.trans (by rw [seq])
  · exact dose'.trans (by simpa using dose)
  · exact answers.trans (by simpa using takeStroke_answers .main s)
  · refine ⟨?_, ?_, ?_, ?_, ?_, ?_, ?_, ?_, ?_, ?_, ?_⟩ <;> rw [frame] <;> simp

/-- Settles O37: the warm-up, the volume of a stroke and of a pulse, and the DOSE step that either ends. -/
theorem volumesAreCounted : Obligations.VolumesAreCounted := by
  unfold Obligations.VolumesAreCounted
  refine ⟨fun s c started => ⟨warmUpEnd_spec started, fun rest stopped => ⟨?_, ?_⟩, fun i v counted => ⟨?_, fun rest => ?_⟩⟩,
    fun s st started running step termination time runs rinse => ⟨fun warm source met => ?_, fun met => ?_⟩⟩
  · rw [strokePulse_of_rest c started rest, takeStroke_of_stopped stopped]
  · rw [flowmeterPulse_of_rest c started rest, takePulse_of_stopped stopped]
  · rcases counted with ⟨rfl, rfl⟩ | ⟨rfl, rfl⟩
    · exact ⟨_, strokePulse_spec c started, (takeStroke_joins_strokeVolume c s).settled (.inr rfl)⟩
    · exact ⟨_, flowmeterPulse_spec c started, (takePulse_joins_pulseVolume c s).settled (.inl rfl)⟩
  · rcases counted with ⟨rfl, rfl⟩ | ⟨rfl, rfl⟩
    · obtain ⟨flush, rinse, diVolume, dose, frame⟩ := (takeStroke_joins_strokeVolume c s).of_rest rest
      exact ⟨_, strokePulse_of_rest c started rest, flush, rinse, diVolume, dose, nofun, frame⟩
    · obtain ⟨flush, rinse, diVolume, dose, frame⟩ := (takePulse_joins_pulseVolume c s).of_rest rest
      exact ⟨_, flowmeterPulse_of_rest c started rest, flush, rinse, diVolume, dose, fun _ => takePulse_eq c s, frame⟩
  · have volume : pulseVolume .main s = s.img.pulseVolume.main := if_pos (by simp [runs, warm, source])
    have ends := flowmeterPulse_ends running step termination time rinse (by rwa [volume])
    rw [volume] at ends
    exact ⟨_, flowmeterPulse_spec .main started, ends⟩
  · have volume : strokeVolume .main s =
        if (s.chan .main).warm = false ∨ (s.chan .main).source = .fallback then (s.chan .main).calibrated else 0 := by
      simp [strokeVolume, runs]
    rw [← volume] at met ⊢
    obtain ⟨ended, record, entry, flags⟩ := strokePulse_ends running step termination time rinse met
    simp only [← windowDisagrees_iff]
    exact ⟨_, _, strokePulse_spec .main started, ended, record, entry, takeStroke_flags running runs, flags⟩

end Sys2Proof.Machine
end

section
/-! The start of a step: its conditions, the head's targets, EPM and the sweep (R68, R115 to R120, R133, R148): O40. -/

namespace Sys2Proof.Machine

open Sys2Proof

/-! ### The start conditions (Table 4-3) -/

theorem State.stepNow_of_copy {s : State} {r : Recipe} {st : StepRec} (copy : s.seq.copy = some r) (index : 1 ≤ s.seq.index)
    (step : r.steps[s.seq.index - 1]? = some st) : s.stepNow = some st := by
  simp only [State.stepNow, copy, if_neg (Nat.one_le_iff_ne_zero.1 index), step]

/-- The step at the step index conditions the pad by its mode and by its disposition (R132). -/
theorem conditionsPad_of_step {s : State} {st : StepRec} (step : s.stepNow = some st) :
    conditionsPad s = (st.inSitu && s.seq.disposition == .normal) := by
  rw [conditionsPad, step]

/-- With no start condition unmet the step starts (R68). -/
theorem stepStart_spec {s : State} {st : StepRec} (started : s.started = true) (waiting : s.seq.state = .waiting)
    (step : s.stepNow = some st) (main : switchComplete .main s = true) (additive : switchComplete .additive s = true)
    (share : st.kind = .polish → s.sdu.share = false) (carrier : st.kind ≠ .condition → (s.line .il1).level = .active)
    (drives : ∀ d : Drive, (s.drive d).atSpeed = true)
    (conditioner : s.pcc.arm = .parked ∧ s.pcc.homeFound = true ∨ st.inSitu = false ∨ s.seq.disposition ≠ .normal) :
    exec .stepStart s = .next (settle (beginStep s)) := by
  have shared : (st.kind == .polish && s.sdu.share) = false := by
    by_cases polish : st.kind = .polish
    · simp [share polish]
    · simp [polish]
  have mounted : (st.kind != .condition && s.ilk.lines.il1.level != .active) = false := by
    by_cases condition : st.kind = .condition
    · simp [condition]
    · have level : s.ilk.lines.il1.level = .active := carrier condition
      simp [level]
  have speed : bothAtSpeed s = true := by simp [bothAtSpeed, drives]
  have available : conditionerAvailable s = true := by
    rw [conditionerAvailable, conditionsPad_of_step step]
    rcases conditioner with ⟨parked, home⟩ | off | abnormal
    · simp [parked, home]
    · simp [off]
    · simp [abnormal]
  have due : (s.started && startDue s) = true := by
    simp [started, startDue, waiting, unmetStart, step, main, additive, shared, mounted, speed, available]
  exact congrArg Host.Outcome.next (if_pos due)

/-! ### The head's targets in RUNNING (R115, R120) -/

/-- Targets that are always a new set, taken at once (R120). -/
theorem takeTargets_now (v : PerHead Nat) (s : State) : (takeTargets v 0 true s).hpc = { s.hpc with
    ch := .of (fun c => (s.head c).takeNow s.img.regTolerance (v.get c)), ramp := none, inForce := true, atTarget := true } := by
  simp [takeTargets]

/-- Targets that are always a new set, taken by a ramp of 5 ticks to each tenth of a second (R120, R121). -/
theorem takeTargets_ramp (v : PerHead Nat) {n : Nat} (s : State) (time : 0 < n) :
    (takeTargets v n true s).hpc.ramp = some ⟨s.applied, n * 5, 0, 0⟩ ∧
    ∀ c, (takeTargets v n true s).head c = (s.head c).startRamp (v.get c) := by
  simp [takeTargets, time.ne', State.head]

theorem takeTargets_now_head (v : PerHead Nat) (s : State) (c : HeadCh) :
    (takeTargets v 0 true s).head c = (s.head c).takeNow s.img.regTolerance (v.get c) := by
  rw [State.head, takeTargets_now, PerHead.get_of]

theorem ventHead_head (s : State) (c : HeadCh) : (ventHead s).head c = (s.head c).vent := by
  simp [ventHead, State.head]

theorem HeadChan.takeNow_of_sound {h : HeadChan} (sound : h.state ≠ .channelFault) (tol target : Nat) :
    (h.takeNow tol target).state = .regulating ∧ (h.takeNow tol target).target = target ∧ (h.takeNow tol target).applied = target := by
  simp [HeadChan.takeNow, HeadChan.sound, sound]

theorem HeadChan.startRamp_of_sound {h : HeadChan} (sound : h.state ≠ .channelFault) (target : Nat) :
    (h.startRamp target).state = .ramping ∧ (h.startRamp target).target = target ∧ (h.startRamp target).applied = h.applied := by
  simp [HeadChan.startRamp, HeadChan.sound, sound]

theorem HeadChan.takeNow_inputs (h : HeadChan) (tol target : Nat) :
    (h.takeNow tol target).requested = h.requested ∧ (h.takeNow tol target).measured = h.measured := by
  unfold HeadChan.takeNow
  split <;> exact ⟨rfl, rfl⟩

theorem HeadChan.startRamp_inputs (h : HeadChan) (target : Nat) :
    (h.startRamp target).requested = h.requested ∧ (h.startRamp target).measured = h.measured := by
  unfold HeadChan.startRamp
  split <;> exact ⟨rfl, rfl⟩

/-- CLAMPED joins the step's flags where its targets are not the requested values (R89, R117). -/
theorem reportClamped_seq (s : State) : (reportClamped s).seq = { s.seq with flags := { s.seq.flags with
    clamped := s.seq.flags.clamped || decide (s.hpc.stepTargets ≠ s.hpc.ch.map HeadChan.requested) } } := by
  unfold reportClamped clampedNow
  by_cases clamped : s.hpc.stepTargets = s.hpc.ch.map HeadChan.requested <;> simp [clamped]

section
variable {s : State} {st : StepRec} (step : s.stepNow = some st)
include step

theorem takeStepTargets_vents (condition : st.kind = .condition) : takeStepTargets s = reportClamped (ventHead s) := by
  have kind : Option.map StepRec.kind (some st) = some .condition := congrArg some condition
  rw [takeStepTargets, State.stepKind, step, if_pos kind]

theorem takeStepTargets_takes (other : st.kind ≠ .condition) :
    takeStepTargets s = reportClamped (takeTargets s.hpc.stepTargets st.rampTime true s) := by
  have kind : ¬ Option.map StepRec.kind (some st) = some .condition := fun h => other (Option.some.inj h)
  have time : s.rampTime = st.rampTime := by rw [State.rampTime, step]; rfl
  rw [takeStepTargets, State.stepKind, step, if_neg kind, time]

theorem takeStepTargets_inputs (c : HeadCh) : ((takeStepTargets s).head c).requested = (s.head c).requested ∧
    ((takeStepTargets s).head c).measured = (s.head c).measured := by
  have reported : ∀ u : State, (reportClamped u).head c = u.head c := fun u => by simp [State.head]
  by_cases condition : st.kind = .condition
  · rw [takeStepTargets_vents step condition, reported, ventHead_head]
    exact ⟨rfl, rfl⟩
  · rw [takeStepTargets_takes step condition, reported]
    rcases Nat.eq_zero_or_pos st.rampTime with zero | positive
    · rw [zero, takeTargets_now_head]
      exact HeadChan.takeNow_inputs ..
    · obtain ⟨-, head⟩ := takeTargets_ramp s.hpc.stepTargets s positive
      rw [head]
      exact HeadChan.startRamp_inputs ..

theorem takeStepTargets_seq : (takeStepTargets s).seq = { s.seq with flags := { s.seq.flags with
    clamped := s.seq.flags.clamped || decide (s.hpc.stepTargets ≠ s.hpc.ch.map HeadChan.requested) } } := by
  have requested : (takeStepTargets s).hpc.ch.map HeadChan.requested = s.hpc.ch.map HeadChan.requested :=
    PerHead.ext' fun c => by
      obtain ⟨same, -⟩ := takeStepTargets_inputs step c
      simpa [State.head] using same
  by_cases condition : st.kind = .condition
  · rw [takeStepTargets_vents step condition] at requested ⊢
    simp only [reportClamped_keeps] at requested
    simp only [reportClamped_seq, requested, ventHead_keeps]
  · rw [takeStepTargets_takes step condition] at requested ⊢
    simp only [reportClamped_keeps] at requested
    simp only [reportClamped_seq, requested, takeTargets_keeps]

end

/-! ### The sweep at a step's start (R133) -/

theorem startSweep_stands {s : State} (off : (conditionsPad s && !s.pcc.withdrawn) = false) : startSweep s = s :=
  if_neg (by simp [off])

theorem startSweep_begins {s : State} (on : (conditionsPad s && !s.pcc.withdrawn) = true) (written : (stepProfile s).state = .written) :
    startSweep s = beginSweep (stepProfile s).segments s := by
  rw [startSweep, if_pos on, if_pos written]

/-- A profile that is not WRITTEN is an arm fault of the RUNNING step (R70, R89, R143). -/
theorem startSweep_loses {s : State} (running : s.seq.state = .running) (on : (conditionsPad s && !s.pcc.withdrawn) = true)
    (unwritten : (stepProfile s).state ≠ .written) : startSweep s = flagCondLost (loseArm .profile s) := by
  have running' : (loseArm .profile s).seq.state = .running := by simp [running]
  rw [startSweep, if_pos on, if_neg unwritten]
  simp only [armFault, running']

/-- The arm lost in RUNNING withdraws the conditioner; its home state stands (R143, log entry 47). -/
theorem loseArm_pcc {s : State} (running : s.seq.state = .running) (c : ArmCause) : (loseArm c s).pcc = { s.pcc with
    downforce := 0, arm := .lost, resume := none, search := none, withdrawn := true, condLost := true
    positionTimer := 0, stallTimer := 0 } := by
  simp [loseArm, withdraws, running]

/-- COND_LOST is queued with cause PROFILE, numbered 2, and the feedback radius in mm (R143, R187). -/
theorem loseArm_profile_lnk (s : State) :
    (loseArm .profile s).lnk = (placeNotice 16 (2 :: le2 (s.pins.armFeedback / 1000000)) s).lnk := by
  rw [loseArm, placeNotice_lnk_congr (s := s) (by simp) (by simp)]
  rfl

/-! ### The step begun, before PCC's part -/

/-- RUNNING entered with the step's clocks at 0 and the dose at 0 (R52, R68). -/
def clocksStarted (s : State) : State := { s with
  seq := { s.seq with state := .running, elapsed := 0, minReached := false, sinceStart := true }
  sdu := { s.sdu with dose := 0, persist := 0 } }

/-- The step begun with EPM's settings, the head's targets and STEP_BEGUN queued. -/
def stepBegun (r : Recipe) (st : StepRec) (s : State) : State :=
  noticeBegun (takeStepTargets (requestStep st (startSymbolizer r st (clocksStarted s))))

section
variable {s : State} {r : Recipe} {st : StepRec} (copy : s.seq.copy = some r) (step : s.stepNow = some st)

include copy step in
theorem beginStep_eq : beginStep s = startSweep (stepBegun r st s) := by
  unfold beginStep
  split
  · next r' st' copy' step' =>
    obtain rfl := Option.some.inj (copy.symm.trans copy')
    obtain rfl := Option.some.inj (step.symm.trans step')
    rfl
  · next none_there => exact absurd step (none_there r st copy)

theorem requested_of_requestStep (s : State) : (requestStep st s).hpc.ch.map HeadChan.requested = st.pressure :=
  PerHead.ext' fun c => by simp [requestStep]

include step

/-- The step at the step index as the head takes its setpoints. -/
theorem stepNow_requested : (requestStep st (startSymbolizer r st (clocksStarted s))).stepNow = some st :=
  (State.stepNow_congr (by simp [clocksStarted]) (by simp [clocksStarted])).trans step

theorem stepBegun_seq : (stepBegun r st s).seq = { s.seq with
    state := .running, elapsed := 0, minReached := false, sinceStart := true
    flags := { s.seq.flags with
      clamped := s.seq.flags.clamped || decide (fitHead s.img.headMax s.img.zoneDiff st.pressure ≠ st.pressure) } } := by
  have taken := takeStepTargets_seq (stepNow_requested (r := r) step)
  rw [requested_of_requestStep] at taken
  have begun : (stepBegun r st s).seq = (takeStepTargets (requestStep st (startSymbolizer r st (clocksStarted s)))).seq := by
    simp [stepBegun, noticeBegun]
  have targets : (requestStep st (startSymbolizer r st (clocksStarted s))).hpc.stepTargets =
      fitHead s.img.headMax s.img.zoneDiff st.pressure := rfl
  rw [begun, taken, targets]
  rfl

theorem stepBegun_stepNow : (stepBegun r st s).stepNow = some st := by
  have seq := stepBegun_seq (r := r) step
  exact (State.stepNow_congr (by rw [seq]) (by rw [seq])).trans step

end

/-- What the step's start leaves of the blocks before PCC's part. -/
theorem stepBegun_blocks (r : Recipe) (st : StepRec) (s : State) :
    (stepBegun r st s).sdu = { s.sdu with dose := 0, persist := 0 } ∧ (stepBegun r st s).pcc = s.pcc ∧
    (stepBegun r st s).peer = s.peer ∧ (stepBegun r st s).shr = s.shr ∧ (stepBegun r st s).drv = s.drv ∧
    (stepBegun r st s).rcp = s.rcp ∧ (stepBegun r st s).pins = s.pins ∧ (stepBegun r st s).cfg = s.cfg := by
  simp [stepBegun, noticeBegun, clocksStarted]

theorem stepBegun_outside (r : Recipe) (st : StepRec) (s : State) : OutsideStands s (stepBegun r st s) := by
  refine ⟨?_, ?_, ?_, ?_, ?_, ?_, ?_, ?_, ?_, ?_, ?_⟩ <;> simp [stepBegun, noticeBegun, clocksStarted]

theorem stepBegun_epm (r : Recipe) (st : StepRec) (s : State) : (stepBegun r st s).epm = { s.epm with
    settings := some ⟨r.threshold, r.period, r.recovery, r.sigs, st.sigIndex, st.minTime⟩
    state := .reference, periodTimer := 0, count := 0, current := none, matchers := ⟨⟨0, 0⟩, ⟨0, 0⟩, ⟨0, 0⟩⟩ } := by
  have begun : (stepBegun r st s).epm = (startSymbolizer r st (clocksStarted s)).epm := by simp [stepBegun, noticeBegun]
  rw [begun]
  rfl

theorem stepBegun_lnk (r : Recipe) (st : StepRec) (s : State) :
    (stepBegun r st s).lnk = (placeNotice 3 [byteOf s.seq.index] s).lnk := by
  unfold stepBegun noticeBegun
  rw [placeNotice_lnk_congr (s := s) (by simp [clocksStarted]) (by simp [clocksStarted])]
  simp [clocksStarted]

/-! ### The head as the step begins -/

theorem requestStep_head (st : StepRec) (s : State) (c : HeadCh) :
    (requestStep st s).head c = { s.head c with requested := st.pressure.get c } := by
  simp [requestStep, State.head]

theorem stepBegun_hpc (r : Recipe) (st : StepRec) (s : State) :
    (stepBegun r st s).hpc = (takeStepTargets (requestStep st (startSymbolizer r st (clocksStarted s)))).hpc := by
  simp [stepBegun, noticeBegun]

section
variable {s : State} {r : Recipe} {st : StepRec} (step : s.stepNow = some st)
include step

theorem stepBegun_inputs (c : HeadCh) : ((stepBegun r st s).head c).requested = st.pressure.get c ∧
    ((stepBegun r st s).head c).measured = (s.head c).measured := by
  have inputs := takeStepTargets_inputs (stepNow_requested (r := r) step) c
  rw [requestStep_head] at inputs
  rwa [State.head, stepBegun_hpc]

/-- A CONDITION step begins with the head vented (Table 6-3, log entry 20). -/
theorem stepBegun_vents (condition : st.kind = .condition) : (stepBegun r st s).hpc.ramp = none ∧
    (stepBegun r st s).hpc.inForce = false ∧ ∀ c, ((stepBegun r st s).head c).applied = 0 ∧ ((stepBegun r st s).head c).target = 0 := by
  have hpc : (stepBegun r st s).hpc = (ventHead (requestStep st (startSymbolizer r st (clocksStarted s)))).hpc := by
    rw [stepBegun_hpc, takeStepTargets_vents (stepNow_requested (r := r) step) condition]
    simp
  refine ⟨by rw [hpc]; rfl, by rw [hpc]; rfl, fun c => ?_⟩
  rw [State.head, hpc, ← State.head, ventHead_head]
  exact ⟨rfl, rfl⟩

theorem stepBegun_hpc_of_targets (other : st.kind ≠ .condition) : (stepBegun r st s).hpc =
    (takeTargets (fitHead s.img.headMax s.img.zoneDiff st.pressure) st.rampTime true
      (requestStep st (startSymbolizer r st (clocksStarted s)))).hpc := by
  rw [stepBegun_hpc, takeStepTargets_takes (stepNow_requested (r := r) step) other]
  simp only [reportClamped_keeps]
  rfl

/-- With ramp time 0 a step that holds its wafer begins at its fitted targets (R120). -/
theorem stepBegun_takes (other : st.kind ≠ .condition) (time : st.rampTime = 0) : (stepBegun r st s).hpc.ramp = none ∧
    (stepBegun r st s).hpc.atTarget = true ∧ ∀ c, (s.head c).state ≠ .channelFault →
      ((stepBegun r st s).head c).state = .regulating ∧
      ((stepBegun r st s).head c).target = (fitHead s.img.headMax s.img.zoneDiff st.pressure).get c ∧
      ((stepBegun r st s).head c).applied = (fitHead s.img.headMax s.img.zoneDiff st.pressure).get c := by
  have hpc := stepBegun_hpc_of_targets (r := r) step other
  rw [time] at hpc
  refine ⟨by rw [hpc, takeTargets_now], by rw [hpc, takeTargets_now], fun c sound => ?_⟩
  rw [State.head, hpc, ← State.head, takeTargets_now_head]
  exact HeadChan.takeNow_of_sound (by rw [requestStep_head]; exact sound) ..

/-- With a ramp time a step that holds its wafer begins a ramp from the values applied (R120, R121). -/
theorem stepBegun_ramps (other : st.kind ≠ .condition) (time : 0 < st.rampTime) :
    (stepBegun r st s).hpc.ramp = some ⟨s.applied, st.rampTime * 5, 0, 0⟩ ∧ ∀ c, (s.head c).state ≠ .channelFault →
      ((stepBegun r st s).head c).state = .ramping ∧
      ((stepBegun r st s).head c).target = (fitHead s.img.headMax s.img.zoneDiff st.pressure).get c ∧
      ((stepBegun r st s).head c).applied = (s.head c).applied := by
  have hpc := stepBegun_hpc_of_targets (r := r) step other
  have applied : (requestStep st (startSymbolizer r st (clocksStarted s))).applied = s.applied := PerHead.ext' fun c => by
    simp [State.applied, requestStep, State.head, startSymbolizer, clocksStarted]
  obtain ⟨ramp, head⟩ := takeTargets_ramp (fitHead s.img.headMax s.img.zoneDiff st.pressure)
    (requestStep st (startSymbolizer r st (clocksStarted s))) time
  refine ⟨by rw [hpc, ramp, applied], fun c sound => ?_⟩
  rw [State.head, hpc, ← State.head, head, requestStep_head]
  exact HeadChan.startRamp_of_sound (h := { s.head c with requested := st.pressure.get c }) sound _

end

theorem stepBegun_stepTargets (r : Recipe) (st : StepRec) (s : State) :
    (stepBegun r st s).hpc.stepTargets = fitHead s.img.headMax s.img.zoneDiff st.pressure := by
  rw [stepBegun_hpc]
  simp only [takeStepTargets_keeps]
  rfl

/-! ### PCC's part -/

/-- The step sweeps: it conditions the pad and the conditioner has not been withdrawn (R132, R133). -/
def sweeps (st : StepRec) (s : State) : Bool := st.inSitu && s.seq.disposition == .normal && !s.pcc.withdrawn

/-- The step sweeps, and its profile is not WRITTEN (R143). -/
def profileLost (st : StepRec) (s : State) : Bool := sweeps st s && (s.profile st.profile).state != .written

theorem stepProfile_of_step {s : State} {st : StepRec} (step : s.stepNow = some st) : stepProfile s = s.profile st.profile := by
  rw [stepProfile, step]
  rfl

/-- PCC's part of the start of a step that is RUNNING: the sweep, the arm fault PROFILE, or nothing (R133, R143). -/
theorem startSweep_spec {s : State} {st : StepRec} (running : s.seq.state = .running) (step : s.stepNow = some st) :
    (startSweep s).seq = { s.seq with flags := { s.seq.flags with condLost := s.seq.flags.condLost || profileLost st s } } ∧
    (startSweep s).lnk = (if profileLost st s then placeNotice 16 (2 :: le2 (s.pins.armFeedback / 1000000)) s else s).lnk ∧
    (startSweep s).sdu = s.sdu ∧ (startSweep s).epm = s.epm ∧ (startSweep s).hpc = s.hpc ∧
    (sweeps st s = false → (startSweep s).pcc = s.pcc) ∧
    (profileLost st s = true → (startSweep s).pcc = { s.pcc with
      downforce := 0, arm := .lost, resume := none, search := none, withdrawn := true, condLost := true
      positionTimer := 0, stallTimer := 0 }) ∧
    (sweeps st s = true → profileLost st s = false → (startSweep s).pcc = { s.pcc with
      segments := (s.profile st.profile).segments, segment := firstAboveInner (s.profile st.profile).segments
      direction := .outward, arm := .movingIn, destination := 40000000 }) := by
  have on : (conditionsPad s && !s.pcc.withdrawn) = sweeps st s := by rw [conditionsPad_of_step step, sweeps]
  have profile := stepProfile_of_step step
  cases swept : sweeps st s with
  | false =>
    have kept : profileLost st s = false := by simp [profileLost, swept]
    rw [startSweep_stands (on.trans swept)]
    simp [kept]
  | true =>
    by_cases written : (s.profile st.profile).state = .written
    · have kept : profileLost st s = false := by simp [profileLost, written]
      rw [startSweep_begins (on.trans swept) (by rwa [profile]), profile]
      refine ⟨?_, ?_, by simp, by simp, by simp, nofun, fun lost => absurd lost (by simp [kept]), fun _ _ => rfl⟩
      · simp [kept]
      · simp [kept]
    · have lost : profileLost st s = true := by simp [profileLost, swept, written]
      rw [startSweep_loses running (on.trans swept) (by rwa [profile])]
      refine ⟨?_, ?_, by simp, by simp, by simp, nofun, fun _ => ?_, fun _ kept => absurd kept (by simp [lost])⟩
      · simp [flagCondLost, lost]
      · rw [if_pos lost]
        exact loseArm_profile_lnk s
      · exact loseArm_pcc running _

/-- Settles O40: the start conditions, the step begun, then PCC's part of the start. -/
theorem stepStartsWhenItsConditionsHold : Obligations.StepStartsWhenItsConditionsHold := by
  unfold Obligations.StepStartsWhenItsConditionsHold
  intro s r st started waiting copy found index main additive share carrier drives conditioner
  have step := State.stepNow_of_copy copy index found
  have seq := stepBegun_seq (r := r) step
  have step' := stepBegun_stepNow (r := r) step
  have running : (stepBegun r st s).seq.state = .running := by rw [seq]
  obtain ⟨sdu, pcc, peer, shr, drv, rcp, pins, cfg⟩ := stepBegun_blocks r st s
  have swept : sweeps st (stepBegun r st s) = sweeps st s := by rw [sweeps, seq, pcc, sweeps]
  have profile : (stepBegun r st s).profile st.profile = s.profile st.profile := by rw [State.profile, rcp, State.profile]
  have lost : profileLost st (stepBegun r st s) = profileLost st s := by rw [profileLost, swept, profile, profileLost]
  obtain ⟨seq', lnk', sdu', epm', hpc', stands, loses, begins⟩ := startSweep_spec running step'
  rw [lost] at seq' lnk' loses begins
  rw [swept] at stands begins
  rw [profile] at begins
  rw [pcc] at stands loses begins
  have head : ∀ c, (startSweep (stepBegun r st s)).head c = (stepBegun r st s).head c := fun c => by rw [State.head, hpc', State.head]
  have outside := stepBegun_outside r st s
  refine ⟨startSweep (stepBegun r st s), ?_, ?_, sdu'.trans sdu, epm'.trans (stepBegun_epm r st s), ?_, ?_, ?_, ?_, ?_, ?_,
    stands, loses, begins, ?_, ?_, ?_, ?_⟩
  · rw [stepStart_spec started waiting step main additive share carrier drives conditioner, beginStep_eq copy step]
  · rw [seq', seq]
    rfl
  · rw [lnk', pins]
    have queued := placeNotice_lnk_congr (s := placeNotice 3 [byteOf s.seq.index] s) (stepBegun_lnk r st s) (by simpa using cfg)
    by_cases isLost : profileLost st s = true
    · rw [if_pos isLost]
      exact (queued ..).trans (if_pos isLost).symm
    · rw [if_neg isLost]
      exact (stepBegun_lnk r st s).trans (if_neg isLost).symm
  · rw [hpc', stepBegun_stepTargets]
  · intro c
    rw [head]
    exact stepBegun_inputs step c
  · intro condition
    simp only [hpc', head]
    exact stepBegun_vents step condition
  · intro other time
    simp only [hpc', head]
    exact stepBegun_takes step other time
  · intro other time
    simp only [hpc', head]
    exact stepBegun_ramps step other time
  · rw [← peer]
    simp
  · rw [← shr]
    simp
  · rw [← drv]
    simp
  · simpa [OutsideStands] using outside

end Sys2Proof.Machine
end

section
/-! How the sequencer's state moves: HOLDING exactly with a cause (R77), FAULTED kept, and no run begun (R66, R87, R88), through the
sequencer's own operations. -/

namespace Sys2Proof.Machine

open Sys2Proof

/-! ### Cause sets -/

theorem CauseSet.eq_empty_iff {v : CauseSet} : v = .empty ↔ v.isEmpty = true := by
  obtain ⟨a, b, c, d, e, f, g, h⟩ := v
  simp [CauseSet.isEmpty, CauseSet.empty, and_assoc]

@[simp] theorem CauseSet.add_nonempty (v : CauseSet) (c : Cause) : (v.add c).isEmpty = false := by
  cases c <;> simp [CauseSet.isEmpty, CauseSet.add, CauseSet.put]

/-! ### HOLDING exactly with a cause -/

theorem HoldingIffCaused.congr {s t : State} (h : HoldingIffCaused s) (state : t.seq.state = s.seq.state)
    (causes : t.seq.causes = s.seq.causes) (resume : t.seq.resume = s.seq.resume) : HoldingIffCaused t := by
  simpa [HoldingIffCaused, state, causes, resume] using h

theorem HoldingIffCaused.of_holding {t : State} (state : t.seq.state = .holding) (caused : t.seq.causes.isEmpty = false)
    (resume : t.seq.resume.isSome = true) : HoldingIffCaused t := by
  simp [HoldingIffCaused, state, caused, resume]

theorem HoldingIffCaused.of_calm {t : State} (state : t.seq.state ≠ .holding) (uncaused : t.seq.causes = .empty) :
    HoldingIffCaused t := by
  simp [HoldingIffCaused, state, uncaused, CauseSet.empty, CauseSet.isEmpty]

theorem HoldingIffCaused.uncaused {s : State} (h : HoldingIffCaused s) (state : s.seq.state ≠ .holding) : s.seq.causes = .empty := by
  rw [CauseSet.eq_empty_iff, ← Bool.not_eq_false]
  exact fun caused => state (h.1.2 caused)

/-! ### The relation an operation keeps -/

/-- What an operation makes of the sequencer's state: HOLDING stays bound to its causes; FAULTED stays unless the operation is one that
may leave it; and no run begins unless the operation is one that may begin it. -/
structure SeqMoves (leaves begins : Bool) (s t : State) : Prop where
  holding : HoldingIffCaused s → HoldingIffCaused t
  faulted : leaves = false → s.seq.state = .faulted → t.seq.state = .faulted
  rest : begins = false → s.seq.state.inRun = false → t.seq.state.inRun = false

section
variable {l b : Bool} {s t u : State}

theorem SeqMoves.refl (s : State) : SeqMoves l b s s := ⟨id, fun _ => id, fun _ => id⟩

theorem SeqMoves.trans (h : SeqMoves l b s t) (h' : SeqMoves l b t u) : SeqMoves l b s u :=
  ⟨h'.holding ∘ h.holding, fun x => h'.faulted x ∘ h.faulted x, fun x => h'.rest x ∘ h.rest x⟩

theorem SeqMoves.weaken (h : SeqMoves l b s t) : SeqMoves true true s t := ⟨h.holding, nofun, nofun⟩

/-- An operation that leaves the state, the causes and the resume target. -/
theorem SeqMoves.of_frame
    (h : t.seq.state = s.seq.state ∧ t.seq.causes = s.seq.causes ∧ t.seq.resume = s.seq.resume) : SeqMoves l b s t := by
  obtain ⟨state, causes, resume⟩ := h
  exact ⟨fun x => x.congr state causes resume, fun _ x => state.trans x, fun _ x => by rwa [state]⟩

theorem SeqMoves.of_seq (h : t.seq = s.seq) : SeqMoves l b s t := .of_frame (by rw [h]; exact ⟨rfl, rfl, rfl⟩)

theorem SeqMoves.then_frame (h : SeqMoves l b s t)
    (h' : u.seq.state = t.seq.state ∧ u.seq.causes = t.seq.causes ∧ u.seq.resume = t.seq.resume) : SeqMoves l b s u :=
  h.trans (.of_frame h')

/-- A run in progress is neither FAULTED nor at rest, so that only HOLDING is to be looked after. -/
theorem SeqMoves.of_run (run : s.seq.state.inRun = true) (h : HoldingIffCaused s → HoldingIffCaused t) : SeqMoves l b s t :=
  ⟨h, fun _ x => by simp [x, SeqState.inRun] at run, fun _ x => by simp [run] at x⟩

/-- A state other than HOLDING with no cause, entered from a run. -/
theorem SeqMoves.to_calm (run : s.seq.state.inRun = true) (state : t.seq.state ≠ .holding) (uncaused : t.seq.causes = .empty) :
    SeqMoves l b s t := .of_run run fun _ => .of_calm state uncaused

/-- A state outside a run entered from one that is neither HOLDING nor FAULTED, the causes left. -/
theorem SeqMoves.to_rest (holding : s.seq.state ≠ .holding) (faulted : l = false → s.seq.state ≠ .faulted)
    (rest : t.seq.state.inRun = false) (causes : t.seq.causes = s.seq.causes) : SeqMoves l b s t where
  holding h := .of_calm (fun x => by simp [x, SeqState.inRun] at rest) (causes.trans (h.uncaused holding))
  faulted x y := absurd y (faulted x)
  rest _ _ := rest

theorem SeqMoves.ite {c : Prop} [Decidable c] (h : c → SeqMoves l b s t) (h' : ¬c → SeqMoves l b s u) :
    SeqMoves l b s (if c then t else u) := by
  split
  · exact h ‹_›
  · exact h' ‹_›

theorem SeqMoves.whenDue (due : Bool) {f : State → State} (h : SeqMoves l b s u) (hf : due = true → SeqMoves l b u (f u)) :
    SeqMoves l b s (whenDue due u f) := by
  cases due
  · exact h
  · exact h.trans (hf rfl)

theorem SeqMoves.foldl {α : Type} {f : State → α → State} (h : ∀ u x, SeqMoves l b u (f u x)) (xs : List α) (s : State) :
    SeqMoves l b s (xs.foldl f s) := by
  induction xs generalizing s with
  | nil => exact .refl s
  | cons x xs ih => exact (h s x).trans (ih _)

/-! ### The sequencer's entries -/

theorem enterRest_moves (x : SeqState) (out : x.inRun = false) (holding : s.seq.state ≠ .holding)
    (faulted : l = false → s.seq.state ≠ .faulted) : SeqMoves l b s (enterRest x s) :=
  .to_rest holding faulted (by simpa [enterRest] using out) (by simp)

theorem enterAborting_moves (r : RunResult) (run : s.seq.state.inRun = true) : SeqMoves l b s (enterAborting r s) :=
  .to_calm run (by rw [enterAborting_seq]; nofun) (by rw [enterAborting_seq])

theorem enterHolding_moves (t : ResumeTarget) {causes : CauseSet} (caused : causes.isEmpty = false)
    (run : s.seq.state.inRun = true) : SeqMoves l b s (enterHolding t causes s) :=
  .of_run run fun _ => .of_holding (by simp [enterHolding_seq]) (by simpa [enterHolding_seq] using caused) (by simp [enterHolding_seq])

theorem takeFault_moves (k : FaultKind) (s : State) : SeqMoves l b s (takeFault k s) := by
  have first : SeqMoves l b s (noticeFault k false (s.setSeq { s.seq with first := some k })) := .of_frame (by simp)
  have later : SeqMoves l b s (noticeFault k true (s.setSeq { s.seq with later := s.seq.later.add k })) := .of_frame (by simp)
  unfold takeFault
  split
  · split
    case h_1 state | h_2 state | h_3 state => exact first.trans (enterRest_moves _ rfl (by simp [state]) (by simp [state]))
    case h_4 state | h_5 state | h_6 state | h_7 state =>
      exact first.trans (enterAborting_moves _ (by simp [state, SeqState.inRun]))
    case h_8 => exact .ite (fun _ => first) fun _ => later
    case h_9 => exact later
  · exact .refl s

theorem holdFor_moves (c : Cause) (s : State) : SeqMoves l b s (holdFor c s) := by
  unfold holdFor
  split
  case h_1 state | h_2 state => exact enterHolding_moves _ (by simp) (by simp [state, SeqState.inRun])
  case h_3 state => exact .of_run (by simp [state, SeqState.inRun]) fun h => .of_holding state (by simp) (h.2 state)
  case h_4 => exact .of_frame (by simp)
  all_goals exact .refl s

theorem abortRun_moves (r : RunResult) (s : State) : SeqMoves l b s (abortRun r s) :=
  .ite (enterAborting_moves r) fun _ => .refl s

theorem armFault_moves (c : ArmCause) (s : State) : SeqMoves l b s (armFault c s) := by
  have lost : SeqMoves l b s (loseArm c s) := .of_seq (by simp)
  have flagged : SeqMoves l b (loseArm c s) (flagCondLost (loseArm c s)) := .of_frame (by simp)
  refine lost.trans ?_
  unfold armFault
  dsimp only
  split
  case h_1 => exact flagged
  case h_2 state =>
    refine flagged.trans (.ite (fun _ => ?_) fun _ => .refl _)
    exact .of_run (by simp_all [SeqState.inRun]) fun h => .of_holding (by simp_all) (by simp) (h.2 (by simp_all))
  case h_3 state => exact .ite (fun _ => enterHolding_moves _ (by simp) (by simp_all [SeqState.inRun])) fun _ => .refl _
  all_goals exact .refl _

/-! ### The end of a step -/

theorem enterEnding_holds (s : State) : HoldingIffCaused (enterEnding s) := by
  have ended : ∀ q : Seq, q.state = .ending → q.causes = .empty →
      HoldingIffCaused (clearPersist (stopSymbolizer (liftForEnd (takeHoldLevels (startPostRinse (s.setSeq q)))))) :=
    fun q state causes => .of_calm (by simp [state]) (by simpa using causes)
  unfold enterEnding
  dsimp only
  split
  · exact (takeFault_moves (l := true) (b := true) ..).holding (ended _ rfl rfl)
  · exact ended _ rfl rfl

theorem enterEnding_moves (run : s.seq.state.inRun = true) : SeqMoves l b s (enterEnding s) :=
  .of_run run fun _ => enterEnding_holds s

theorem endStep_moves (r : StepResult) (run : s.seq.state.inRun = true) : SeqMoves l b s (endStep r s) :=
  .trans (.of_frame (by simp)) (enterEnding_moves (by simpa using run))

theorem checkDose_moves (s : State) : SeqMoves l b s (checkDose s) :=
  .ite (fun h => endStep_moves _ (by simp_all [SeqState.inRun])) fun _ => .refl s

theorem missEndpoint_moves (run : s.seq.state.inRun = true) : SeqMoves l b s (missEndpoint s) := by
  have entered : SeqMoves l b s (appendEntry (s.entryNow .endpointMissed) s) := .of_frame (by simp)
  refine entered.trans ?_
  unfold missEndpoint
  dsimp only
  split
  · exact enterEnding_moves (by simpa using run)
  · exact .trans (.of_frame (by simp)) (enterHolding_moves _ (by simp) (by simpa using run))
  · exact enterAborting_moves _ (by simpa using run)

theorem reachLimit_moves (run : s.seq.state.inRun = true) : SeqMoves l b s (reachLimit s) := by
  unfold reachLimit
  split
  · exact endStep_moves _ run
  · exact endStep_moves _ run
  · exact .ite (fun _ => endStep_moves _ run) fun _ => missEndpoint_moves run
  · exact .refl s

/-! ### The entry to WAITING and the start of a step -/

theorem startSwitches_moves (st : StepRec) (s : State) : SeqMoves l b s (startSwitches st s) := by
  have switched : ∀ c t u, SeqMoves l b u (startSwitch c t u) := fun _ _ _ => .of_seq (by simp)
  exact .ite (fun _ => takeFault_moves ..) fun _ =>
    .ite (fun _ => (switched ..).trans (takeFault_moves ..)) fun _ => (switched ..).trans (switched ..)

theorem reportTrips_moves (s : State) : SeqMoves l b s (reportTrips s) := by
  have tripped : ∀ (c : Bool) u, SeqMoves l b u (if c then takeFault .driveTrip u else u) := fun _ u =>
    .ite (fun _ => takeFault_moves ..) fun _ => .refl u
  exact (tripped _ s).trans (tripped ..)

/-- An entry to WAITING from a run, or by START from a state of rest. -/
theorem enterWaiting_moves (k : Nat) (fromStart : Bool) (faulted : s.seq.state ≠ .faulted)
    (run : s.seq.state.inRun = true ∨ b = true) : SeqMoves l b s (enterWaiting k fromStart s) := by
  have fresh : ∀ q, SeqMoves l b s (s.setSeq (Seq.newStep q k)) := fun q => {
    holding := fun _ => .of_calm (by simp [Seq.newStep]) (by simp [Seq.newStep])
    faulted := fun _ x => absurd x faulted
    rest := fun x y => by simp_all }
  have directed : ∀ u, SeqMoves l b u (takeStepSpeeds (takeHoldOrVent (rebuildRecord u))) := fun _ => .of_seq (by simp)
  have switched : ∀ (st : Option StepRec) u, SeqMoves l b u (match st with | none => u | some st => startSwitches st u) := fun st u => by
    cases st with
    | none => exact .refl u
    | some st => exact startSwitches_moves st u
  have reported : ∀ u, SeqMoves l b u (if fromStart then reportTrips u else u) := fun u =>
    .ite (fun _ => reportTrips_moves u) fun _ => .refl u
  have held : ∀ d u, SeqMoves l b u (if u.seq.state = .waiting ∧ (entryCauses d u).isEmpty = false then
      enterHolding .waiting (entryCauses d u) u else u) := fun d u =>
    .ite (fun ⟨state, caused⟩ => enterHolding_moves _ caused (by simp [state, SeqState.inRun])) fun _ => .refl u
  exact ((((fresh _).trans (directed _)).trans (switched ..)).trans (reported _)).trans (held ..)

theorem startSweep_moves (s : State) : SeqMoves l b s (startSweep s) :=
  .ite (fun _ => .ite (fun _ => .of_seq (by simp)) fun _ => armFault_moves ..) fun _ => .refl s

theorem beginStep_moves (waiting : s.seq.state = .waiting) : SeqMoves l b s (beginStep s) := by
  unfold beginStep
  split
  · dsimp only
    refine .trans (.of_run (by simp [waiting, SeqState.inRun]) fun h => ?_) (startSweep_moves _)
    exact .of_calm (by simp) (by simpa using h.uncaused (by simp [waiting]))
  · exact .refl s

/-! ### The departure from HOLDING -/

theorem returnSweep_moves (s : State) : SeqMoves l b s (returnSweep s) := by
  unfold returnSweep
  split
  · exact .refl s
  · exact .ite (fun _ => .refl s) fun _ => .ite (fun _ => .of_seq (by simp)) fun _ => armFault_moves ..

theorem returnToRunning_holds (s : State) : HoldingIffCaused (returnToRunning s) :=
  (returnSweep_moves (l := true) (b := true) _).holding (.of_calm (by simp) (by simp))

/-- The departure ends with no cause, or with SHARE in HOLDING (R80). -/
theorem leaveHolding_holds (state : s.seq.state = .holding) : HoldingIffCaused (leaveHolding s) := by
  unfold leaveHolding
  split
  case h_1 resume =>
    split
    · exact enterEnding_holds _
    · split
      · exact .of_holding (by simpa using state) (by simp) (by simp [resume])
      · exact returnToRunning_holds s
  case h_2 =>
    split
    · exact enterEnding_holds _
    · exact .of_calm (by simp) (by simp)

/-- A new cause set in HOLDING: an empty one leaves the state, another stands (R80). -/
theorem recaused_moves {q : Seq} (state : s.seq.state = .holding) (held : q.state = .holding) (resume : q.resume = s.seq.resume) :
    SeqMoves l b s (if q.causes.isEmpty then leaveHolding (s.setSeq q) else s.setSeq q) := by
  refine .of_run (by simp [state, SeqState.inRun]) fun h => ?_
  have target : q.resume.isSome = true := resume ▸ h.2 state
  cases caused : q.causes.isEmpty with
  | false => exact .of_holding held caused target
  | true => exact leaveHolding_holds held

theorem resumeHold_moves (state : s.seq.state = .holding) : SeqMoves l b s (resumeHold s) := by
  have decided : SeqMoves l b s (resumeDisposition s) := .of_frame (by simp)
  exact decided.trans (recaused_moves (by simpa using state) (by simpa using state) rfl)

/-! ### The end of a run -/

theorem noticeRunEnded_moves (timeout : Bool) (s : State) : SeqMoves l b s (noticeRunEnded timeout s) := .of_seq (by simp)

theorem completeEnding_moves (ending : s.seq.state = .ending) : SeqMoves l b s (completeEnding s) := by
  refine .ite (fun _ => enterWaiting_moves _ _ (by simp [ending]) (.inl (by simp [ending, SeqState.inRun]))) fun _ => ?_
  exact .trans (.trans (.of_frame (by simp)) (enterRest_moves _ rfl (by simp [ending]) (by simp [ending]))) (noticeRunEnded_moves ..)

theorem completeAbort_moves (timeout : Bool) (aborting : s.seq.state = .aborting) : SeqMoves l b s (completeAbort timeout s) := by
  refine .trans (.trans (.of_frame (by simp)) (enterRest_moves _ ?_ (by simp [aborting]) (by simp [aborting]))) (noticeRunEnded_moves ..)
  split <;> rfl

/-! ### Carrying a change through -/

theorem takeReports_moves (s : State) : SeqMoves l b s (takeReports s) := by
  unfold takeReports
  split
  case h_1 state => exact .ite (fun _ => enterHolding_moves _ (by simp) (by simp [state, SeqState.inRun])) fun _ => .refl s
  case h_2 state => exact .ite (fun _ => .refl s) fun _ => recaused_moves state state rfl
  all_goals exact .refl s

theorem settle_moves (s : State) : SeqMoves l b s (settle s) := by
  have carried : ∀ u, SeqMoves l b u (carry u) := fun _ => .of_frame (by simp)
  have round : ∀ u, SeqMoves l b u (takeReports (carry u)) := fun u => (carried u).trans (takeReports_moves _)
  refine .ite (fun _ => ?_) fun _ => .refl s
  exact (((round s).trans (round _)).trans (carried _)).then_frame (by simp)

theorem SeqMoves.settle (h : SeqMoves l b s t) : SeqMoves l b s (settle t) := h.trans (settle_moves t)

end
end Sys2Proof.Machine
end

section
/-! How the sequencer's state moves under every order, frame and event: O58 and O60. -/

namespace Sys2Proof.Machine

open Sys2Proof

section
variable {l b : Bool} {s t u : State}

/-! ### Resets and start-up -/

/-- A reset leaves FAULTED and begins no run (R92). -/
theorem doReset_moves (cause : ResetCause) (held : Bool) (s : State) : SeqMoves true b s (doReset cause held s) :=
  ⟨fun _ => .of_calm nofun rfl, nofun, fun _ _ => rfl⟩

theorem endSettle_moves (s : State) : SeqMoves l b s (endSettle s) := by
  have loading : ∀ bs, SeqMoves l b s (loadImage bs s) := fun bs => by
    rw [loadImage_eq]
    exact .trans (.of_seq (by simp [loaded])) (reportTrips_moves _)
  unfold endSettle
  split
  · exact loading _
  · exact .of_seq (by simp)

/-! ### ILK -/

theorem route_moves (r : Routing) (i : Line) (s : State) : SeqMoves l b s (route r i s) := by
  have placed : ∀ u, SeqMoves l b u (placeStopFrame (numLine i) u) := fun _ => .of_seq (by simp)
  cases r with
  | note => exact .refl s
  | hold => exact holdFor_moves ..
  | abort => exact takeFault_moves ..
  | linkStop => exact (takeFault_moves ..).trans (placed _)

theorem takeLine_moves (i : Line) (s : State) : SeqMoves l b s (takeLine i s) := by
  have taken : ∀ x, SeqMoves l b s (s.setLine i x) := fun _ => .of_seq (by simp)
  have noticed : ∀ n p u, SeqMoves l b u (placeNotice n p u) := fun _ _ _ => .of_seq (by simp)
  unfold takeLine
  dsimp only
  split
  · exact taken _
  · exact .ite (fun _ => (taken _).trans ((noticed ..).trans (route_moves ..))) fun _ => taken _

theorem takeAtOnce_moves (i : Line) (s : State) : SeqMoves l b s (takeAtOnce i s) :=
  .whenDue _ (.refl s) fun _ => (takeLine_moves i s).settle

theorem takeStop_moves (s : State) : SeqMoves l b s (takeStop s) := by
  unfold takeStop
  split
  · exact holdFor_moves ..
  · exact abortRun_moves ..

theorem decodeMode_moves (s : State) : SeqMoves l b s (decodeMode s) := by
  have decoded : ∀ x, SeqMoves l b s (s.setIlk x) := fun _ => .of_seq (by simp)
  have noticed : ∀ n p u, SeqMoves l b u (placeNotice n p u) := fun _ _ _ => .of_seq (by simp)
  have changed : ∀ m u, SeqMoves l b u (modeChanged m u) := fun m u => by
    cases m with
    | run => exact .refl u
    | service => exact holdFor_moves ..
    | lockout => exact abortRun_moves ..
  exact .ite (fun _ => decoded _) fun _ => ((decoded _).trans (noticed ..)).trans (changed ..)

theorem judgeRegulation_moves (c : HeadCh) (s : State) : SeqMoves l b s (judgeRegulation c s) := by
  have cleared : ∀ u, SeqMoves l b u (clearRegTimer c u) := fun _ => .of_seq (by simp)
  have reported : SeqMoves l b s (reportHigh c s) := .of_seq (by simp)
  exact .ite (fun _ => (cleared s).trans (takeFault_moves ..)) fun _ =>
    .ite (fun _ => reported.trans (cleared _)) fun _ => cleared s

/-! ### The orders -/

/-- What an order's reply makes of the sequencer's state. -/
def Reply.Moves (l b : Bool) (s : State) (r : Reply) : Prop := SeqMoves l b s r.st

theorem Reply.Moves.refused (s : State) (c : Code) (d : List Byte) : Reply.Moves l b s ⟨s, c, d⟩ := SeqMoves.refl s

theorem Reply.Moves.ite {p : Prop} [Decidable p] {r r' : Reply} (h : p → r.Moves l b s) (h' : ¬p → r'.Moves l b s) :
    Reply.Moves l b s (if p then r else r') := by
  split
  · exact h ‹_›
  · exact h' ‹_›

theorem orderLoad_moves (slot : Byte) (s : State) : (orderLoad slot s).Moves l b s := by
  refine .ite (fun _ => .refused ..) fun _ => .ite (fun _ => .refused ..) fun loads => ?_
  have copied : SeqMoves l b s (takeCopy (s.slot slot.toNat) s) := by
    refine .trans (.of_frame (by simp)) (enterRest_moves _ rfl ?_ fun _ => ?_) <;> intro state <;>
      simp [SeqState.loads, show s.seq.state = _ from state] at loads
  refine .ite (fun _ => .refused ..) fun _ => .ite (fun _ => .refused ..) fun _ => ?_
  dsimp only
  split
  case h_4 => exact .ite (fun _ => copied.settle) fun _ => SeqMoves.of_seq rfl
  all_goals exact .refused ..

theorem orderUnload_moves (s : State) : (orderUnload s).Moves l b s := by
  refine .ite (fun _ => .refused ..) fun _ => .ite (fun state => ?_) fun _ => .refused ..
  refine (SeqMoves.trans (.of_frame (by simp)) (enterRest_moves _ rfl ?_ fun _ => ?_)).settle <;>
    rcases state with state | state <;> simp [state]

theorem orderStart_moves (s : State) : (orderStart s).Moves l true s := by
  refine .ite (fun _ => .refused ..) fun _ => .ite (fun _ => .refused ..) fun rest => ?_
  refine .ite (fun _ => .refused ..) fun _ => .ite (fun _ => .refused ..) fun _ => ?_
  refine (SeqMoves.trans (.of_frame (by simp)) (enterWaiting_moves _ _ ?_ (.inr rfl))).settle
  intro state
  simp [show s.seq.state = _ from state] at rest

theorem orderHold_moves (s : State) : (orderHold s).Moves l b s :=
  .ite (fun _ => .refused ..) fun _ => .ite (fun _ => (holdFor_moves .ordered s).settle) fun _ => .refused ..

theorem orderResume_moves (s : State) : (orderResume s).Moves l b s :=
  .ite (fun _ => .refused ..) fun _ => .ite (fun state => (resumeHold_moves state).settle) fun _ => .refused ..

theorem orderAbort_moves (s : State) : (orderAbort s).Moves l b s :=
  .ite (fun _ => .refused ..) fun _ => .ite (fun _ => (abortRun_moves .aborted s).settle) fun _ =>
    .ite (fun _ => .refused ..) fun _ => .refused ..

theorem orderClearFault_moves (s : State) : (orderClearFault s).Moves true b s := by
  refine .ite (fun _ => .refused ..) fun _ => .ite (fun _ => .refused ..) fun faulted => .ite (fun _ => .refused ..) fun _ => ?_
  have cleared : SeqMoves true b s (clearChannelFaults (s.setSeq { s.seq with first := none, later := .empty })) :=
    .of_frame (by simp)
  refine (cleared.trans (enterRest_moves .done rfl (fun state => ?_) (by simp))).settle
  simp [show s.seq.state = .holding by simpa using state] at faulted

/-- CLEAR_EVENTS clears flags of other blocks (R201). -/
theorem clearFlags_seq (mask : BitVec 16) (s : State) : (clearFlags mask s).seq = s.seq := by
  have lines : ∀ (ls : List Line) (u : State),
      (ls.foldl (fun s i => if mask.getLsbD (numLine i) then clearLine i s else s) u).seq = u.seq := by
    intro ls
    induction ls with
    | nil => exact fun _ => rfl
    | cons i r ih => exact fun u => by simpa using ih (if mask.getLsbD (numLine i) then clearLine i u else u)
  have cleared : (clearLines mask s).seq = s.seq := lines PerLine.indices s
  simp [clearFlags, cleared]

theorem orderRestart_moves (toAll : Bool) (s : State) : (orderRestart toAll s).Moves true b s :=
  .ite (fun _ => .refused ..) fun _ => .ite (fun _ => .refused ..) fun _ =>
    .ite (fun _ => doReset_moves ..) fun _ => SeqMoves.of_seq rfl

/-- The orders that may leave FAULTED (R88, R202). -/
def Order.leavesFaulted (o : Order) : Bool :=
  match o with
  | .clearFault | .restart => true
  | _ => false

/-- The order that may begin a run (R66). -/
def Order.beginsRun (o : Order) : Bool :=
  match o with
  | .start => true
  | _ => false

/-- Every order at its owner. -/
theorem carryOut_moves (toAll : Bool) (o : Order) (s : State) : (carryOut toAll o s).Moves o.leavesFaulted o.beginsRun s := by
  cases o with
  | load slot => exact orderLoad_moves slot s
  | unload => exact orderUnload_moves s
  | start => exact orderStart_moves s
  | hold => exact orderHold_moves s
  | resume => exact orderResume_moves s
  | abort => exact orderAbort_moves s
  | clearFault => exact orderClearFault_moves s
  | clearEvents mask => exact (SeqMoves.of_seq (clearFlags_seq mask s)).settle
  | restart => exact orderRestart_moves toAll s
  | _ =>
    simp only [carryOut, orderReadResult, orderWriteHeader, orderWriteStep, orderCloseRecipe, orderEraseRecipe, orderSumRecipe,
      orderEraseStore, orderLockStore, orderReadRecipe, readReply, orderWriteProfile, orderDiskReplaced, orderPadReplaced,
      orderQueryStatus]
    (repeat' split) <;> exact SeqMoves.of_seq rfl

theorem serve_moves (m : OrderMeta) {owner : State → Reply} (h : (owner s).Moves l b s) : SeqMoves l b s (serve m owner s) := by
  have answer : ∀ tag d u, SeqMoves l b u (placeAnswer tag d u) := fun _ _ _ => .of_seq (by simp)
  exact .ite (fun _ => .ite (fun _ => h) fun _ => SeqMoves.trans h (answer ..)) fun _ => .refl s

theorem takeOrder_moves (m : OrderMeta) (payload : List Byte) (s : State) : SeqMoves true true s (takeOrder m payload s) := by
  unfold takeOrder
  split
  · exact serve_moves m (.refused ..)
  · exact serve_moves m (.ite (fun _ => .refused ..) fun _ => .refused ..)
  · exact (serve_moves m (carryOut_moves ..)).weaken

theorem ofLength_moves (good : Bool) {owner : State → Reply} (h : (owner s).Moves l b s) : (ofLength good owner s).Moves l b s := by
  cases good
  · exact .refused ..
  · exact h

/-! ### The link -/

theorem setLnk_moves (s : State) (x : Lnk) : SeqMoves l b s (s.setLnk x) := .of_seq rfl

theorem restartIfSent_moves (s : State) : SeqMoves true b s (restartIfSent s) := .ite (fun _ => doReset_moves ..) fun _ => .refl s

theorem finishFrame_moves (s : State) : SeqMoves true b s (finishFrame s) := by
  unfold finishFrame
  split
  · exact .refl s
  · exact (setLnk_moves ..).trans (restartIfSent_moves _)

theorem mismatchEcho_moves (s : State) : SeqMoves true b s (mismatchEcho s) := by
  unfold mismatchEcho
  split
  · exact .refl s
  · exact (setLnk_moves ..).trans (restartIfSent_moves _)

theorem takeDemand_moves (n : Nat) (p : List Byte) (s : State) : SeqMoves l b s (takeDemand n p s) := by
  have marked : ∀ items u, SeqMoves l b u (reportMarks items u) := fun items u => .of_seq (by rw [reportMarks_alone items u]; rfl)
  have shared : ∀ v u, SeqMoves l b u (shrRuns v u) := fun _ _ => .of_seq (by simp)
  have entered : ∀ x, SeqMoves l b s (s.setPeer x) := fun _ => .of_seq (by simp)
  by_cases own : n = s.img.node
  · rw [takeDemand, if_pos own]
    exact .refl s
  by_cases ok : demandOk n p = true
  · rw [takeDemand_of_ok own ok]
    exact ((entered _).trans (marked ..)).trans (shared ..)
  · rw [takeDemand, if_neg own, if_neg ok]
    exact setLnk_moves ..

/-- A duplicate node number is a fault, or the restart that was pending (R182). -/
theorem findDuplicate_moves (s : State) : SeqMoves true b s (findDuplicate s) := by
  have silenced : ∀ c x, SeqMoves true b s ((s.setCfg c).setLnk x) := fun _ _ => .of_seq rfl
  exact .ite (fun _ => doReset_moves ..) fun _ => (silenced ..).trans (takeFault_moves ..)

/-- A frame of another node through the checks and to its owner (R181 to R183). -/
theorem hearOther_moves (k : FrameKind) (bs : List Byte) (s : State) : SeqMoves true true s (hearOther k bs s) := by
  have heard : SeqMoves true true s (hearFrame s) := .of_seq rfl
  have delivered : ∀ u, SeqMoves true true u (deliver k bs u) := fun u => by
    cases k with
    | stop => exact takeStop_moves u
    | order => exact takeOrder_moves ..
    | answer => exact .refl u
    | demand => exact takeDemand_moves ..
    | notice => exact .refl u
  have accepted : ∀ u, SeqMoves true true u (acceptFrame k bs u) := fun u =>
    .ite (fun _ => setLnk_moves ..) fun _ => .ite (fun _ => delivered u) fun _ => .refl u
  exact heard.trans (.ite (fun _ => (accepted _).then_frame (by simp)) fun _ => accepted _)

theorem endCarrier_moves (bs : List Byte) (s : State) : SeqMoves true true s (endCarrier bs s) := by
  have checked : ∀ u, SeqMoves true true u (checkFrame bs u) := fun u => by
    unfold checkFrame
    split
    · exact setLnk_moves ..
    · split
      · exact setLnk_moves ..
      · exact .ite (fun _ => findDuplicate_moves u) fun _ => hearOther_moves ..
  exact .ite (fun _ => (setLnk_moves ..).trans (checked _).settle) fun _ => setLnk_moves ..

/-! ### Every command -/

/-- An event of the part's own whose effect is carried through. -/
theorem event_moves (due : Bool) {f : State → State} (h : due = true → SeqMoves l b s (f s)) :
    SeqMoves l b s (whenDue due s (fun u => settle (f u))) := .whenDue due (.refl s) fun x => (h x).settle

end

/-- The commands that may leave FAULTED (R88, R92, R202): CLEAR_FAULT and the resets, an order that comes with its payload or in a frame, and
the end of a frame with a restart pending. -/
def leavesFaulted (c : Instr) : Bool :=
  match c with
  | .powerOn | .resetLine | .resetLineActive | .frameReceived _ | .unknownOrder _ _ | .clearFault _ | .restart _ | .frameSent
  | .echoMismatch => true
  | _ => false

/-- The commands that may begin a run (R66): START, and an order that comes with its payload or in a frame. -/
def beginsRun (c : Instr) : Bool :=
  match c with
  | .start _ | .unknownOrder _ _ | .frameReceived _ => true
  | _ => false

/-- Every command keeps HOLDING to its causes; those not named above keep FAULTED, and begin no run. -/
theorem exec_moves (c : Instr) (s : State) : ∃ t, exec c s = .next t ∧ SeqMoves (leavesFaulted c) (beginsRun c) s t := by
  have order : ∀ (m : OrderMeta) o, SeqMoves o.leavesFaulted o.beginsRun s (serve m (carryOut m.toAll o) s) := fun m o =>
    serve_moves m (carryOut_moves ..)
  have write : ∀ (m : OrderMeta) good o, SeqMoves o.leavesFaulted o.beginsRun s (serve m (ofLength good (carryOut m.toAll o)) s) :=
    fun m good o => serve_moves m (ofLength_moves good (carryOut_moves ..))
  cases c with
  -- resets and start-up
  | powerOn => exact ⟨_, rfl, doReset_moves ..⟩
  | resetLine => exact ⟨_, rfl, .ite (fun _ => .of_seq rfl) fun _ => .ite (fun _ => .refl s) fun _ => doReset_moves ..⟩
  | resetLineActive => exact ⟨_, rfl, .ite (fun _ => .refl s) fun _ => .ite (fun _ => .of_seq rfl) fun _ => doReset_moves ..⟩
  | settleEnd => exact ⟨_, rfl, event_moves _ fun _ => endSettle_moves s⟩
  -- the link
  | frameReceived bs => exact ⟨_, rfl, endCarrier_moves bs s⟩
  | demandReceived n p => exact ⟨_, rfl, event_moves _ fun _ => takeDemand_moves n p s⟩
  | stopReceived => exact ⟨_, rfl, event_moves _ fun _ => takeStop_moves s⟩
  | carrierBegins => exact ⟨_, rfl, .of_seq (by simp)⟩
  | frameSent => exact ⟨_, rfl, .whenDue _ (.refl s) fun _ => finishFrame_moves s⟩
  | echoMismatch => exact ⟨_, rfl, .whenDue _ (.refl s) fun _ => mismatchEcho_moves s⟩
  -- the orders
  | unknownOrder m p => exact ⟨_, rfl, takeOrder_moves m p s⟩
  | load m slot => exact ⟨_, rfl, order m (.load slot)⟩
  | unload m => exact ⟨_, rfl, order m .unload⟩
  | start m => exact ⟨_, rfl, order m .start⟩
  | hold m => exact ⟨_, rfl, order m .hold⟩
  | resume m => exact ⟨_, rfl, order m .resume⟩
  | abort m => exact ⟨_, rfl, order m .abort⟩
  | clearFault m => exact ⟨_, rfl, order m .clearFault⟩
  | readResult m i => exact ⟨_, rfl, order m (.readResult i)⟩
  | writeHeader m slot part bs => exact ⟨_, rfl, write m _ (.writeHeader slot part bs)⟩
  | writeStep m slot i bs => exact ⟨_, rfl, write m _ (.writeStep slot i bs)⟩
  | closeRecipe m slot => exact ⟨_, rfl, order m (.closeRecipe slot)⟩
  | eraseRecipe m slot => exact ⟨_, rfl, order m (.eraseRecipe slot)⟩
  | eraseStore m => exact ⟨_, rfl, order m .eraseStore⟩
  | lockStore m => exact ⟨_, rfl, order m .lockStore⟩
  | readRecipe m slot kind part => exact ⟨_, rfl, order m (.readRecipe slot kind part)⟩
  | sumRecipe m slot => exact ⟨_, rfl, order m (.sumRecipe slot)⟩
  | writeProfile m profile count bs => exact ⟨_, rfl, write m _ (.writeProfile profile count bs)⟩
  | diskReplaced m => exact ⟨_, rfl, order m .diskReplaced⟩
  | padReplaced m => exact ⟨_, rfl, order m .padReplaced⟩
  | queryStatus m page => exact ⟨_, rfl, order m (.queryStatus page)⟩
  | clearEvents m mask => exact ⟨_, rfl, order m (.clearEvents mask)⟩
  | restart m => exact ⟨_, rfl, order m .restart⟩
  -- the dispense unit
  | valveFeedbackFault ch p => exact ⟨_, rfl, event_moves _ fun _ => .trans (.of_seq (by simp)) (takeFault_moves ..)⟩
  | strokePulse ch =>
    have marked : SeqMoves false false s (markFlags (takeStroke ch s)) := .trans (.of_seq (takeStroke_seq ch s)) (.of_frame (by simp))
    exact ⟨_, rfl, event_moves _ fun _ => marked.trans (checkDose_moves _)⟩
  | flowmeterPulse ch => exact ⟨_, rfl, event_moves _ fun _ => .trans (.of_seq (takePulse_seq ch s)) (checkDose_moves _)⟩
  | supplyPersist =>
    exact ⟨_, rfl, event_moves _ fun due => enterHolding_moves _ (by simp) (by simp_all [persistDue, SeqState.inRun])⟩
  | pumpBlocked ch => exact ⟨_, rfl, event_moves _ fun _ => .trans (.of_seq (by simp)) (takeFault_moves ..)⟩
  -- the sequencer
  | stepStart => exact ⟨_, rfl, event_moves _ fun due => beginStep_moves (by simp_all [startDue])⟩
  | minTimeReached => exact ⟨_, rfl, event_moves _ fun _ => .trans (.of_frame (by simp)) (checkDose_moves _)⟩
  | stepLimitReached => exact ⟨_, rfl, event_moves _ fun due => reachLimit_moves (by simp_all [limitDue, SeqState.inRun])⟩
  | overpolishEnd => exact ⟨_, rfl, event_moves _ fun due => endStep_moves _ (by simp_all [overpolishDue, SeqState.inRun])⟩
  | endingComplete => exact ⟨_, rfl, event_moves _ fun due => completeEnding_moves (by simp_all [endingDue])⟩
  | abortingComplete => exact ⟨_, rfl, event_moves _ fun due => completeAbort_moves false (by simp_all [abortDone])⟩
  | abortTimeout => exact ⟨_, rfl, event_moves _ fun due => completeAbort_moves true (by simp_all [abortTimeoutDue])⟩
  -- the head and the arm
  | regulationTimeout c => exact ⟨_, rfl, event_moves _ fun _ => judgeRegulation_moves c s⟩
  | overpressure c => exact ⟨_, rfl, event_moves _ fun _ => .trans (.of_seq (by simp)) (takeFault_moves ..)⟩
  | supplyAir => exact ⟨_, rfl, event_moves _ fun _ => .trans (.of_seq (by simp)) (takeFault_moves ..)⟩
  | homeTimeout => exact ⟨_, rfl, event_moves _ fun _ => armFault_moves ..⟩
  | armPositionFault => exact ⟨_, rfl, event_moves _ fun _ => armFault_moves ..⟩
  | diskStall => exact ⟨_, rfl, event_moves _ fun _ => armFault_moves ..⟩
  -- the interlocks, the tool mode and the drives
  | lineLevelChange i high =>
    have set : ∀ u, SeqMoves false false u (setRaw i high u) := fun _ => .of_seq (by simp)
    exact ⟨_, rfl, ((takeAtOnce_moves i s).trans (set _)).trans (takeAtOnce_moves i _)⟩
  | debounceExpiry i => exact ⟨_, rfl, event_moves _ fun _ => takeLine_moves i s⟩
  | modeDecoded => exact ⟨_, rfl, event_moves _ fun _ => decodeMode_moves s⟩
  | driveTrip d =>
    exact ⟨_, rfl, .whenDue _ (.of_seq rfl) fun _ => (SeqMoves.trans (.of_seq (by simp)) (takeFault_moves ..)).settle⟩
  | driveTripRelease d => exact ⟨_, rfl, .whenDue _ (.of_seq rfl) fun _ => .of_seq (by simp)⟩
  | currentSample counts => exact ⟨_, rfl, .whenDue _ (.of_seq rfl) fun _ => .of_seq (by simp)⟩
  | modeLinesChange first second => exact ⟨_, rfl, .of_seq (by simp)⟩
  | driveFeedback d tach estimate => exact ⟨_, rfl, .of_seq (by simp)⟩
  | tachPulse d => exact ⟨_, rfl, .of_seq (by simp)⟩
  | measuredPressureChange c value => exact ⟨_, rfl, .of_seq (by simp)⟩
  -- the other events touch neither the state nor the causes, but for what is carried through
  | refreshTick | entryStale | entryRemoved | isolationBegun | derateDecrement | holdOffExpiry | nonOverlapEnd | flushDone
  | postRinseWaitEnd | postRinseDone | flowMismatch | flowRestored | supplyLowRaise | supplyLowClear | tachLost | tachRestored =>
    exact ⟨_, rfl, event_moves _ fun _ => .of_seq (by simp)⟩
  | _ => exact ⟨_, rfl, .whenDue _ (.refl s) fun _ => .of_frame (by simp)⟩

theorem tick_moves (s : State) : SeqMoves false false s (tick s) := by
  unfold tick
  split
  · exact .of_seq rfl
  · split
    · exact .of_frame ⟨rfl, rfl, rfl⟩
    · exact .of_seq rfl

theorem idle_moves (s : State) : SeqMoves false false s (idle s) := by
  unfold idle
  split
  · exact tick_moves s
  · exact .of_seq rfl
  · exact .of_seq rfl

/-- Settles O58: every command keeps HOLDING to its causes, and so does time. -/
theorem holdingExactlyWithACause : Obligations.HoldingExactlyWithACause := by
  unfold Obligations.HoldingExactlyWithACause
  intro s t caused stepped
  unfold step at stepped
  split at stepped
  · next c rest _ =>
    obtain ⟨u, executed, moves⟩ := exec_moves c (s.setPending rest)
    obtain rfl : u = t := by simpa [executed] using stepped
    exact moves.holding caused
  · obtain rfl : idle s = t := by simpa using stepped
    exact (idle_moves s).holding caused

/-- Settles O60: the commands that may leave FAULTED, and those that may begin a run. -/
theorem faultedAndRestAreLeftByOrderOnly : Obligations.FaultedAndRestAreLeftByOrderOnly := by
  unfold Obligations.FaultedAndRestAreLeftByOrderOnly
  intro s t c executed
  obtain ⟨u, executed', moves⟩ := exec_moves c s
  obtain rfl : u = t := by simpa [executed'] using executed
  refine ⟨fun faulted left => ?_, fun rest begun => ?_⟩
  · have leaves : leavesFaulted c = true := by
      rw [← Bool.not_eq_false]
      exact fun stays => left (moves.faulted stays faulted)
    cases c <;> simp_all [leavesFaulted]
  · have begins : beginsRun c = true := by
      rw [← Bool.not_eq_false]
      exact fun stays => by simp [moves.rest stays rest] at begun
    cases c <;> simp_all [beginsRun]

end Sys2Proof.Machine
end

section
/-! What the readings answer (R90, R108): O29; and WAIT_LONG (R69): O43. -/

namespace Sys2Proof.Machine

open Sys2Proof

/-! ### The readings -/

theorem slotOk_iff {n : Byte} : slotOk n = true ↔ 1 ≤ n.toNat ∧ n.toNat ≤ 16 := by simp [slotOk]

theorem slotOk_eq_false_iff {n : Byte} : slotOk n = false ↔ ¬(1 ≤ n.toNat ∧ n.toNat ≤ 16) := by
  rw [← slotOk_iff, Bool.not_eq_true]

section
variable {s : State} {m : OrderMeta} {n k i : Byte}

/-- An order refused without data changes nothing but the ANSWER queue. -/
theorem serve_refused {o : State → Reply} {c : Code} (takes : takesOrder m s = true) (refused : o s = .bare s c) :
    serve m o s = answered m (numCode c) [] s := serve_of takes refused rfl

theorem readRecipe_of_marked {marked : Bool} {contents : List Byte} (takes : takesOrder m s = true)
    (e : orderReadRecipe n k i s = readReply (s.slot n.toNat) marked contents s) :
    exec (.readRecipe m n k i) s = .next (if marked = true then
      answered m 0 ([byteOf (numSlot (s.slot n.toNat).state), 1] ++ contents) s
    else answered m 6 [byteOf (numSlot (s.slot n.toNat).state)] s) := by
  cases marked
  · exact congrArg _ (serve_of takes e rfl)
  · exact congrArg _ (serve_of takes e rfl)

theorem readRecipe_of_refused {c : Code} (takes : takesOrder m s = true) (e : orderReadRecipe n k i s = .bare s c) :
    exec (.readRecipe m n k i) s = .next (answered m (numCode c) [] s) := congrArg _ (serve_refused takes e)

theorem sumRecipe_of_refused {c : Code} (takes : takesOrder m s = true) (e : orderSumRecipe n s = .bare s c) :
    exec (.sumRecipe m n) s = .next (answered m (numCode c) [] s) := congrArg _ (serve_refused takes e)

/-- READ_RECIPE refuses a slot, a part kind or a part out of range (R108). -/
theorem orderReadRecipe_range (free : s.storeBusy = false)
    (out : slotOk n = false ∨ 1 < k.toNat ∨ (k = 0 ∧ 3 < i.toNat) ∨ (k = 1 ∧ (i = 0 ∨ 24 < i.toNat))) :
    orderReadRecipe n k i s = .bare s .range := by
  rcases out with out | out | ⟨rfl, out⟩ | ⟨rfl, rfl | out⟩
  · simp [orderReadRecipe, free, out]
  · have other : k ≠ 0#8 ∧ k ≠ 1#8 := ⟨fun x => by simp [x] at out, fun x => by simp [x] at out⟩
    simp [orderReadRecipe, free, other]
  · have other : i ≠ 0#8 := fun x => by simp [x] at out
    simp [orderReadRecipe, free, other, Nat.not_le_of_lt out]
  · simp [orderReadRecipe, free]
  · simp [orderReadRecipe, free, Nat.not_le_of_lt out]

end

/-- Settles O29: the answer of each reading, by what its operands name. -/
theorem readingsOnlyAnswer : Obligations.ReadingsOnlyAnswer := by
  unfold Obligations.ReadingsOnlyAnswer
  intro s m n i takes
  refine ⟨congrArg _ (serve_of (c := .ok) takes rfl rfl), fun k busy => ?_, fun none => ?_⟩
  · have busy : s.storeBusy = true := busy
    exact ⟨readRecipe_of_refused (c := .busy) takes (by simp [orderReadRecipe, busy]), sumRecipe_of_refused (c := .busy) takes (by simp [orderSumRecipe, busy])⟩
  have free : s.storeBusy = false := by simp [State.storeBusy, none]
  dsimp only
  refine ⟨fun slot part => ?_, fun slot low high => ?_, fun slot low high => ?_, fun k out => ?_, fun out => ?_, fun slot => ?_⟩
  · subst part
    exact readRecipe_of_marked takes (by simp [orderReadRecipe, free, slotOk_iff.2 slot, Slot.header])
  · have other : i ≠ 0#8 := fun x => by simp [x] at low
    exact readRecipe_of_marked takes (by simp [orderReadRecipe, free, slotOk_iff.2 slot, other, high])
  · exact readRecipe_of_marked takes (by simp [orderReadRecipe, free, slotOk_iff.2 slot, low, high])
  · exact readRecipe_of_refused takes (orderReadRecipe_range free (by rwa [slotOk_eq_false_iff]))
  · exact sumRecipe_of_refused (c := .range) takes (by simp [orderSumRecipe, free, slotOk_eq_false_iff.2 out])
  · have ok := slotOk_iff.2 slot
    refine ⟨fun state => ?_, fun state => ?_, fun state => congrArg _ (serve_of (c := .ok) takes ?_ rfl)⟩
    · rcases state with state | state <;> exact sumRecipe_of_refused (c := .empty) takes (by simp [orderSumRecipe, free, ok, state])
    · exact sumRecipe_of_refused (c := .corrupt) takes (by simp [orderSumRecipe, free, ok, state])
    · simp [orderSumRecipe, free, ok, state, yesNo]

/-! ### WAIT_LONG -/

/-- Settles O43: the notice is due once, while the step waits at its limit. -/
theorem waitLongIsSentOnce : Obligations.WaitLongIsSentOnce := by
  unfold Obligations.WaitLongIsSentOnce
  intro s started waiting limit
  have long : ms (1000 * s.img.waitingLimit) ≤ s.seq.waiting := by
    unfold ms
    omega
  have due : (s.started && waitLongDue s) = !s.seq.waitLongSent := by simp [waitLongDue, started, waiting, long]
  refine ⟨fun unsent => ?_, fun sent => ?_⟩ <;> change execWaitLong s = _
  · rw [execWaitLong, due, unsent]
    rfl
  · rw [execWaitLong, due, sent]
    rfl

end Sys2Proof.Machine
end

section
/-! The orders that enter a state of rest (R64, R65, R88): O22, O23 and O27. -/

namespace Sys2Proof.Machine

open Sys2Proof

/-! ### The valves shut -/

/-- Every feed valve and the DI valve are shut. -/
def AllShut (s : State) : Prop := (∀ (c : Channel) (f : Feed), ((s.chan c).valves.get f).isOpen = false) ∧ s.sdu.di.isOpen = false

/-- Valves that are shut stay shut where none opens. -/
theorem AllShut.after {s t : State} (shut : AllShut s) (opens : OpensNone s t) : AllShut t :=
  ⟨fun c f => Bool.eq_false_iff.2 fun o => Bool.eq_false_iff.1 (shut.1 c f) (opens.1 c f o),
    Bool.eq_false_iff.2 fun o => Bool.eq_false_iff.1 shut.2 (opens.2 o)⟩

theorem AllShut.congr {s t : State} (shut : AllShut s) (ch : t.sdu.ch = s.sdu.ch) (di : t.sdu.di = s.sdu.di) : AllShut t :=
  shut.after (.of_frame ch fun o => by rwa [di] at o)

theorem closeChannels_shut (s : State) : AllShut (closeChannel .additive (closeChannel .main s)) := by
  obtain ⟨main, di⟩ := closeChannel_closes .main s
  obtain ⟨additive, -⟩ := closeChannel_closes .additive (closeChannel .main s)
  obtain ⟨feeds, rinse⟩ := closeChannel_opensNone .additive (closeChannel .main s)
  refine ⟨fun c f => ?_, Bool.eq_false_iff.2 fun o => Bool.eq_false_iff.1 (di rfl) (rinse o)⟩
  cases c
  · exact Bool.eq_false_iff.2 fun o => Bool.eq_false_iff.1 (main f) (feeds .main f o)
  · exact additive f

theorem setSwitch_opensNone (c : Channel) (x : Switch) (s : State) : OpensNone s (setSwitch c x s) := .same_valves rfl

/-- The cut of the dispense unit shuts every valve (R45). -/
theorem cutDispense_shut (s : State) : AllShut (cutDispense s) :=
  (closeChannels_shut s).after (((setSwitch_opensNone ..).trans (setSwitch_opensNone ..)).trans (setPumps_opensNone _))

/-- Outside RUNNING and HOLDING no valve opens as a change is carried through. -/
theorem AllShut.settle {s : State} (shut : AllShut s) (running : s.seq.state ≠ .running) (holding : s.seq.state ≠ .holding) :
    AllShut (settle s) := by
  by_cases started : s.started = true
  · obtain ⟨-, -, -, -, -, -, -, -, di, -⟩ := settle_calm running holding
    refine ⟨fun c f => ?_, di ▸ shut.2⟩
    obtain ⟨r, chan⟩ := settle_chan_of_calm started running holding c
    rw [chan, Dispense.setRate_valves]
    exact shut.1 c f
  · rwa [settle_of_not_started (Bool.eq_false_iff.2 started)]

theorem enterRest_shut (x : SeqState) (s : State) : AllShut (enterRest x s) :=
  (cutDispense_shut (ventHead (s.setSeq { s.seq with state := x }))).congr (by simp [enterRest]) (by simp [enterRest])

/-! ### The head vented -/

theorem HeadChan.vent_state_of_sound {h : HeadChan} (sound : h.state ≠ .channelFault) : h.vent.state = .vented := by
  simp [HeadChan.vent, HeadChan.sound, sound]

/-- CLEAR_FAULT leaves no channel in CHANNEL_FAULT, and one that was has its overpressure timer at 0 (R126). -/
theorem clearChannelFaults_sound (s : State) (c : HeadCh) : ((clearChannelFaults s).head c).state ≠ .channelFault ∧
    ((s.head c).state = .channelFault → ((clearChannelFaults s).head c).overTimer = 0) := by
  have head : (clearChannelFaults s).head c =
      if (s.head c).sound then s.head c else { s.head c with state := .vented, overTimer := 0 } := PerHead.get_map ..
  rw [head]
  split
  · next sound => simp_all [HeadChan.sound]
  · simp

/-! ### LOAD, UNLOAD and CLEAR_FAULT -/

/-- What an order answered OK that enters a state of rest leaves: `u` is the state before the entry, `t` the one after the ANSWER. -/
structure EntersRest (m : OrderMeta) (x : SeqState) (u t : State) : Prop where
  seq : t.seq = { u.seq with state := x }
  hpc : t.hpc = (ventHead u).hpc
  head : ∀ c, t.head c = (u.head c).vent
  pcc : t.pcc = u.pcc
  epm : t.epm = { u.epm with state := .stopped, periodTimer := 0 }
  setpoints : ∀ d, (t.drive d).setpoint = 0
  shut : AllShut t
  answers : t.lnk.answers = (answered m 0 [] u).lnk.answers
  others : t.rcp = u.rcp ∧ t.ilk = u.ilk ∧ t.cfg = u.cfg ∧ t.pins = u.pins ∧ t.peer.table = u.peer.table ∧ t.pending = u.pending

theorem entersRest (m : OrderMeta) {x : SeqState} (running : x ≠ .running) (holding : x ≠ .holding) (u : State) :
    EntersRest m x u (answered m 0 [] (settle (enterRest x u))) := by
  obtain ⟨seq, hpc, pcc, epm, drv⟩ := settle_enterRest x running holding u
  have state : (enterRest x u).seq.state = x := by simp [enterRest]
  have shut := (enterRest_shut x u).settle (by rwa [state]) (by rwa [state])
  refine ⟨by simpa, by simpa, fun c => ?_, by simpa, by simpa, fun d => ?_, shut.congr (by simp) (by simp), answers_of (by simp) (by simp), by simp⟩
  · rw [← ventHead_head u c, State.head, (answered_keeps ..).2.1, hpc, State.head]
  · have drives : (answered m 0 [] (settle (enterRest x u))).drv = (settle (enterRest x u)).drv := by simp only [answered_keeps]
    rw [State.drive, drives, drv]
    exact stopDrives_setpoint u d

section
variable {s : State} {m : OrderMeta} {n : Byte}

/-- A refusal of LOAD for its slot, in a state in which it is taken (R64). -/
theorem orderLoad_of_state (run : s.ilk.mode ≠ .lockout) (loads : s.seq.state.loads = true) :
    orderLoad n s = if !slotOk n then .bare s .range else if s.storeBusy then .bare s .busy else
      let sl := s.slot n.toNat
      match sl.state with
      | .erased | .opened => .bare s .empty
      | .corrupt => .bare s .corrupt
      | .closed =>
        if sl.sumOf sl.stepCount = sl.sum then .bare (settle (takeCopy sl s)) .ok
        else .bare (s.setRcp (s.rcp.setSlot n.toNat { sl with state := .corrupt })) .corrupt := by
  rw [orderLoad, if_neg run, loads]
  rfl

end

theorem periodOf_of_le {x : Nat} (h : x ≤ 3) : periodOf x = 500 * 2 ^ x := by interval_cases x <;> rfl

/-- The working copy of a slot reads its header and its first steps (R64, Table 5-3). -/
theorem recipe_reads (sl : Slot) :
    let byte : Nat → Nat := fun i => (sl.part0.getD i 0).toNat
    sl.recipe.name = sl.part0.take 12 ∧ sl.recipe.threshold = byte 12 + 256 * byte 13 ∧
    (byte 14 ≤ 3 → sl.recipe.period = 500 * 2 ^ byte 14) ∧ sl.recipe.recovery = byte 15 ∧ sl.recipe.sum = sl.sum ∧
    (∀ i, i < 3 → sl.recipe.sigs.get i = readSig (sl.sigs.get i)) ∧
    ∀ i, sl.recipe.steps[i]? = if i < sl.stepCount then (sl.steps[i]?).map readStep else none := by
  refine ⟨rfl, rfl, fun code => ?_, rfl, rfl, fun i low => ?_, fun i => ?_⟩
  · exact periodOf_of_le code
  · interval_cases i <;> rfl
  · simp [Slot.recipe, List.getElem?_take]

/-- Settles O22: LOAD's checks in their order, the entry to LOADED, and what the copy reads. -/
theorem loadTakesTheCopy : Obligations.LoadTakesTheCopy := by
  unfold Obligations.LoadTakesTheCopy
  refine ⟨fun s m n takes unlocked => ⟨fun other => ?_, fun state => ?_⟩, recipe_reads⟩
  · have none : s.seq.state.loads = false := by simp_all [SeqState.loads]
    exact congrArg _ (serve_refused (c := .state) takes (by simp [orderLoad, unlocked, none]))
  have loads : s.seq.state.loads = true := by rcases state with state | state | state <;> simp [state, SeqState.loads]
  have refused : ∀ c, orderLoad n s = .bare s c → exec (.load m n) s = .next (answered m (numCode c) [] s) := fun c e =>
    congrArg _ (serve_refused takes e)
  have reply := orderLoad_of_state (n := n) unlocked loads
  refine ⟨fun out => refused .range ?_, fun low high => ⟨fun busy => refused .busy ?_, fun none => ?_⟩⟩
  · rw [reply, slotOk_eq_false_iff.2 (by omega)]
    rfl
  · rw [reply, slotOk_iff.2 ⟨low, high⟩, State.storeBusy, busy]
    rfl
  rw [slotOk_iff.2 ⟨low, high⟩, State.storeBusy, none] at reply
  refine ⟨fun state => refused .empty ?_, fun state => refused .corrupt ?_, fun state => ⟨fun agrees => ?_, fun disagrees => ?_⟩⟩
  · rw [reply]
    rcases state with state | state <;> simp [state]
  · rw [reply]
    simp [state]
  · have e : orderLoad n s = .bare (settle (takeCopy (s.slot n.toNat) s)) .ok := by
      rw [reply]
      simp [state, agrees]
    have rest := entersRest m (x := .loaded) nofun nofun
      (s.setSeq { s.seq with copy := some (s.slot n.toNat).recipe, record := [], result := .none, index := 0 })
    obtain ⟨rcp, ilk, cfg, pins, table, pending⟩ := rest.others
    obtain ⟨feeds, di⟩ := rest.shut
    refine ⟨_, congrArg Host.Outcome.next (serve_of takes e (by simp [takeCopy])), rest.seq, rest.answers.trans (answers_of rfl rfl), ?_, ?_, feeds, di,
      fun c => ?_, rest.setpoints, ?_, rcp, rest.pcc, ilk, cfg, pins, table, pending⟩
    · exact congrArg Hpc.inForce rest.hpc
    · exact congrArg Hpc.ramp rest.hpc
    · exact congrArg HeadChan.applied (rest.head c)
    · exact congrArg Epm.state rest.epm
  · have e : orderLoad n s = .bare (s.setRcp (s.rcp.setSlot n.toNat { s.slot n.toNat with state := .corrupt })) .corrupt := by
      rw [reply]
      simp [state, disagrees]
    exact congrArg _ (serve_of takes e rfl)

/-- Settles O23: the entry to EMPTY, or the refusal. -/
theorem unloadKeepsTheRecord : Obligations.UnloadKeepsTheRecord := by
  unfold Obligations.UnloadKeepsTheRecord
  intro s m takes unlocked
  refine ⟨fun state => ?_, fun loaded done => ?_⟩
  · have e : orderUnload s = .bare (settle (enterRest .empty (s.setSeq { s.seq with copy := none, index := 0 }))) .ok := by
      rw [orderUnload, if_neg unlocked, if_pos state]
    have rest := entersRest m (x := .empty) nofun nofun (s.setSeq { s.seq with copy := none, index := 0 })
    obtain ⟨rcp, ilk, cfg, pins, table, pending⟩ := rest.others
    exact ⟨_, congrArg Host.Outcome.next (serve_of takes e (by simp)), rest.seq, rest.answers.trans (answers_of rfl rfl), rcp, rest.pcc, ilk, cfg,
      pins, table, pending⟩
  · exact congrArg Host.Outcome.next (serve_refused (c := .state) takes (by simp [orderUnload, unlocked, loaded, done]))

/-- Settles O27: the entry to DONE with the channels cleared, or the refusal. -/
theorem clearFaultEntersDone : Obligations.ClearFaultEntersDone := by
  unfold Obligations.ClearFaultEntersDone
  intro s m takes unlocked
  refine ⟨fun state first later quiet => ?_, fun kept => ?_⟩
  · have clear : duplicateHeld s = false := by simp [duplicateHeld, first, later]
    have e : orderClearFault s = .bare (settle (enterRest .done (clearChannelFaults
        (s.setSeq { s.seq with first := none, later := .empty })))) .ok := by
      simp [orderClearFault, unlocked, state, clear, quiet]
    have rest := entersRest m (x := .done) nofun nofun (clearChannelFaults (s.setSeq { s.seq with first := none, later := .empty }))
    obtain ⟨rcp, ilk, cfg, pins, table, pending⟩ := rest.others
    refine ⟨_, congrArg Host.Outcome.next (serve_of takes e (by simp)), rest.seq, fun c => ?_, rest.answers.trans (answers_of rfl rfl), rcp,
      rest.pcc, ilk, cfg, pins, pending⟩
    obtain ⟨sound, timer⟩ := clearChannelFaults_sound (s.setSeq { s.seq with first := none, later := .empty }) c
    have vented := rest.head c
    exact ⟨(congrArg HeadChan.state vented).trans (HeadChan.vent_state_of_sound sound), congrArg HeadChan.applied vented,
      fun faulted => (congrArg HeadChan.overTimer vented).trans (timer faulted)⟩
  · refine congrArg Host.Outcome.next (serve_refused (c := .state) takes ?_)
    rcases kept with other | first | later | active
    · simp [orderClearFault, unlocked, other]
    · simp [orderClearFault, unlocked, duplicateHeld, first]
    · simp [orderClearFault, unlocked, duplicateHeld, later]
    · simp [orderClearFault, unlocked, active]

end Sys2Proof.Machine
end

section
/-! A TIME step at its limit, with a post-rinse that runs and with one that does not (R47, R72): O41. -/

namespace Sys2Proof.Machine

open Sys2Proof

section
variable {s : State} {st : StepRec}

/-- A post-rinse that is to run on a path in FAULT_CLOSED meets a fault (R47). -/
theorem rinse_faults (step : s.stepNow = some st) (volume : 0 < st.postRinse) (di : s.sdu.di.state = .faultClosed) :
    postRinseFault s = true := by
  have same : s.postRinse = st.postRinse := by rw [State.postRinse, step]; rfl
  simp [postRinseFault, same, volume, di]

/-- An entry to ENDING whose post-rinse meets a fault: VALVE is taken in ENDING (R47). -/
theorem enterEnding_of_fault (rinse : postRinseFault s = true) :
    ∃ u, enterEnding s = takeFault .valve u ∧
      u.seq = { s.seq with state := .ending, causes := .empty, deferred := .empty, resume := none } ∧
      u.sdu.dose = s.sdu.dose ∧ OutsideStands s u := by
  have di := (startPostRinse_stand
    (s.setSeq { s.seq with state := .ending, causes := .empty, deferred := .empty, resume := none })).di
  have same : postRinseFault (clearPersist (stopSymbolizer (liftForEnd (takeHoldLevels (startPostRinse
      (s.setSeq { s.seq with state := .ending, causes := .empty, deferred := .empty, resume := none })))))) = postRinseFault s :=
    postRinseFault_congr (by simp) (by simp) (by simpa using di)
  exact ⟨_, if_pos (same.trans rinse), by simp, by simp, by simp [OutsideStands]⟩

/-- The end of a step whose post-rinse meets a fault: the entry stands, and ENDING is left for ABORTING at once (R47, R82, R87). -/
theorem endStep_faults (r : StepResult) (started : s.started = true) (rinse : postRinseFault s = true) :
    let t := settle (endStep r s)
    t.seq.record = s.seq.record ++ [stepEntry s r] ∧ t.seq.state = .aborting ∧ t.seq.result = .faulted ∧
    t.seq.first = some .valve ∧ t.sdu.dose = s.sdu.dose ∧ OutsideStands s t := by
  have recorded := appendEntry_seq (stepEntry s r) s
  obtain ⟨u, ended, seq, dose, cfg, rcp, ilk, pins, now, free, pending, table, refresh, quiet, isolated⟩ :=
    enterEnding_of_fault (s := appendEntry (stepEntry s r) s)
      ((postRinseFault_congr (by simp) (by simp) (by simp)).trans rinse)
  have started' : u.started = true := by rw [State.started, State.inReset, cfg, pins]; simpa [State.started, State.inReset] using started
  have reported := takeFault_reported .valve started' (u := u) rfl rfl rfl ⟨rfl, rfl, rfl, rfl, rfl, rfl, rfl, rfl, rfl, rfl, rfl⟩
  rw [show settle (endStep r s) = settle (takeFault .valve u) from congrArg settle ended]
  obtain ⟨run, -, -, -, -, -, -, cfg', rcp', ilk', pins', now', free', pending', table', refresh', quiet', isolated'⟩ := reported
  obtain ⟨state, result, first, -, -, -, -, record, -⟩ := run (by simp [seq, SeqState.inRun])
  refine ⟨?_, state, result, first, by simp [dose], ?_⟩
  · rw [record]
    simp [cutOf, seq, recorded]
  · simp_all [OutsideStands]

end

/-- Settles O41: the limit of a TIME step ends it, by whether its post-rinse meets a fault. -/
theorem timeStepEndsAtItsLimit : Obligations.TimeStepEndsAtItsLimit := by
  unfold Obligations.TimeStepEndsAtItsLimit
  intro s st started running step time limit
  have taken : doseWaits s = false := Bool.eq_false_iff.2 fun waits => by simp [doseWaits_iff step, time] at waits
  have reached := stepLimitReached_spec started running step taken limit
  simp only [reachLimit, State.termination_of_step step, time] at reached
  exact ⟨fun rinse => ⟨_, reached, endStep_ends .doneTime (rinse_runs step rinse)⟩,
    fun volume di => ⟨_, reached, endStep_faults .doneTime started (rinse_faults step volume di)⟩⟩

end Sys2Proof.Machine
end

section
/-! HOLD, ABORT and a received STOP by the sequencer's state (R77, R84, R85): O18 and O25. -/

namespace Sys2Proof.Machine

open Sys2Proof

section
variable {s : State} {c : Cause} {target : ResumeTarget}

/-! ### A hold -/

/-- A hold of a WAITING or RUNNING step enters HOLDING with the cause added and the state left as resume target (R77). -/
theorem holdFor_of_step (enters : (s.seq.state = .waiting ∧ target = ResumeTarget.waiting) ∨ (s.seq.state = .running ∧ target = .running)) :
    holdFor c s = enterHolding target (s.seq.causes.add c) s := by
  rcases enters with ⟨state, rfl⟩ | ⟨state, rfl⟩ <;> simp only [holdFor, state]

theorem holdFor_of_holding (state : s.seq.state = .holding) :
    holdFor c s = s.setSeq { s.seq with causes := s.seq.causes.add c } := by simp only [holdFor, state]

theorem holdFor_of_ending (state : s.seq.state = .ending) :
    holdFor c s = s.setSeq { s.seq with deferred := s.seq.deferred.add c } := by simp only [holdFor, state]

theorem holdFor_of_rest (state : s.seq.state.inRun = false) : holdFor c s = s := by
  unfold holdFor
  split <;> simp_all [SeqState.inRun]

theorem CauseSet.notForSlurry_add {v : CauseSet} (c : Cause) (stays : c ≠ .share ∧ c ≠ .supply) : (v.add c).notForSlurry = true := by
  cases c <;> simp_all [CauseSet.notForSlurry, CauseSet.add, CauseSet.put]

/-- A hold for a cause that SDU cannot withdraw, carried through: of SEQ the state, the causes and the resume target change, and neither
drive (R77, R79). -/
theorem enterHolding_settled {causes : CauseSet} (started : s.started = true) (stays : causes.notForSlurry = true) :
    let t := settle (enterHolding target causes s)
    t.seq = { s.seq with
      state := .holding, resume := some target
      causes := { causes with share := t.seq.causes.share, supply := causes.supply && anyLow (enterHolding target causes s) } } ∧
    t.drv = s.drv := by
  have seq := enterHolding_seq target causes s
  have started' : (enterHolding target causes s).started = true := by simpa [State.started, State.inReset] using started
  obtain ⟨seq', -, -, -, drv, -⟩ := settle_stays started' (by rw [seq]) (.inl (by rwa [seq]))
  rw [seq] at seq'
  exact ⟨seq', by simp [drv]⟩

/-- A cause added in HOLDING, carried through: SHARE and SUPPLY may leave the set, and nothing else moves (R77). -/
theorem holdFor_holding_settled (started : s.started = true) (state : s.seq.state = .holding) (stays : c ≠ .share ∧ c ≠ .supply) :
    let t := settle (holdFor c s)
    t.seq = { s.seq with causes := { s.seq.causes.add c with
      share := t.seq.causes.share, supply := (s.seq.causes.add c).supply && anyLow s } } ∧
    t.hpc = s.hpc ∧ t.pcc = s.pcc ∧ t.drv = s.drv ∧ t.lnk.notices = s.lnk.notices := by
  rw [holdFor_of_holding state]
  obtain ⟨seq, hpc, pcc, -, drv, notices, -⟩ := settle_stays (s := s.setSeq { s.seq with causes := s.seq.causes.add c }) started state
    (.inl (CauseSet.notForSlurry_add c stays))
  exact ⟨seq, hpc, pcc, drv, notices⟩

/-- A cause that comes in ENDING waits in the deferred set (R77, R83). -/
theorem holdFor_ending_settled (state : s.seq.state = .ending) :
    let t := settle (holdFor c s)
    t.seq = { s.seq with deferred := s.seq.deferred.add c } ∧ t.hpc = s.hpc ∧ t.pcc = s.pcc ∧ t.epm = s.epm ∧ t.drv = s.drv ∧
    t.lnk.notices = s.lnk.notices := by
  rw [holdFor_of_ending state]
  obtain ⟨seq, hpc, pcc, epm, drv, notices, -⟩ := settle_calm (s := s.setSeq { s.seq with deferred := s.seq.deferred.add c })
    (by simp [state]) (by simp [state])
  exact ⟨seq, hpc, pcc, epm, drv, notices⟩

/-! ### An abort -/

theorem abortRun_of_run {r : RunResult} (run : s.seq.state.inRun = true) : abortRun r s = enterAborting r s := if_pos run

theorem abortRun_of_rest {r : RunResult} (rest : s.seq.state.inRun = false) : abortRun r s = s := if_neg (by simp [rest])

theorem enterAborting_shut (r : RunResult) (s : State) : AllShut (enterAborting r s) := by
  have ended : ∀ u, AllShut (clearPersist (stopSymbolizer (stopDrives (liftForEnd (cutDispense u))))) := fun u =>
    (cutDispense_shut u).congr (by simp) (by simp)
  exact ended _

end

/-- What ABORTING leaves of a run, carried through (R84, R85). -/
structure Aborts (r : RunResult) (s t : State) : Prop where
  seq : t.seq = { s.seq with
    state := .aborting, causes := .empty, deferred := .empty, resume := none, result := r, abortTimer := some 0, record := t.seq.record }
  setpoints : ∀ d, (t.drive d).setpoint = 0
  vented : ∀ c, (t.head c).applied = 0
  shut : AllShut t
  stopped : t.epm.state = .stopped
  lifted : t.pcc.resume = none
  cuts : CutsStep s t
  answers : t.lnk.answers = s.lnk.answers
  stands : OutsideStands s t

theorem enterAborting_aborts (r : RunResult) (s : State) : Aborts r s (settle (enterAborting r s)) := by
  have seq := enterAborting_seq r s
  have calm : (enterAborting r s).seq.state ≠ .running ∧ (enterAborting r s).seq.state ≠ .holding := by rw [seq]; exact ⟨nofun, nofun⟩
  obtain ⟨seq', hpc, pcc, epm, drv, notices, lost, -⟩ := settle_calm calm.1 calm.2
  refine ⟨by rw [seq']; exact seq, fun d => ?_, fun c => ?_, (enterAborting_shut r s).settle calm.1 calm.2, ?_, ?_, ?_, by simp, ?_⟩
  · rw [State.drive, drv]
    exact enterAborting_setpoint r s d
  · rw [State.head, hpc, enterAborting_hpc]
    exact congrArg HeadChan.applied (ventHead_head s c)
  · rw [epm]
    simp [enterAborting, stopSymbolizer]
  · rw [pcc]
    simp [enterAborting, liftForEnd]
  · exact (enterAborting_cuts r s).congr rfl rfl rfl rfl (by rw [seq']) notices lost
  · simp [OutsideStands]

/-! ### A received STOP -/

theorem stopReceived_spec {s : State} (started : s.started = true) : exec .stopReceived s = .next (settle (takeStop s)) :=
  congrArg Host.Outcome.next (if_pos started)

theorem takeStop_of_hold {s : State} (reaction : s.img.stopReaction = .hold) : takeStop s = holdFor .stop s := by
  simp only [takeStop, reaction]

theorem takeStop_of_abort {s : State} (reaction : s.img.stopReaction = .abort) : takeStop s = abortRun .stopped s := by
  simp only [takeStop, reaction]

/-- Settles O18: the reaction HOLD by state, then the reaction ABORT. -/
theorem stopReceivedHoldsOrAborts : Obligations.StopReceivedHoldsOrAborts := by
  unfold Obligations.StopReceivedHoldsOrAborts
  intro s started
  rw [stopReceived_spec started]
  refine ⟨fun reaction => ?_, fun reaction => ?_⟩
  · rw [takeStop_of_hold reaction]
    refine ⟨fun target enters => ⟨_, rfl, ?_⟩, fun state => ⟨_, rfl, ?_⟩, fun state => ⟨_, rfl, ?_⟩, fun rest => by rw [holdFor_of_rest rest]⟩
    · obtain ⟨seq, -⟩ := enterHolding_settled (s := s) (target := target) started
        (CauseSet.notForSlurry_add (v := s.seq.causes) .stop ⟨nofun, nofun⟩)
      rw [holdFor_of_step enters, seq]
      refine ⟨rfl, rfl, rfl, rfl, rfl, ?_⟩
      simp
    · obtain ⟨seq, hpc, pcc, drv, notices⟩ := holdFor_holding_settled (c := .stop) started state ⟨nofun, nofun⟩
      rw [seq]
      exact ⟨state, rfl, rfl, hpc, pcc, drv, notices, by simp, by simp, by simp⟩
    · obtain ⟨seq, hpc, pcc, -, -, notices⟩ := holdFor_ending_settled (c := .stop) state
      exact ⟨seq, hpc, pcc, notices, by simp, by simp, by simp⟩
  · rw [takeStop_of_abort reaction]
    refine ⟨fun run => ⟨_, rfl, ?_⟩, fun rest => by rw [abortRun_of_rest rest]⟩
    rw [abortRun_of_run run]
    have aborts := enterAborting_aborts .stopped s
    have cuts := aborts.cuts
    rw [aborts.seq]
    exact ⟨rfl, rfl, rfl, rfl, rfl, cuts, by simp, by simp, by simp⟩

/-! ### HOLD and ABORT -/

section
variable {s : State} {m : OrderMeta}

/-- An order is taken by a started part alone. -/
theorem started_of_takesOrder (takes : takesOrder m s = true) : s.started = true := by
  simp only [takesOrder, Bool.and_eq_true] at takes
  exact takes.1.1.1.1

/-- An order answered OK with the state `t`, its queue of ANSWERs that of an answer to `s`. -/
theorem answered_answers {t : State} (answers : t.lnk.answers = s.lnk.answers) (cfg : t.cfg = s.cfg) :
    (answered m 0 [] t).lnk.answers = (answered m 0 [] s).lnk.answers := answers_of answers cfg

theorem answered_lost (m : OrderMeta) (c : Nat) (d : List Byte) (s : State) : (answered m c d s).lnk.lost = s.lnk.lost := by
  unfold answered
  split <;> rfl

theorem hold_taken (takes : takesOrder m s = true) (unlocked : s.ilk.mode ≠ .lockout)
    (state : s.seq.state = .waiting ∨ s.seq.state = .running ∨ s.seq.state = .ending) :
    exec (.hold m) s = .next (answered m 0 [] (settle (holdFor .ordered s))) := by
  have e : orderHold s = .bare (settle (holdFor .ordered s)) .ok := by rw [orderHold, if_neg unlocked, if_pos state]
  exact congrArg Host.Outcome.next (serve_of takes e (by simp))

theorem abort_taken (takes : takesOrder m s = true) (unlocked : s.ilk.mode ≠ .lockout) (run : s.seq.state.inRun = true) :
    exec (.abort m) s = .next (answered m 0 [] (settle (enterAborting .aborted s))) := by
  have e : orderAbort s = .bare (settle (enterAborting .aborted s)) .ok := by
    rw [orderAbort, if_neg unlocked, if_pos run, abortRun_of_run run]
  exact congrArg Host.Outcome.next (serve_of takes e (by simp))

end

/-- Settles O25: HOLD by state, then ABORT by state. -/
theorem holdAndAbort : Obligations.HoldAndAbort := by
  unfold Obligations.HoldAndAbort
  refine ⟨fun s m takes unlocked => ⟨fun target enters => ?_, fun state => ?_, fun other => ?_⟩,
    fun s m takes unlocked => ⟨fun run => ?_, fun state => ?_, fun rest => ?_⟩⟩
  · have state : s.seq.state = .waiting ∨ s.seq.state = .running ∨ s.seq.state = .ending := by
      rcases enters with ⟨state, -⟩ | ⟨state, -⟩ <;> simp [state]
    refine ⟨_, hold_taken takes unlocked state, ?_⟩
    obtain ⟨seq, drv⟩ := enterHolding_settled (s := s) (target := target) (started_of_takesOrder takes)
      (CauseSet.notForSlurry_add (v := s.seq.causes) .ordered ⟨nofun, nofun⟩)
    rw [holdFor_of_step enters, (answered_keeps ..).1, seq]
    refine ⟨rfl, rfl, rfl, rfl, rfl, rfl, rfl, by simp, by simpa using drv, answered_answers (by simp) (by simp), ?_⟩
    simp
  · refine ⟨_, hold_taken takes unlocked (.inr (.inr state)), ?_⟩
    obtain ⟨seq, hpc, pcc, epm, drv, -⟩ := holdFor_ending_settled (c := .ordered) state
    refine ⟨(answered_keeps ..).1.trans seq, answered_answers (by simp) (by simp), ?_⟩
    simp [hpc, pcc, epm, drv]
  · have e : orderHold s = .bare s .state := by simp_all [orderHold]
    exact congrArg Host.Outcome.next (serve_refused takes e)
  · refine ⟨_, abort_taken takes unlocked run, ?_⟩
    have aborts := enterAborting_aborts .aborted s
    obtain ⟨cfg, rcp, ilk, pins, -, -, pending, table, -⟩ := aborts.stands
    obtain ⟨feeds, di⟩ := aborts.shut.congr (t := answered m 0 [] (settle (enterAborting .aborted s))) (by simp) (by simp)
    have cuts := aborts.cuts.congr (t := answered m 0 [] (settle (enterAborting .aborted s))) rfl rfl rfl rfl (by simp) (by simp)
      (answered_lost ..)
    rw [(answered_keeps ..).1, aborts.seq]
    refine ⟨rfl, rfl, rfl, rfl, rfl, rfl, rfl, rfl, rfl, fun d => ?_, fun c => ?_, feeds, di, ?_, ?_, cuts,
      answered_answers aborts.answers cfg, ?_⟩
    · simpa [State.drive] using aborts.setpoints d
    · simpa [State.head] using aborts.vented c
    · simpa using aborts.stopped
    · simpa using aborts.lifted
    · simp
  · have e : orderAbort s = .bare s .ok := by simp [orderAbort, unlocked, state, SeqState.inRun]
    exact congrArg Host.Outcome.next (serve_refused takes e)
  · have e : orderAbort s = .bare s .state := by
      revert rest
      cases state : s.seq.state <;> simp [orderAbort, unlocked, state, SeqState.inRun, SeqState.atRest]
    exact congrArg Host.Outcome.next (serve_refused takes e)

end Sys2Proof.Machine
end

section
/-! The faults of the arm (R143): O50. -/

namespace Sys2Proof.Machine

open Sys2Proof

section
variable {s : State} {c : ArmCause}

/-- The notice queue does not read PCC. -/
theorem placeNotice_setPcc (n : Nat) (b : List Byte) (p : Pcc) (s : State) :
    placeNotice n b (s.setPcc p) = (placeNotice n b s).setPcc p := by
  have silent : (s.setPcc p).silent = s.silent := rfl
  have lnk : (s.setPcc p).lnk = s.lnk := rfl
  unfold placeNotice
  rw [silent, lnk]
  split
  · rfl
  · split <;> rfl

/-- PCC after an arm fault: raised and LOST where it stands, the home state as it stood (R143, log entry 47). -/
def lostPcc (s : State) : Pcc :=
  { s.pcc with
    downforce := 0, arm := .lost, resume := none, search := none
    withdrawn := s.pcc.withdrawn || s.seq.state == .running || (s.seq.state == .holding && s.seq.resume == some .running)
    condLost := true, positionTimer := 0, stallTimer := 0 }

theorem loseArm_eq (c : ArmCause) (s : State) :
    loseArm c s = (placeNotice 16 (byteOf (numArmCause c) :: le2 (s.pins.armFeedback / 1000000)) s).setPcc (lostPcc s) := by
  have lost : lostPcc s = { s.pcc with
      downforce := 0, arm := .lost, resume := none, search := none, withdrawn := s.pcc.withdrawn || withdraws s
      condLost := true, positionTimer := 0, stallTimer := 0 } := by simp only [lostPcc, withdraws, Bool.or_assoc]
  rw [lost, ← placeNotice_setPcc]
  rfl

theorem loseArm_conditionsPad (c : ArmCause) (s : State) : conditionsPad (loseArm c s) = conditionsPad s := by
  simp [conditionsPad, State.stepNow]

/-! ### The sequencer's part, by state (R70, R89) -/

theorem armFault_of_running (state : s.seq.state = .running) : armFault c s = flagCondLost (loseArm c s) := by
  have state' : (loseArm c s).seq.state = .running := by simp [state]
  simp only [armFault, state']

theorem armFault_of_holding (state : s.seq.state = .holding) : armFault c s = (loseArm c s).setSeq { s.seq with
    flags := { s.seq.flags with condLost := true }
    causes := if s.seq.resume = some .waiting ∧ conditionsPad s = true then { s.seq.causes with conditioner := true } else s.seq.causes } := by
  have state' : (loseArm c s).seq.state = .holding := by simp [state]
  have pad : conditionsPad (flagCondLost (loseArm c s)) = conditionsPad s := by simp [conditionsPad, State.stepNow]
  have flagged : (flagCondLost (loseArm c s)).seq = { s.seq with flags := { s.seq.flags with condLost := true } } := by simp [flagCondLost]
  simp only [armFault, state', pad, flagged, Bool.and_eq_true, beq_iff_eq]
  split
  · rfl
  · simp only [flagCondLost, loseArm_keeps]

theorem armFault_of_waiting (state : s.seq.state = .waiting) (pad : conditionsPad s = true) :
    armFault c s = enterHolding .waiting { s.seq.causes with conditioner := true } (loseArm c s) := by
  have state' : (loseArm c s).seq.state = .waiting := by simp [state]
  have causes : (loseArm c s).seq.causes = s.seq.causes := by simp
  simp only [armFault, state', loseArm_conditionsPad, pad, if_true, causes]
  rfl

theorem armFault_of_other (running : s.seq.state ≠ .running) (holding : s.seq.state ≠ .holding)
    (waiting : s.seq.state ≠ .waiting ∨ conditionsPad s = false) : armFault c s = loseArm c s := by
  have pad := loseArm_conditionsPad c s
  unfold armFault
  dsimp only
  split <;> simp_all

/-- Outside a WAITING that conditions, the sequencer's part is within SEQ. -/
theorem armFault_within_seq (c : ArmCause) (waiting : s.seq.state ≠ .waiting ∨ conditionsPad s = false) :
    ∃ q, armFault c s = (loseArm c s).setSeq q := by
  by_cases running : s.seq.state = .running
  · exact ⟨_, armFault_of_running running⟩
  by_cases holding : s.seq.state = .holding
  · exact ⟨_, armFault_of_holding holding⟩
  · exact ⟨(loseArm c s).seq, armFault_of_other running holding waiting⟩

/-- An entry to HOLDING leaves an arm that is not out (R135). -/
theorem enterHolding_pcc_of_in {t : ResumeTarget} {causes : CauseSet} (lowered : s.armOut = false) :
    (enterHolding t causes s).pcc = s.pcc := by
  have lift : ∀ u : State, u.pcc = s.pcc → (liftForHold u).pcc = s.pcc := fun u same => by
    have lowered' : u.armOut = false := by rw [State.armOut, same]; exact lowered
    rw [liftForHold, if_neg (by simp [lowered']), same]
  simpa [enterHolding] using lift _ (by simp)

theorem armFault_pcc (c : ArmCause) (s : State) : (armFault c s).pcc = lostPcc s := by
  have lost : (loseArm c s).pcc = lostPcc s := by rw [loseArm_eq, State.setPcc_pcc]
  by_cases waiting : s.seq.state = .waiting ∧ conditionsPad s = true
  · rw [armFault_of_waiting waiting.1 waiting.2, enterHolding_pcc_of_in, lost]
    rw [State.armOut, lost]
    rfl
  · obtain ⟨q, e⟩ := armFault_within_seq c (s := s) (by rwa [← Bool.not_eq_true, ← not_and_or])
    rw [e, State.setSeq_pcc, lost]

end

/-- An arm fault as R70, R89 and R143 give it, before it is carried through: `cause` is its number in the notice. -/
def ArmLost (cause : Byte) (s u : State) : Prop :=
  u.pcc = lostPcc s ∧
  (s.seq.state = .running → u.seq = { s.seq with flags := { s.seq.flags with condLost := true } }) ∧
  (s.seq.state = .holding → u.seq.state = .holding ∧ u.seq.flags = { s.seq.flags with condLost := true } ∧
    u.seq.causes = (if s.seq.resume = some .waiting ∧ conditionsPad s = true then
      { s.seq.causes with conditioner := true } else s.seq.causes)) ∧
  (s.seq.state = .waiting → conditionsPad s = true → u.seq.state = .holding ∧
    u.seq.causes = { s.seq.causes with conditioner := true } ∧ u.seq.resume = some .waiting) ∧
  (s.seq.state ≠ .running → s.seq.state ≠ .holding → s.seq.state ≠ .waiting ∨ conditionsPad s = false → u.seq = s.seq) ∧
  (s.seq.state ≠ .waiting ∨ conditionsPad s = false →
    u = { placeNotice 16 (cause :: le2 (s.pins.armFeedback / 1000000)) s with pcc := u.pcc, seq := u.seq }) ∧
  u.sdu.dose = s.sdu.dose ∧ u.drv = s.drv ∧ u.lnk.answers = s.lnk.answers ∧ OutsideStands s u

theorem armFault_lost (c : ArmCause) (s : State) : ArmLost (byteOf (numArmCause c)) s (armFault c s) := by
  refine ⟨armFault_pcc c s, fun state => ?_, fun state => ?_, fun state pad => ?_, fun running holding waiting => ?_, fun waiting => ?_,
    by simp, by simp, by simp, by simp [OutsideStands]⟩
  · rw [armFault_of_running state]
    simp [flagCondLost]
  · rw [armFault_of_holding state]
    exact ⟨state, rfl, rfl⟩
  · rw [armFault_of_waiting state pad, enterHolding_seq]
    exact ⟨rfl, rfl, rfl⟩
  · rw [armFault_of_other running holding waiting]
    simp
  · obtain ⟨q, e⟩ := armFault_within_seq c waiting
    rw [e, loseArm_eq]
    rfl

theorem armEvent_lost {c : ArmCause} {s : State} {i : Instr} {due : Bool} (started : s.started = true) (now : due = true)
    (e : exec i s = .next (whenDue (s.started && due) s fun u => settle (armFault c u))) :
    ∃ u, exec i s = .next (settle u) ∧ ArmLost (byteOf (numArmCause c)) s u :=
  ⟨armFault c s, by rw [e, started, now]; rfl, armFault_lost c s⟩

/-- Settles O50: the three faults of the arm. -/
theorem armFaultsLoseTheArm : Obligations.ArmFaultsLoseTheArm := by
  unfold Obligations.ArmFaultsLoseTheArm
  intro s started
  refine ⟨fun a search time => armEvent_lost (c := .home) started ?_ rfl, fun arm home time => armEvent_lost (c := .position) started ?_ rfl,
    fun arm time => armEvent_lost (c := .stall) started ?_ rfl⟩
  · rw [homeTimeoutDue, search]
    exact decide_eq_true time
  · have watched : positionWatched s = true := by
      unfold positionWatched
      split <;> simp_all
    rw [positionDue, watched]
    exact decide_eq_true time
  · rw [stallDue, arm]
    exact decide_eq_true time

end Sys2Proof.Machine
end

section
/-! The endpoint monitor: the window, the matchers, a period expiry and the step's own match (R74, R147 to R161): O52. -/

namespace Sys2Proof.Machine

open Sys2Proof

/-! ### The matchers, by what an expiry brings -/

section
variable {sig : List Elem} {r : Nat} {armed : Bool} {new : Option Beginning} {duration : Nat} {m : Matcher}

/-- An armed matcher without recovery meets the new symbol (R154). -/
theorem moveMatcher_beginning (used : sig ≠ []) (recovered : m.recovery = 0) (b : Beginning) :
    moveMatcher sig r true (some b) duration m = onBeginning sig r m.p b := by simp [moveMatcher, used, recovered]

/-- With no new symbol it meets the duration of the current one (R154). -/
theorem moveMatcher_duration (used : sig ≠ []) (recovered : m.recovery = 0) :
    moveMatcher sig r true none duration m = onDuration sig r m.p duration := by simp [moveMatcher, used, recovered]

theorem Matcher.eq_of_recovered (recovered : m.recovery = 0) : (⟨m.p, 0⟩ : Matcher) = m := by rw [← recovered]

/-- An ended symbol is outside its element's bounds (R155). -/
theorem outOfBounds_eq_false_iff {e : Elem} {d : Nat} : outOfBounds e d = false ↔ e.min ≤ d ∧ (e.max = 0 ∨ d ≤ e.max) := by
  simp only [outOfBounds, Bool.or_eq_false_iff, Bool.and_eq_false_iff, decide_eq_false_iff_not]
  omega

theorem advance_eq (sig : List Elem) (p : Nat) :
    advance sig (p + 1) = ⟨⟨p + 1, 0⟩, decide (p + 1 = sig.length ∧ (elemAt sig p).min = 0)⟩ := by
  simp [advance, Bool.decide_and, beq_eq_decide]

variable {b : Beginning} {p : Nat}

theorem onBeginning_first_other (other : (elemAt sig 0).symbol ≠ b.symbol) : onBeginning sig r 0 b = ⟨⟨0, 0⟩, false⟩ := by
  simp [onBeginning, other]

theorem onBeginning_first (same : (elemAt sig 0).symbol = b.symbol) : onBeginning sig r 0 b = advance sig 1 := by
  simp [onBeginning, same]

theorem onBeginning_next (later : 1 ≤ p) (short : p < sig.length) (inside : outOfBounds (elemAt sig (p - 1)) b.ended = false)
    (same : (elemAt sig p).symbol = b.symbol) : onBeginning sig r p b = advance sig (p + 1) := by
  simp [onBeginning, Nat.ne_of_gt later, short, inside, same]

theorem onBeginning_wrong (later : 1 ≤ p) (short : p < sig.length)
    (wrong : outOfBounds (elemAt sig (p - 1)) b.ended = true ∨ (elemAt sig p).symbol ≠ b.symbol) :
    onBeginning sig r p b = wrongEvent r := by
  rw [onBeginning, if_neg (Nat.ne_of_gt later), if_pos short]
  rcases wrong with out | other
  · rw [if_pos out]
  · rw [if_neg other, ite_self]

theorem onBeginning_pending (later : p ≠ 0) (full : sig.length ≤ p) :
    onBeginning sig r p b = if (elemAt sig (p - 1)).min ≤ b.ended then ⟨⟨p, 0⟩, true⟩ else wrongEvent r := by
  rw [onBeginning, if_neg later, if_neg (Nat.not_lt.2 full)]

theorem onDuration_short (later : 1 ≤ p) (short : p < sig.length) : onDuration sig r p duration =
    if 0 < (elemAt sig (p - 1)).max ∧ (elemAt sig (p - 1)).max < duration then wrongEvent r else ⟨⟨p, 0⟩, false⟩ := by
  simp [onDuration, Nat.ne_of_gt later, short]

theorem onDuration_pending (later : p ≠ 0) (full : sig.length ≤ p) :
    onDuration sig r p duration = ⟨⟨p, 0⟩, decide ((elemAt sig (p - 1)).min ≤ duration)⟩ := by
  rw [onDuration, if_neg later, if_neg (Nat.not_lt.2 full)]

end

/-- A completed match resets all three matchers (R159). -/
theorem matchersAfter_eq (v : PerSig Moved) : matchersAfter v =
    if v.s0.complete = true ∨ v.s1.complete = true ∨ v.s2.complete = true then ⟨⟨0, 0⟩, ⟨0, 0⟩, ⟨0, 0⟩⟩
    else ⟨v.s0.after, v.s1.after, v.s2.after⟩ := by
  simp only [matchersAfter, anyComplete, Bool.or_eq_true, or_assoc]
  rfl

/-! ### A sample -/

/-- A full window drops its oldest sample (R147). -/
theorem pushSample_full {w : List Nat} {x : Nat} (full : w.length = 16) : pushSample w x = w.tail ++ [x] := by
  simp [pushSample, full]

theorem pushSample_short {w : List Nat} {x : Nat} (short : w.length < 16) : pushSample w x = w ++ [x] := by
  simp [pushSample, Nat.not_le.2 short]

/-! ### A period expiry -/

section
variable {s : State} {e : EpmSettings}

/-- The symbol of an expiry (R150). -/
def symbolOf (s : State) (e : EpmSettings) : Symbol := classify s.epm.previous (average s.epm.window) e.threshold

theorem durationNow_eq (s : State) : durationNow s = (s.epm.current.map (fun x => s.epm.count + 1 - x.2)).getD 0 := by
  unfold durationNow
  split
  · next h => simp [h]
  · next h => simp [h]

/-- In CLASSIFYING a symbol begins where the current one differs; it ends one that lasted its duration (R150, R151). -/
theorem newSymbol_eq (s : State) (e : EpmSettings) : newSymbol s e =
    if s.epm.state = .classifying ∧ s.epm.current.map Prod.fst ≠ some (symbolOf s e) then some ⟨symbolOf s e, durationNow s⟩ else none := by
  unfold newSymbol durationNow
  by_cases state : s.epm.state = .classifying
  · rw [if_pos state]
    cases current : s.epm.current with
    | none => simp [beginning, state, symbolOf]
    | some x => by_cases same : x.1 = symbolOf s e <;> simp_all [beginning, symbolOf]
  · simp [state]

theorem symbolAfter_of_reference (state : s.epm.state = .reference) : symbolAfter s e = s.epm.current := by
  simp [symbolAfter, newSymbol, state]

theorem symbolAfter_of_classifying (state : s.epm.state = .classifying) : symbolAfter s e =
    if s.epm.current.map Prod.fst = some (symbolOf s e) then s.epm.current else some (symbolOf s e, s.epm.count + 1) := by
  rw [symbolAfter, newSymbol_eq]
  by_cases same : s.epm.current.map Prod.fst = some (symbolOf s e) <;> simp [state, same]

/-! ### The notices and the report of an expiry -/

/-- A notice placed moves LNK alone. -/
theorem placeNotice_eq_setLnk (n : Nat) (b : List Byte) (s : State) : placeNotice n b s = s.setLnk (placeNotice n b s).lnk := by
  unfold placeNotice
  split
  · rfl
  · split <;> rfl

theorem matchNotices_eq_setLnk (v : PerSig Moved) (e : EpmSettings) (s : State) :
    matchNotices v e s = s.setLnk (matchNotices v e s).lnk := by
  have one : ∀ (x : Bool) i u, (if x then matchNotice i e u else u) = u.setLnk (if x then matchNotice i e u else u).lnk := fun x i u => by
    cases x
    · rfl
    · exact placeNotice_eq_setLnk ..
  unfold matchNotices
  dsimp only
  rw [one v.s0.complete 0 s, one v.s1.complete 1, one v.s2.complete 2]
  rfl

theorem takeMatch_eq_setSeq (s : State) : takeMatch s = s.setSeq (takeMatch s).seq := by
  unfold takeMatch
  split
  · rfl
  · split <;> rfl

/-- A completed matcher's notice, placed in LNK (R161). -/
def notifyMatch (s : State) (e : EpmSettings) (i : Nat) (x : Moved) (u : State) : State :=
  if x.complete = true then
    placeNotice 17 ([byteOf i, byteOf s.seq.index] ++ le2 (s.seq.elapsed / 100000) ++ [if e.sigIndex = some i then 1 else 0]) u
  else u

theorem matchNotices_lnk (v : PerSig Moved) (e : EpmSettings) {s u : State} (seq : u.seq = s.seq) (lnk : u.lnk = s.lnk)
    (cfg : u.cfg = s.cfg) :
    (matchNotices v e u).lnk = (notifyMatch s e 2 v.s2 (notifyMatch s e 1 v.s1 (notifyMatch s e 0 v.s0 s))).lnk := by
  have one : ∀ (x : Moved) i (y y' : State), y.seq = s.seq → y.lnk = y'.lnk → y.cfg = y'.cfg →
      (if x.complete then matchNotice i e y else y).seq = s.seq ∧
      (if x.complete then matchNotice i e y else y).lnk = (notifyMatch s e i x y').lnk ∧
      (if x.complete then matchNotice i e y else y).cfg = (notifyMatch s e i x y').cfg := fun x i y y' seq lnk cfg => by
    unfold notifyMatch
    split
    · refine ⟨by simpa using seq, ?_, by simpa using cfg⟩
      rw [matchNotice, placeNotice_lnk_congr lnk cfg, seq]
      simp [yesNo, inTenths]
    · exact ⟨seq, lnk, cfg⟩
  obtain ⟨seq0, lnk0, cfg0⟩ := one v.s0 0 u s seq lnk cfg
  obtain ⟨seq1, lnk1, cfg1⟩ := one v.s1 1 _ _ seq0 lnk0 cfg0
  exact (one v.s2 2 _ _ seq1 lnk1 cfg1).2.1

/-- The step's own match sets the endpoint and the overpolish end, once and in RUNNING (R74). -/
theorem takeMatch_sets {st : StepRec} (step : s.stepNow = some st) (endpoint : st.termination = .endpoint)
    (running : s.seq.state = .running) (first : s.seq.endpoint = none) : (takeMatch s).seq = { s.seq with
      endpoint := some (s.seq.elapsed / 100000), overEnd := some (s.seq.elapsed / 100000 + st.overpolish) } := by
  simp [takeMatch, step, endpoint, running, first, inTenths]

theorem takeMatch_stands (other : s.seq.state ≠ .running ∨ s.seq.endpoint.isSome = true ∨
    ∀ st, s.stepNow = some st → st.termination ≠ .endpoint) : takeMatch s = s := by
  unfold takeMatch
  split
  · rfl
  · refine if_neg fun ⟨endpoint, running, first⟩ => ?_
    rcases other with other | found | other
    · exact other running
    · simp [first] at found
    · exact other _ ‹_› endpoint

theorem ownMatch_of_index {v : PerSig Moved} {i : Nat} (own : e.sigIndex = some i) : ownMatch v e = (v.get i).complete := by
  simp [ownMatch, own]

theorem ownMatch_of_none {v : PerSig Moved} (none_own : ∀ i, e.sigIndex = some i → (v.get i).complete = false) : ownMatch v e = false := by
  unfold ownMatch
  split
  · rfl
  · exact none_own _ ‹_›

theorem expirePeriod_eq (settings : s.epm.settings = some e) : expirePeriod s =
    if ownMatch (moveAll s e) e then takeMatch (matchNotices (moveAll s e) e (symbolStep e s))
    else matchNotices (moveAll s e) e (symbolStep e s) := by
  simp [expirePeriod, settings]

/-- An expiry moves EPM, the own step's match and LNK alone. -/
theorem expirePeriod_frame (settings : s.epm.settings = some e) : expirePeriod s = { s with
    epm := (symbolStep e s).epm, seq := (expirePeriod s).seq
    lnk := (notifyMatch s e 2 (moveAll s e).s2 (notifyMatch s e 1 (moveAll s e).s1 (notifyMatch s e 0 (moveAll s e).s0 s))).lnk } := by
  have lnk := matchNotices_lnk (moveAll s e) e (s := s) (u := symbolStep e s) rfl rfl rfl
  rw [← lnk, expirePeriod_eq settings]
  split
  · rw [takeMatch_eq_setSeq, matchNotices_eq_setLnk]
    rfl
  · rw [matchNotices_eq_setLnk]
    rfl

end

/-! ### The statement -/

theorem matcher_moves (sig : List Elem) (r : Nat) (armed : Bool) (new : Option Beginning) (duration : Nat) (m : Matcher) :
    let moved := moveMatcher sig r armed new duration m
    let wrong : Moved := ⟨⟨0, r⟩, false⟩
    let el : Nat → Elem := fun i => sig.getD i ⟨.flat, 0, 0⟩
    (sig = [] → moved = ⟨m, false⟩) ∧
    (sig ≠ [] → 0 < m.recovery → moved = ⟨⟨m.p, m.recovery - 1⟩, false⟩) ∧
    (sig ≠ [] → m.recovery = 0 → armed = false → moved = ⟨m, false⟩) ∧
    (sig ≠ [] → m.recovery = 0 → armed = true →
      (∀ b, new = some b →
        (m.p = 0 → (el 0).symbol ≠ b.symbol → moved = ⟨m, false⟩) ∧
        (m.p = 0 → (el 0).symbol = b.symbol → moved = ⟨⟨1, 0⟩, decide (sig.length = 1 ∧ (el 0).min = 0)⟩) ∧
        (1 ≤ m.p → m.p < sig.length →
          let inside := (el (m.p - 1)).min ≤ b.ended ∧ ((el (m.p - 1)).max = 0 ∨ b.ended ≤ (el (m.p - 1)).max)
          (inside → (el m.p).symbol = b.symbol →
            moved = ⟨⟨m.p + 1, 0⟩, decide (m.p + 1 = sig.length ∧ (el m.p).min = 0)⟩) ∧
          (¬inside ∨ (el m.p).symbol ≠ b.symbol → moved = wrong)) ∧
        (sig.length ≤ m.p → (el (m.p - 1)).min ≤ b.ended → moved = ⟨m, true⟩) ∧
        (sig.length ≤ m.p → b.ended < (el (m.p - 1)).min → moved = wrong)) ∧
      (new = none →
        (m.p = 0 → moved = ⟨m, false⟩) ∧
        (1 ≤ m.p → m.p < sig.length →
          (0 < (el (m.p - 1)).max → (el (m.p - 1)).max < duration → moved = wrong) ∧
          ((el (m.p - 1)).max = 0 ∨ duration ≤ (el (m.p - 1)).max → moved = ⟨m, false⟩)) ∧
        (sig.length ≤ m.p → moved = ⟨m, decide ((el (m.p - 1)).min ≤ duration)⟩))) := by
  have pending : sig ≠ [] → sig.length ≤ m.p → m.p ≠ 0 := fun used full zero => used (List.eq_nil_of_length_eq_zero (by omega))
  refine ⟨fun unused => by simp [moveMatcher, unused], fun used recovering => by simp [moveMatcher, used, recovering],
    fun used recovered unarmed => by simp [moveMatcher, used, recovered, unarmed], fun used recovered armed => ?_⟩
  have stands := Matcher.eq_of_recovered recovered
  subst armed
  refine ⟨fun b begins => ?_, fun begins => ?_⟩ <;> subst begins
  · rw [moveMatcher_beginning used recovered]
    refine ⟨fun zero other => ?_, fun zero same => ?_, fun later short => ⟨fun inside same => ?_, fun wrong => ?_⟩, fun full met => ?_,
      fun full short => ?_⟩
    · rw [← stands, zero, onBeginning_first_other other]
    · rw [zero, onBeginning_first same, advance_eq]
      simp [eq_comm, elemAt]
    · rw [onBeginning_next later short (outOfBounds_eq_false_iff.2 inside) same, advance_eq]
      rfl
    · refine onBeginning_wrong later short (wrong.imp_left fun outside => ?_)
      rw [← Bool.not_eq_false, outOfBounds_eq_false_iff]
      exact outside
    · rw [onBeginning_pending (pending used full) full, if_pos (show (elemAt sig (m.p - 1)).min ≤ b.ended from met), stands]
    · rw [onBeginning_pending (pending used full) full, if_neg (show ¬(elemAt sig (m.p - 1)).min ≤ b.ended from Nat.not_le.2 short)]
      rfl
  · rw [moveMatcher_duration used recovered]
    refine ⟨fun zero => ?_, fun later short => ⟨fun limited long => ?_, fun within => ?_⟩, fun full => ?_⟩
    · rw [← stands, zero, onDuration, if_pos rfl]
    · rw [onDuration_short later short, if_pos ⟨limited, long⟩]
      rfl
    · rw [onDuration_short later short, if_neg, stands]
      rintro ⟨limited, long⟩
      have within : (elemAt sig (m.p - 1)).max = 0 ∨ duration ≤ (elemAt sig (m.p - 1)).max := within
      omega
    · rw [onDuration_pending (pending used full) full, stands]
      rfl

theorem currentSample_spec {s : State} (held : s.cfg.held = false) (low : s.pins.supplyLow = false) (config : s.cfg.startUp ≠ .configFault)
    (x : Nat) : exec (.currentSample x) s = .next (takeSample x (s.setPins { s.pins with motorCurrent := x })) := by
  have taken : (!s.inReset && s.cfg.startUp != .configFault) = true := by simp [inReset_eq_false held low, config]
  exact congrArg Host.Outcome.next (if_pos taken)

theorem symbolPeriodExpiry_spec {s : State} {e : EpmSettings} (started : s.started = true) (settings : s.epm.settings = some e)
    (state : s.epm.state = .reference ∨ s.epm.state = .classifying) (time : 1000 * e.period ≤ s.epm.periodTimer) :
    exec .symbolPeriodExpiry s = .next (expirePeriod s) := by
  have elapsed : ms e.period ≤ s.epm.periodTimer := (Nat.mul_comm ..).trans_le time
  have due : (s.started && symbolDue s) = true := by rcases state with state | state <;> simp [started, symbolDue, settings, state, elapsed]
  exact congrArg Host.Outcome.next (if_pos due)

/-- Settles O52: the matchers, then a sample, then a period expiry. -/
theorem samplesSymbolsAndMatches : Obligations.SamplesSymbolsAndMatches := by
  unfold Obligations.SamplesSymbolsAndMatches
  refine ⟨matcher_moves, fun s => ⟨fun held low config x => ?_, fun e started settings state time => ?_⟩⟩
  · refine ⟨_, currentSample_spec held low config x, rfl, rfl, fun short => pushSample_short short, fun full => pushSample_full full⟩
  extract_lets present symbol lasted new move v notify
  have moved : moveAll s e = v := by
    have begun : newSymbol s e = new := by rw [newSymbol_eq, durationNow_eq]; rfl
    have duration : durationNow s = lasted := durationNow_eq s
    simp only [moveAll, begun, duration]
    rfl
  have frame := expirePeriod_frame settings
  rw [moved] at frame
  have epm := congrArg State.epm frame
  have lnk := congrArg State.lnk frame
  refine ⟨_, symbolPeriodExpiry_spec started settings state time, ?_, ?_, fun reference => ?_, fun classifying => ?_, ?_,
    fun i st own complete step endpoint running first => ?_, fun other => ?_, lnk⟩
  · rw [epm, lnk]
    exact frame
  · rw [epm]
    rfl
  · rw [epm]
    exact symbolAfter_of_reference reference
  · rw [epm]
    exact symbolAfter_of_classifying classifying
  · rw [epm, ← matchersAfter_eq v, ← moved]
    rfl
  · have own' : ownMatch (moveAll s e) e = true := by rw [moved, ownMatch_of_index own, complete]
    have seq : (matchNotices (moveAll s e) e (symbolStep e s)).seq = s.seq := by simp [symbolStep]
    have step' : (matchNotices (moveAll s e) e (symbolStep e s)).stepNow = some st := (State.stepNow_congr (by rw [seq]) (by rw [seq])).trans step
    rw [expirePeriod_eq settings, if_pos own', takeMatch_sets step' endpoint (by rw [seq, running]) (by rw [seq, first]), seq]
  · have seq : (matchNotices (moveAll s e) e (symbolStep e s)).seq = s.seq := by simp [symbolStep]
    rw [expirePeriod_eq settings]
    rcases other with unmatched | other
    · rw [if_neg (by rw [moved, ownMatch_of_none unmatched]; exact Bool.false_ne_true), seq]
    · rw [takeMatch_stands (by rwa [seq, State.stepNow_congr (s := s) (by rw [seq]) (by rw [seq])]), ite_self, seq]

end Sys2Proof.Machine
end

section
/-! The entry to WAITING (R42, R45, R67, R70): its feed switches, its targets and speeds, the hold it may begin, and the faults it may meet.
START (O24) and the completion of ENDING (O44) share it. -/

namespace Sys2Proof.Machine

open Sys2Proof

section
variable {s u : State}

/-! ### What a switch's fault turns on -/

/-- A MAIN switch that meets a fault does so by its channel, DI and the image (R45). -/
theorem switchFault_congr {c : Channel} (t : Target) (chan : u.chan c = s.chan c) (di : u.sdu.di = s.sdu.di) (cfg : u.cfg = s.cfg) :
    switchFault c t u = switchFault c t s := by
  have img : u.img = s.img := by rw [State.img, State.img, cfg]
  unfold switchFault targetOpen needsFlush
  rw [img, chan, di]

/-- ADDITIVE has no flush and no rinse, so that DI plays no part in its switches (R43, R45). -/
theorem switchFault_additive_congr (st : StepRec) (chan : u.chan .additive = s.chan .additive) (cfg : u.cfg = s.cfg) :
    switchFault .additive (targetOf .additive st) u = switchFault .additive (targetOf .additive st) s := by
  have feed_or_none : ∀ t, t ≠ Target.di → switchFault .additive t u = switchFault .additive t s := fun t feed => by
    cases t with
    | feed f =>
      have img : u.img = s.img := by rw [State.img, State.img, cfg]
      have unrinsed : ∀ v : State, needsFlush .additive (.feed f) v = false := fun _ => rfl
      unfold switchFault targetOpen
      dsimp only
      rw [unrinsed, unrinsed, img, chan]
      rfl
    | di => exact absurd rfl feed
    | none => rfl
  refine feed_or_none _ ?_
  unfold targetOf
  split
  · contradiction
  · contradiction
  · split <;> nofun
  · nofun

/-! ### MAIN's switch leaves ADDITIVE -/

theorem closeFeeds_main_chan (s : State) : (closeFeeds .main s).chan .additive = s.chan .additive := by
  unfold closeFeeds
  dsimp only
  split <;> rfl

theorem closeDi_chan (s : State) : (closeDi s).chan .additive = s.chan .additive := by
  unfold closeDi
  dsimp only
  split <;> rfl

theorem closeChannel_main_chan (s : State) : (closeChannel .main s).chan .additive = s.chan .additive :=
  (closeDi_chan _).trans (closeFeeds_main_chan s)

theorem openTarget_main_chan (t : Target) (s : State) : (openTarget .main t s).chan .additive = s.chan .additive := by
  have opened : ∀ f, (openFeedValve .main f s).chan .additive = s.chan .additive := fun f => by
    refine Eq.trans ?_ (closeChannel_main_chan s)
    unfold openFeedValve
    dsimp only
    split <;> rfl
  cases t with
  | feed f => exact opened f
  | di => exact closeFeeds_main_chan s
  | none => rfl

theorem startSwitch_main_chan (t : Target) (s : State) : (startSwitch .main t s).chan .additive = s.chan .additive := by
  have closed : ∀ x, (closeChannel .main (s.setChan .main x)).chan .additive = s.chan .additive := fun x => closeChannel_main_chan _
  have switched : ∀ w (v : State), (setSwitch .main w v).chan .additive = v.chan .additive := fun _ _ => rfl
  unfold startSwitch
  dsimp only
  (repeat' split) <;> simp only [switched, openTarget_main_chan, closed]
  rfl

/-! ### Both switches -/

/-- Either switch of a step meets a fault of its own (R45). -/
def switchesFault (st : StepRec) (s : State) : Bool :=
  switchFault .main (targetOf .main st) s || switchFault .additive (targetOf .additive st) s

/-- What the switches touch is SDU and the low-feed set: the rest stands. -/
def SwitchesOnly (s t : State) : Prop :=
  t.seq = s.seq ∧ t.hpc = s.hpc ∧ t.pcc = s.pcc ∧ t.epm = s.epm ∧ t.drv = s.drv ∧ t.lnk = s.lnk ∧ t.peer.own = s.peer.own ∧
  t.sdu.dose = s.sdu.dose ∧ OutsideStands s t

theorem startSwitches_sound {st : StepRec} (sound : switchesFault st s = false) : SwitchesOnly s (startSwitches st s) := by
  obtain ⟨main, additive⟩ := Bool.or_eq_false_iff.1 sound
  rw [← switchFault_additive_congr st (startSwitch_main_chan (targetOf .main st) s) (by simp)] at additive
  rw [startSwitches, main, if_neg Bool.false_ne_true]
  dsimp only
  rw [additive, if_neg Bool.false_ne_true]
  simp [SwitchesOnly, OutsideStands]

/-- A switch that meets a fault is the fault VALVE; what MAIN's switch may have begun before it stands in SDU (R45). -/
theorem startSwitches_faulty {st : StepRec} (faulty : switchesFault st s = true) :
    ∃ w, startSwitches st s = takeFault .valve w ∧ SwitchesOnly s w := by
  by_cases main : switchFault .main (targetOf .main st) s = true
  · exact ⟨s, if_pos main, by simp [SwitchesOnly, OutsideStands]⟩
  · have additive : switchFault .additive (targetOf .additive st) s = true := by simpa [switchesFault, main] using faulty
    rw [← switchFault_additive_congr st (startSwitch_main_chan (targetOf .main st) s) (by simp)] at additive
    refine ⟨startSwitch .main (targetOf .main st) s, ?_, by simp [SwitchesOnly, OutsideStands]⟩
    rw [startSwitches, if_neg main]
    exact if_pos additive

/-! ### The entry before its switches -/

/-- WAITING for step `k` with its record, its targets and its speeds (R67). -/
def stepEntered (k : Nat) (s : State) : State :=
  takeStepSpeeds (takeHoldOrVent (rebuildRecord (s.setSeq (s.seq.newStep k))))

theorem stepEntered_seq (k : Nat) (s : State) : (stepEntered k s).seq = s.seq.newStep k := by simp [stepEntered]

/-- The hold that an entry to WAITING begins, where a cause is deferred to it or CONDITIONER joins (R70, R83). -/
def heldEntry (deferred : CauseSet) (v : State) : State :=
  if v.seq.state = .waiting ∧ (entryCauses deferred v).isEmpty = false then enterHolding .waiting (entryCauses deferred v) v else v

theorem enterWaiting_of_step {k : Nat} {st : StepRec} (fromStart : Bool) (step : (stepEntered k s).stepNow = some st) :
    enterWaiting k fromStart s = heldEntry s.seq.deferred
      (if fromStart then reportTrips (startSwitches st (stepEntered k s)) else startSwitches st (stepEntered k s)) := by
  have step' : (takeStepSpeeds (takeHoldOrVent (rebuildRecord (s.setSeq (s.seq.newStep k))))).stepNow = some st := step
  unfold enterWaiting
  dsimp only
  rw [step']
  rfl

end

end Sys2Proof.Machine
end

section
/-! What an entry to WAITING comes to as it is carried through: WAITING, the hold that a cause begins, or ABORTING with the fault it meets. -/

namespace Sys2Proof.Machine

open Sys2Proof

section
variable {s u v : State} {st : StepRec} {k : Nat}

/-! ### The step, its speeds and its targets -/

theorem stepEntered_step {r : Recipe} (copy : s.seq.copy = some r) (low : 1 ≤ k) (step : r.steps[k - 1]? = some st) :
    (stepEntered k s).stepNow = some st :=
  State.stepNow_of_copy (by rw [stepEntered_seq]; exact copy) (by rw [stepEntered_seq]; exact low) (by rw [stepEntered_seq]; exact step)

theorem stepEntered_switchesFault (k : Nat) (s : State) (st : StepRec) : switchesFault st (stepEntered k s) = switchesFault st s := by
  have sdu : (stepEntered k s).sdu = s.sdu := by simp [stepEntered]
  have chan : ∀ c, (stepEntered k s).chan c = s.chan c := fun c => by rw [State.chan, State.chan, sdu]
  have cfg : (stepEntered k s).cfg = s.cfg := by simp [stepEntered]
  rw [switchesFault, switchesFault, switchFault_congr _ (chan .main) (by rw [sdu]) cfg,
    switchFault_congr _ (chan .additive) (by rw [sdu]) cfg]

theorem DriveState.take_setpoint (x : DriveState) (n : Nat) : (x.take n).setpoint = n := by
  unfold DriveState.take
  split
  · assumption
  · rfl

/-- Both drives take the step's speeds (Table 9-5). -/
theorem takeStepSpeeds_setpoints (step : s.stepNow = some st) : ((takeStepSpeeds s).drive .platen).setpoint = st.platenSpeed ∧
    ((takeStepSpeeds s).drive .head).setpoint = st.headSpeed := by
  have drives : (takeStepSpeeds s).drv.drive = ⟨s.drv.drive.platen.take st.platenSpeed, s.drv.drive.head.take st.headSpeed⟩ := by
    simp [takeStepSpeeds, step]
  rw [State.drive, State.drive, drives]
  exact ⟨DriveState.take_setpoint .., DriveState.take_setpoint ..⟩

theorem stepEntered_setpoints (step : (stepEntered k s).stepNow = some st) :
    ((stepEntered k s).drive .platen).setpoint = st.platenSpeed ∧ ((stepEntered k s).drive .head).setpoint = st.headSpeed :=
  takeStepSpeeds_setpoints ((State.stepNow_congr (by simp [stepEntered]) (by simp [stepEntered])).trans step)

/-- Targets taken put no channel into CHANNEL_FAULT (R114). -/
theorem takeTargets_sound {c : HeadCh} (sound : (s.head c).state ≠ .channelFault) (t : PerHead Nat) (n : Nat) (b : Bool) :
    ((takeTargets t n b s).head c).state ≠ .channelFault := by
  unfold takeTargets
  dsimp only
  split
  · exact sound
  · split
    · rw [State.head, State.setHpc_hpc, PerHead.get_of, (HeadChan.takeNow_of_sound sound ..).1]
      nofun
    · rw [State.head, State.setHpc_hpc, PerHead.get_of, (HeadChan.startRamp_of_sound sound ..).1]
      nofun

/-- The head at the targets of a WAITING or held step: vented for a CONDITION step, else each sound channel at its hold level (Table 6-3). -/
def HeadHolds (st : StepRec) (s u : State) : Prop :=
  (st.kind = .condition → ∀ c, (u.head c).applied = 0 ∧ (u.head c).target = 0) ∧
  (st.kind ≠ .condition → ∀ c, (s.head c).state ≠ .channelFault →
    (u.head c).state ≠ .channelFault ∧ (u.head c).target = (holdTargets s.img).get c)

theorem HeadHolds.congr (h : HeadHolds st s u) (hpc : v.hpc = u.hpc) : HeadHolds st s v := by
  have head : ∀ c, v.head c = u.head c := fun c => by rw [State.head, State.head, hpc]
  exact ⟨fun condition c => by rw [head]; exact h.1 condition c, fun other c sound => by rw [head]; exact h.2 other c sound⟩

theorem takeHoldOrVent_holds (step : s.stepNow = some st) : HeadHolds st s (takeHoldOrVent s) := by
  have kind : s.stepKind = some st.kind := by rw [State.stepKind, step]; rfl
  refine ⟨fun condition c => ?_, fun other c sound => ?_⟩
  · rw [takeHoldOrVent, kind, condition, if_pos rfl, ventHead_head]
    exact ⟨rfl, rfl⟩
  · rw [takeHoldOrVent, kind, if_neg (fun same => other (Option.some.inj same)), takeHoldLevels]
    exact ⟨takeTargets_sound sound (holdTargets s.img) s.rampTime false, takeTargets_target sound ..⟩

/-- A channel sound before the hold levels are taken again is so after it. -/
theorem HeadHolds.again (h : HeadHolds st s u) (h' : HeadHolds st u v) (img : u.img = s.img) : HeadHolds st s v :=
  ⟨h'.1, fun other c sound => by rw [← img]; exact h'.2 other c (h.2 other c sound).1⟩

theorem stepEntered_head (step : (stepEntered k s).stepNow = some st) : HeadHolds st s (stepEntered k s) := by
  have step' : (rebuildRecord (s.setSeq (s.seq.newStep k))).stepNow = some st :=
    (State.stepNow_congr (by simp [stepEntered]) (by simp [stepEntered])).trans step
  have holds := takeHoldOrVent_holds step'
  have head : ∀ c, (rebuildRecord (s.setSeq (s.seq.newStep k))).head c = s.head c := fun c => by simp [State.head]
  have img : (rebuildRecord (s.setSeq (s.seq.newStep k))).img = s.img := by simp [State.img]
  refine HeadHolds.congr (u := takeHoldOrVent (rebuildRecord (s.setSeq (s.seq.newStep k)))) ?_ (by simp [stepEntered])
  exact ⟨holds.1, fun other c sound => by rw [← img]; exact holds.2 other c (by rwa [head])⟩

theorem enterHolding_head {t : ResumeTarget} {causes : CauseSet} (step : s.stepNow = some st) : HeadHolds st s (enterHolding t causes s) := by
  have step' : (noticeHeld t (s.setSeq { s.seq with state := .holding, causes := causes, resume := some t })).stepNow = some st :=
    (State.stepNow_congr (by simp) (by simp)).trans step
  have holds := (takeHoldOrVent_holds step').congr (v := enterHolding t causes s) (by simp [enterHolding])
  have head : ∀ c, (noticeHeld t (s.setSeq { s.seq with state := .holding, causes := causes, resume := some t })).head c = s.head c :=
    fun c => by simp [State.head]
  have img : (noticeHeld t (s.setSeq { s.seq with state := .holding, causes := causes, resume := some t })).img = s.img := by
    simp [State.img]
  exact ⟨holds.1, fun other c sound => by rw [← img]; exact holds.2 other c (by rwa [head])⟩

/-! ### WAITING, or its hold, carried through -/

/-- HOLDING left with resume target WAITING goes back to WAITING, its step unskipped (R80). -/
theorem leaveHolding_of_waiting (resume : u.seq.resume = some .waiting) (unskipped : u.seq.disposition ≠ .skip) :
    leaveHolding u = noticeLeft .waiting (u.setSeq { u.seq with state := .waiting, causes := .empty, resume := none }) := by
  simp only [leaveHolding, resume, if_neg unskipped]

/-- The step still waits, or is held with resume target WAITING; nothing of SEQ but its state, causes and resume target has moved, and neither
drive. -/
def EntryStands (v t : State) : Prop :=
  t.seq = { v.seq with state := t.seq.state, causes := t.seq.causes, resume := t.seq.resume } ∧ t.drv = v.drv ∧
  (t.seq.state = .waiting ∨ t.seq.state = .holding ∧ t.seq.resume = some .waiting)

theorem EntryStands.then (h : EntryStands v u) {t : State} (seq : t.seq = { u.seq with state := t.seq.state, causes := t.seq.causes, resume := t.seq.resume })
    (drv : t.drv = u.drv) (state : t.seq.state = .waiting ∨ t.seq.state = .holding ∧ t.seq.resume = some .waiting) : EntryStands v t := by
  obtain ⟨before, drv', -⟩ := h
  refine ⟨seq.trans ?_, drv.trans drv', state⟩
  rw [before]

theorem EntryStands.congr (h : EntryStands v u) {t : State} (seq : t.seq = u.seq) (drv : t.drv = u.drv) : EntryStands v t :=
  h.then (by rw [seq]) drv (by rw [seq]; exact h.2.2)

theorem EntryStands.ne_running (h : EntryStands v u) : u.seq.state ≠ .running := by
  obtain ⟨-, -, state | ⟨state, -⟩⟩ := h <;> simp [state]

theorem EntryStands.carry (h : EntryStands v u) : EntryStands v (carry u) :=
  h.congr (carry_seq_of_ne_running h.ne_running) (by simp)

theorem EntryStands.takeReports (h : EntryStands v u) (unskipped : v.seq.disposition ≠ .skip) : EntryStands v (takeReports u) := by
  have kept : u.seq.disposition ≠ .skip := by rw [h.1]; exact unskipped
  obtain ⟨-, -, waiting | ⟨holding, resume⟩⟩ := id h
  · have same : Machine.takeReports u = u := takeReports_of_calm (by simp [waiting]) (by simp [waiting])
    rwa [same]
  · unfold Machine.takeReports
    rw [holding]
    dsimp only
    split
    · exact h
    · split
      · rw [leaveHolding_of_waiting (u := u.setSeq { u.seq with causes := causesAfterWithdrawal u }) resume kept]
        exact h.then (by simp) (by simp) (.inl (by simp))
      · exact h.then (by simp) (by simp) (.inr ⟨by simpa using holding, by simpa using resume⟩)

theorem EntryStands.settle (h : EntryStands v u) (unskipped : v.seq.disposition ≠ .skip) : EntryStands v (settle u) := by
  unfold Machine.settle
  split
  · have third := ((h.carry.takeReports unskipped).carry.takeReports unskipped).carry
    exact third.congr (by simp) (by simp)
  · exact h

end

end Sys2Proof.Machine
end

section
/-! The outcomes of an entry to WAITING: the step waits, is held, or is cut by the fault of a switch or of a trip input. -/

namespace Sys2Proof.Machine

open Sys2Proof

section
variable {s u v w : State} {st : StepRec} {k : Nat} {deferred : CauseSet}

/-! ### The entry that meets no fault -/

/-- A trip input is active (R175). -/
def tripped (s : State) : Bool := s.pins.trip.platen || s.pins.trip.head

theorem reportTrips_of_none (none_active : tripped s = false) : reportTrips s = s := by
  obtain ⟨platen, head⟩ := Bool.or_eq_false_iff.1 none_active
  simp [reportTrips, platen, head]

/-- Without a fault of a switch, and at START without a trip, the entry is the step's with its switches begun, and its hold (R67, R70). -/
theorem enterWaiting_sound {fromStart : Bool} (step : (stepEntered k s).stepNow = some st) (sound : switchesFault st s = false)
    (trips : fromStart = true → tripped s = false) :
    ∃ v, enterWaiting k fromStart s = heldEntry s.seq.deferred v ∧ SwitchesOnly (stepEntered k s) v := by
  refine ⟨startSwitches st (stepEntered k s), ?_, startSwitches_sound ((stepEntered_switchesFault k s st).trans sound)⟩
  rw [enterWaiting_of_step fromStart step]
  cases fromStart
  · rfl
  · have none_active : tripped (startSwitches st (stepEntered k s)) = false := by simpa [tripped, stepEntered] using trips rfl
    rw [if_pos rfl, reportTrips_of_none none_active]

/-! ### The hold of an entry -/

theorem heldEntry_of_none (none_join : (entryCauses deferred v).isEmpty = true) : heldEntry deferred v = v :=
  if_neg (by simp [none_join])

theorem heldEntry_of_some (waiting : v.seq.state = .waiting) (some_join : (entryCauses deferred v).isEmpty = false) :
    heldEntry deferred v = enterHolding .waiting (entryCauses deferred v) v := if_pos ⟨waiting, some_join⟩

theorem heldEntry_of_aborting (aborting : v.seq.state = .aborting) : heldEntry deferred v = v := if_neg (by simp [aborting])

theorem heldEntry_stands (waiting : v.seq.state = .waiting) : EntryStands v (heldEntry deferred v) := by
  by_cases none_join : (entryCauses deferred v).isEmpty = true
  · rw [heldEntry_of_none none_join]
    exact ⟨rfl, rfl, .inl waiting⟩
  · rw [heldEntry_of_some waiting (Bool.not_eq_true _ ▸ none_join)]
    exact ⟨by rw [enterHolding_seq], by simp, .inr (by rw [enterHolding_seq]; exact ⟨rfl, rfl⟩)⟩

theorem CauseSet.nonempty_of_notForSlurry {c : CauseSet} (stays : c.notForSlurry = true) : c.isEmpty = false := by
  rw [← Bool.not_eq_true]
  intro none_in
  simp only [CauseSet.isEmpty, Bool.not_eq_true', Bool.or_eq_false_iff] at none_in
  simp [CauseSet.notForSlurry, none_in] at stays

/-- The entry with no cause, carried through, waits with its targets. -/
theorem heldEntry_waits (waiting : v.seq.state = .waiting) (none_join : (entryCauses deferred v).isEmpty = true) :
    (settle (heldEntry deferred v)).seq = v.seq ∧ (settle (heldEntry deferred v)).hpc = v.hpc := by
  rw [heldEntry_of_none none_join]
  obtain ⟨seq, hpc, -⟩ := settle_calm (s := v) (by simp [waiting]) (by simp [waiting])
  exact ⟨seq, hpc⟩

/-- The entry with a cause that SDU cannot withdraw, carried through, is held with it (R70, R83). -/
theorem heldEntry_holds (started : v.started = true) (waiting : v.seq.state = .waiting) (step : v.stepNow = some st)
    (stays : (entryCauses deferred v).notForSlurry = true) :
    let t := settle (heldEntry deferred v)
    t.seq = { v.seq with
      state := .holding, resume := some .waiting
      causes := { entryCauses deferred v with share := t.seq.causes.share, supply := t.seq.causes.supply } } ∧ HeadHolds st v t := by
  rw [heldEntry_of_some waiting (CauseSet.nonempty_of_notForSlurry stays)]
  have seq := enterHolding_seq .waiting (entryCauses deferred v) v
  have started' : (enterHolding .waiting (entryCauses deferred v) v).started = true := by simpa [State.started, State.inReset] using started
  obtain ⟨seq', hpc, -⟩ := settle_stays started' (by rw [seq]) (.inl (by rwa [seq]))
  refine ⟨?_, (enterHolding_head step).congr hpc⟩
  rw [seq']
  simp only [seq]

theorem stepEntered_started (k : Nat) (started : s.started = true) : (stepEntered k s).started = true := by
  simpa [stepEntered, State.started, State.inReset] using started

/-- The causes with which step `st` is entered: those deferred, and CONDITIONER where it is to condition without a conditioner (R70, R83). -/
def causesOf (st : StepRec) (s : State) : CauseSet :=
  if s.pcc.condLost && st.inSitu then s.seq.deferred.add .conditioner else s.seq.deferred

/-- What the entry to WAITING for step `k` comes to where it meets no fault: `t` is the state after it is carried through. -/
structure EntersStep (k : Nat) (st : StepRec) (s t : State) : Prop where
  seq : t.seq = { s.seq.newStep k with state := t.seq.state, causes := t.seq.causes, resume := t.seq.resume }
  platen : (t.drive .platen).setpoint = st.platenSpeed
  head : (t.drive .head).setpoint = st.headSpeed
  waits : (causesOf st s).isEmpty = true → t.seq = s.seq.newStep k ∧ HeadHolds st s t
  holds : (causesOf st s).notForSlurry = true → t.seq = { s.seq.newStep k with
    state := .holding, resume := some .waiting
    causes := { causesOf st s with share := t.seq.causes.share, supply := t.seq.causes.supply } } ∧ HeadHolds st s t

theorem enterWaiting_settled {fromStart : Bool} (started : s.started = true) (step : (stepEntered k s).stepNow = some st)
    (sound : switchesFault st s = false) (trips : fromStart = true → tripped s = false) :
    EntersStep k st s (settle (enterWaiting k fromStart s)) := by
  obtain ⟨v, entered, seq, hpc, pcc, -, drv, -, -, -, cfg, -, -, pins, -⟩ := enterWaiting_sound step sound trips
  have seq' : v.seq = s.seq.newStep k := seq.trans (stepEntered_seq k s)
  have started' : v.started = true := by
    rw [State.started, State.inReset, cfg, pins]
    exact stepEntered_started k started
  have step' : v.stepNow = some st := (State.stepNow_congr (by rw [seq]) (by rw [seq])).trans step
  have causes : entryCauses s.seq.deferred v = causesOf st s := by
    have lost : v.pcc.condLost = s.pcc.condLost := by simp [pcc, stepEntered]
    rw [entryCauses, causesOf, conditionsPad_of_step step', lost, seq']
    simp [Seq.newStep]
  have waiting : v.seq.state = .waiting := by rw [seq']; rfl
  have stands := (heldEntry_stands (deferred := s.seq.deferred) waiting).settle (by rw [seq']; nofun)
  have head : HeadHolds st s v := (stepEntered_head step).congr hpc
  obtain ⟨platen, headSpeed⟩ := stepEntered_setpoints step
  rw [entered]
  refine ⟨by rw [stands.1, seq'], ?_, ?_, fun none_join => ?_, fun stays => ?_⟩
  · rw [State.drive, stands.2.1, drv]
    exact platen
  · rw [State.drive, stands.2.1, drv]
    exact headSpeed
  · obtain ⟨same, hpc'⟩ := heldEntry_waits (deferred := s.seq.deferred) waiting (by rwa [causes])
    exact ⟨same.trans seq', head.congr hpc'⟩
  · obtain ⟨held, holds⟩ := heldEntry_holds (deferred := s.seq.deferred) started' waiting step' (by rwa [causes])
    rw [causes, seq'] at held
    exact ⟨held, head.again holds (by rw [State.img, cfg]; simp [State.img, stepEntered])⟩

/-! ### The entry that meets a fault -/

/-- A fault in WAITING aborts the run, and the step leaves its CUT entry (R85, R87). -/
theorem takeFault_cuts_waiting (kind : FaultKind) (started : w.started = true) (waiting : w.seq.state = .waiting)
    (fresh : ∀ e ∈ w.seq.record, e.index ≠ w.seq.index) :
    (takeFault kind w).seq = { w.seq with
      state := .aborting, causes := .empty, deferred := .empty, resume := none, result := .faulted, abortTimer := some 0
      first := some kind, record := w.seq.record ++ [stepEntry w .cut] } ∧
    ∀ d, ((takeFault kind w).drive d).setpoint = 0 := by
  have noticed : (noticeFault kind false (w.setSeq { w.seq with first := some kind })).seq = { w.seq with first := some kind } := by simp
  have taken := takeFault_of_run kind started (by simp [waiting, SeqState.inRun])
  obtain ⟨record, -⟩ := enterAborting_cuts .faulted (noticeFault kind false (w.setSeq { w.seq with first := some kind }))
  have entered := enterAborting_seq .faulted (noticeFault kind false (w.setSeq { w.seq with first := some kind }))
  rw [record, cutOf_congr (s := w) (first := some kind) noticed (by simp), cutOf, if_pos ⟨.inl waiting, fresh⟩, ← taken, noticed] at entered
  exact ⟨entered, fun d => by rw [taken]; exact enterAborting_setpoint ..⟩

theorem KindSet.add_add (x : KindSet) (kind : FaultKind) : (x.add kind).add kind = x.add kind := by cases kind <;> rfl

/-- Trip inputs reported in ABORTING behind a first fault join the later ones (R87, R175). -/
theorem reportTrips_of_aborting (started : s.started = true) (aborting : s.seq.state = .aborting) (first : s.seq.first ≠ none) :
    (reportTrips s).seq = { s.seq with later := if tripped s = true then s.seq.later.add .driveTrip else s.seq.later } ∧
    (reportTrips s).drv = s.drv := by
  have later : ∀ x : State, x.started = true → x.seq.state = .aborting → x.seq.first ≠ none →
      (takeFault .driveTrip x).seq = { x.seq with later := x.seq.later.add .driveTrip } ∧ (takeFault .driveTrip x).drv = x.drv := fun x a b c => by
    rw [takeFault_of_later .driveTrip a (.inl ⟨b, c⟩)]
    simp
  obtain ⟨seq, drv⟩ := later s started aborting first
  obtain ⟨seq', drv'⟩ := later (takeFault .driveTrip s) (by simpa [State.started, State.inReset] using started) (by rwa [seq]) (by rwa [seq])
  unfold reportTrips tripped
  dsimp only
  cases platen : s.pins.trip.platen <;> cases head : s.pins.trip.head <;> simp [head, seq, drv, seq', drv', KindSet.add_add]

/-! ### The record withdrawn -/

/-- Carrying a change through in ABORTING empties the own record, and in READY an emptied record is placed as a DEMAND (R7, R12). -/
theorem settle_idles (started : s.started = true) (aborting : s.seq.state = .aborting) :
    (settle s).peer.own = .empty ∧
    (s.cfg.startUp = .ready → s.peer.own ≠ .empty → (settle s).lnk.demandSlot = some ⟨.demand, 0, [0, 0], 0⟩) := by
  have record : ∀ u : State, u.seq.state = .aborting → buildRecord u = .empty := fun u state => by
    unfold buildRecord
    rw [state]
    exact ite_self _
  have carried : ∀ u : State, u.seq.state = .aborting → (carry u).seq.state = .aborting := fun u state => by
    rw [carry_seq_of_ne_running (by simp [state])]
    exact state
  have reported : ∀ u : State, u.seq.state = .aborting → takeReports u = u := fun u state =>
    takeReports_of_calm (by simp [state]) (by simp [state])
  have own : (settle s).peer.own = .empty := by
    have last := carry_own (takeReports (carry (takeReports (carry s))))
    rw [reported _ (carried s aborting), reported _ (carried _ (carried s aborting)), record _ (carried _ (carried s aborting))] at last
    rw [settle, if_pos started, reported _ (carried s aborting), reported _ (carried _ (carried s aborting))]
    simpa using last
  refine ⟨own, fun ready changed => ?_⟩
  have placed : DemandStands s.lnk.demandSlot (carry s) := by
    have rebuilt : rebuildRecord s = shrRuns (touchedByRecord s.peer.own (buildRecord s)) (placeDemand (s.setPeer { s.peer with own := buildRecord s })) :=
      if_neg (by rw [record s aborting]; exact changed.symm)
    refine (placeDemand_stands (s.setPeer { s.peer with own := buildRecord s })).congr ?_ ?_ ?_ <;> simp [carry, rebuilt]
  have settled : DemandStands s.lnk.demandSlot (settle s) := by
    rw [settle, if_pos started]
    exact placed.takeReports.carry.takeReports.carry.congr (by simp) (by simp) (by simp)
  rw [settled, if_pos (by simpa using ready), own]
  rfl

/-- The record of an entered step with a MAIN feed is not the idle one (R7). -/
theorem stepEntered_own {f : Feed} (step : (stepEntered k s).stepNow = some st) (feed : st.mainFeed = some f) (unlocked : s.ilk.mode ≠ .lockout) :
    (stepEntered k s).peer.own ≠ .empty := by
  have own : (stepEntered k s).peer.own = buildRecord (s.setSeq (s.seq.newStep k)) := by simp [stepEntered, rebuildRecord_own]
  have step' : (s.setSeq (s.seq.newStep k)).stepNow = some st := (State.stepNow_congr (by simp [stepEntered]) (by simp [stepEntered])).trans step
  have built : buildRecord (s.setSeq (s.seq.newStep k)) = recordOf (s.setSeq (s.seq.newStep k)) .waiting := if_neg unlocked
  rw [own, built, recordOf_of_feed step' feed]
  nofun

end

end Sys2Proof.Machine
end

section
/-! The entry to WAITING that a fault of a switch or a trip input cuts (R45, R85, R87, R175). -/

namespace Sys2Proof.Machine

open Sys2Proof

section
variable {s v w : State} {st : StepRec} {k : Nat} {kind : FaultKind}

/-- Trip inputs that are active in WAITING: the first reported cuts the step, the second joins the later faults (R87, R175). -/
theorem reportTrips_of_waiting (started : w.started = true) (waiting : w.seq.state = .waiting) (active : tripped w = true) :
    (reportTrips w).seq = { (takeFault .driveTrip w).seq with
      later := if w.pins.trip = ⟨true, true⟩ then w.seq.later.add .driveTrip else w.seq.later } ∧
    (reportTrips w).drv = (takeFault .driveTrip w).drv := by
  have taken := takeFault_of_run .driveTrip started (by simp [waiting, SeqState.inRun])
  have entered := enterAborting_seq .faulted (noticeFault .driveTrip false (w.setSeq { w.seq with first := some .driveTrip }))
  rw [← taken] at entered
  have aborting : (takeFault .driveTrip w).seq.state = .aborting := by rw [entered]
  have first : (takeFault .driveTrip w).seq.first ≠ none := by
    rw [entered]
    simp
  have later : (takeFault .driveTrip w).seq.later = w.seq.later := by
    rw [entered]
    simp
  have second := takeFault_of_later .driveTrip (s := takeFault .driveTrip w) (by simpa [State.started, State.inReset] using started)
    (.inl ⟨aborting, first⟩)
  obtain ⟨platen, head, trip⟩ : ∃ p h, w.pins.trip = ⟨p, h⟩ := ⟨_, _, rfl⟩
  rw [tripped, trip] at active
  have same : (takeFault .driveTrip w).seq = { (takeFault .driveTrip w).seq with later := w.seq.later } := by rw [← later]
  have pins : (takeFault .driveTrip w).pins = w.pins := by simp
  cases platen <;> cases head
  · contradiction
  · simp only [reportTrips, trip, if_true, Bool.false_eq_true, if_false]
    exact ⟨same, trivial⟩
  · simp only [reportTrips, trip, pins, if_true, Bool.false_eq_true, if_false]
    exact ⟨same, trivial⟩
  · simp only [reportTrips, trip, pins, if_true, second, later]
    exact ⟨by simp, by simp⟩

/-- What the entry to WAITING for step `k` comes to where a fault of kind `kind` cuts it: `t` is the state after it is carried through. -/
structure CutsEntry (k : Nat) (st : StepRec) (kind : FaultKind) (later : KindSet) (s t : State) : Prop where
  seq : ∃ e, t.seq = { s.seq.newStep k with
      state := .aborting, result := .faulted, abortTimer := some 0, first := some kind, later := later, record := s.seq.record ++ [e] } ∧
    e.index = k ∧ e.result = .cut ∧ e.elapsed = 0 ∧ e.hold = 0 ∧ e.flags = .empty
  setpoints : ∀ d, (t.drive d).setpoint = 0
  own : t.peer.own = .empty
  demand : s.cfg.startUp = .ready → s.ilk.mode ≠ .lockout → st.mainFeed.isSome = true → t.lnk.demandSlot = some ⟨.demand, 0, [0, 0], 0⟩

/-- The later faults of an entry that is cut: DRIVE_TRIP behind another first fault, or from the second input (R87, R175). -/
def laterOfEntry (fromStart : Bool) (st : StepRec) (s : State) : KindSet :=
  if fromStart = true ∧ (switchesFault st s = true ∧ tripped s = true ∨ s.pins.trip = ⟨true, true⟩) then s.seq.later.add .driveTrip
  else s.seq.later

theorem laterOfEntry_of_switch (switch : switchesFault st s = true) :
    laterOfEntry true st s = if tripped s = true then s.seq.later.add .driveTrip else s.seq.later := by
  have both : s.pins.trip = ⟨true, true⟩ → tripped s = true := fun trip => by rw [tripped, trip]; rfl
  simp only [laterOfEntry, switch, true_and]
  exact if_congr ⟨fun h => h.elim id both, .inl⟩ rfl rfl

theorem laterOfEntry_of_trip (switch : ¬switchesFault st s = true) :
    laterOfEntry true st s = if s.pins.trip = ⟨true, true⟩ then s.seq.later.add .driveTrip else s.seq.later := by
  simp only [laterOfEntry, switch, Bool.false_eq_true, false_and, false_or, true_and]

/-- Before its hold is judged, a cut entry is that of a WAITING step with its fault taken, but for the later faults. -/
theorem cutEntry_of_fault {fromStart : Bool} (started : s.started = true)
    (faulty : switchesFault st s = true ∨ (fromStart = true ∧ tripped s = true)) :
    let v := if fromStart then reportTrips (startSwitches st (stepEntered k s)) else startSwitches st (stepEntered k s)
    let kind := if switchesFault st s = true then FaultKind.valve else .driveTrip
    ∃ w, w.seq = s.seq.newStep k ∧ w.started = true ∧ v.seq = { (takeFault kind w).seq with later := laterOfEntry fromStart st s } ∧
      v.drv = (takeFault kind w).drv := by
  have entered_started := stepEntered_started k started
  have pins : (startSwitches st (stepEntered k s)).pins = s.pins := by simp [stepEntered]
  have trips : tripped (startSwitches st (stepEntered k s)) = tripped s := by rw [tripped, tripped, pins]
  by_cases switch : switchesFault st s = true
  · obtain ⟨w, taken, seq, -, -, -, -, -, -, -, cfg, -, -, pins', -⟩ := startSwitches_faulty ((stepEntered_switchesFault k s st).trans switch)
    have seq' : w.seq = s.seq.newStep k := seq.trans (stepEntered_seq k s)
    have started' : w.started = true := by
      rw [State.started, State.inReset, cfg, pins']
      exact entered_started
    have entered := enterAborting_seq .faulted (noticeFault .valve false (w.setSeq { w.seq with first := some .valve }))
    rw [← takeFault_of_run .valve started' (by simp [seq', Seq.newStep, SeqState.inRun])] at entered
    have later : (takeFault .valve w).seq.later = s.seq.later := by
      rw [entered]
      simp [seq', Seq.newStep]
    refine ⟨w, seq', started', ?_⟩
    rw [if_pos switch]
    cases fromStart
    · simp only [Bool.false_eq_true, if_false, taken, laterOfEntry, false_and]
      exact ⟨by rw [← later], trivial⟩
    · rw [if_pos rfl, laterOfEntry_of_switch switch, taken]
      have tripped' : tripped (takeFault .valve w) = tripped s := by rw [← trips, taken]
      obtain ⟨reported, drv⟩ := reportTrips_of_aborting (s := takeFault .valve w) (by simpa [State.started, State.inReset] using started')
        (by rw [entered]) (by rw [entered]; simp)
      rw [later, tripped'] at reported
      exact ⟨reported, drv⟩
  · obtain ⟨rfl, active⟩ := faulty.resolve_left switch
    obtain ⟨seq, -, -, -, -, -, -, -, cfg, -⟩ :=
      startSwitches_sound ((stepEntered_switchesFault k s st).trans (Bool.eq_false_iff.2 switch))
    have seq' : (startSwitches st (stepEntered k s)).seq = s.seq.newStep k := seq.trans (stepEntered_seq k s)
    have started' : (startSwitches st (stepEntered k s)).started = true := by
      rw [State.started, State.inReset, cfg, pins]
      simpa [State.started, State.inReset, stepEntered] using started
    refine ⟨_, seq', started', ?_⟩
    rw [if_pos rfl, if_neg switch, laterOfEntry_of_trip switch, ← pins]
    obtain ⟨reported, drv⟩ := reportTrips_of_waiting started' (by rw [seq']; rfl) (trips.trans active)
    rw [seq'] at reported
    exact ⟨reported, drv⟩

/-- The entry to WAITING that a fault cuts, carried through (R45, R85, R87, R175). -/
theorem enterWaiting_cut {fromStart : Bool} (started : s.started = true) (step : (stepEntered k s).stepNow = some st)
    (faulty : switchesFault st s = true ∨ (fromStart = true ∧ tripped s = true)) (fresh : ∀ e ∈ s.seq.record, e.index ≠ k) :
    CutsEntry k st (if switchesFault st s = true then .valve else .driveTrip) (laterOfEntry fromStart st s) s
      (settle (enterWaiting k fromStart s)) := by
  obtain ⟨w, seq, started', taken, drv⟩ := cutEntry_of_fault (k := k) started faulty
  generalize kind_is : (if switchesFault st s = true then FaultKind.valve else .driveTrip) = kind at taken drv
  generalize v_is : (if fromStart then reportTrips (startSwitches st (stepEntered k s)) else startSwitches st (stepEntered k s)) = v at taken drv
  obtain ⟨cut, setpoints⟩ := takeFault_cuts_waiting kind started' (by rw [seq]; rfl) (by rw [seq]; exact fresh)
  rw [cut, seq] at taken
  have entered : enterWaiting k fromStart s = v := by
    rw [enterWaiting_of_step fromStart step, v_is, heldEntry_of_aborting (by rw [taken])]
  have v_started : v.started = true := by
    rw [← entered]
    simpa [State.started, State.inReset] using started
  have own : v.peer.own = (stepEntered k s).peer.own := by rw [← v_is]; split <;> simp
  obtain ⟨seq', -, -, -, drv', -⟩ := settle_calm (s := v) (by rw [taken]; nofun) (by rw [taken]; nofun)
  obtain ⟨idle, placed⟩ := settle_idles v_started (by rw [taken])
  rw [entered]
  refine ⟨⟨stepEntry w .cut, seq'.trans taken, ?_, rfl, ?_, ?_, ?_⟩, fun d => ?_, idle, fun ready unlocked feed => placed ?_ ?_⟩
  · simp [stepEntry, seq, Seq.newStep]
  · simp [stepEntry, seq, Seq.newStep]
  · simp [stepEntry, seq, Seq.newStep]
  · simp [stepEntry, seq, Seq.newStep]
  · rw [State.drive, drv', drv]
    exact setpoints d
  · rw [← entered]
    simpa using ready
  · obtain ⟨f, feed⟩ := Option.isSome_iff_exists.1 feed
    rw [own]
    exact stepEntered_own step feed unlocked

end

end Sys2Proof.Machine
end

section
/-! The completions of ENDING and of ABORTING (R83, R86, R91): O44. -/

namespace Sys2Proof.Machine

open Sys2Proof

section
variable {s : State}

/-! ### The end of a run -/

/-- The end of a run, carried through: rest entered with RUN_ENDED queued and the life counters written back (R83, R86, R91, R110). -/
theorem runEnded_settled {x : SeqState} {q : Seq} (timeout : Bool) (running : x ≠ .running) (holding : x ≠ .holding) :
    let t := settle (noticeRunEnded timeout (enterRest x (s.setSeq q)))
    t.seq = { q with state := x } ∧
    t.rcp = { s.rcp with diskStored := s.pcc.diskLife, padStored := s.pcc.padLife, accumulation := 0 } ∧
    t.lnk.notices = (placeNotice 9 [byteOf (numRun q.result), byteOf q.record.length,
      firstFaultByte (s.setSeq q), (if timeout then 1 else 0)] s).lnk.notices ∧
    t.epm = { s.epm with state := .stopped, periodTimer := 0 } ∧ t.pcc = s.pcc ∧
    (∀ d : Drive, (t.drive d).setpoint = 0) ∧ (∀ c : HeadCh, (t.head c).applied = 0) ∧ t.cfg = s.cfg ∧
    t.ilk = s.ilk ∧ t.pins = s.pins ∧ t.peer.table = s.peer.table ∧ t.lnk.answers = s.lnk.answers ∧
    t.sdu.dose = s.sdu.dose ∧ t.pending = s.pending := by
  have rest : (enterRest x (s.setSeq q)).seq = { q with state := x } := by simp [enterRest]
  have ended : (noticeRunEnded timeout (enterRest x (s.setSeq q))).seq = { q with state := x } := by simp [noticeRunEnded, rest]
  obtain ⟨seq, hpc, pcc, epm, drv, notices, -⟩ := settle_calm (s := noticeRunEnded timeout (enterRest x (s.setSeq q)))
    (by rwa [ended]) (by rwa [ended])
  refine ⟨seq.trans ended, by simp [noticeRunEnded, writeBack], ?_, ?_, by simp [pcc], fun d => ?_, fun c => ?_, by simp, by simp, by simp,
    by simp, by simp, by simp, by simp⟩
  · have lnk : (enterRest x (s.setSeq q)).lnk = s.lnk := by simp
    have byte : firstFaultByte (enterRest x (s.setSeq q)) = firstFaultByte (s.setSeq q) := by simp [firstFaultByte]
    rw [notices, noticeRunEnded, writeBack, State.setRcp_lnk, placeNotice_lnk_congr lnk (by simp), rest, byte]
    rfl
  · rw [epm]
    simp [noticeRunEnded, writeBack, enterRest, stopSymbolizer]
  · have stopped : (noticeRunEnded timeout (enterRest x (s.setSeq q))).drv = (enterRest x (s.setSeq q)).drv := by simp [noticeRunEnded]
    rw [State.drive, drv, stopped]
    exact enterRest_setpoint x (s.setSeq q) d
  · have vented : (noticeRunEnded timeout (enterRest x (s.setSeq q))).hpc = (ventHead (s.setSeq q)).hpc := by
      simp [noticeRunEnded, ← enterRest_hpc x]
    rw [State.head, hpc, vented]
    exact congrArg HeadChan.applied (ventHead_head (s.setSeq q) c)

/-! ### What is due -/

theorem endingComplete_spec (started : s.started = true) (ending : s.seq.state = .ending) (rinsed : s.sdu.rinseDone = true)
    (moved : s.hpc.atTarget = true) : exec .endingComplete s = .next (settle (completeEnding s)) := by
  have due : (s.started && endingDue s) = true := by simp [started, endingDue, ending, rinsed, moved]
  exact congrArg Host.Outcome.next (if_pos due)

theorem abortingComplete_spec (started : s.started = true) (aborting : s.seq.state = .aborting) (drives : ∀ d : Drive, atZero s d = true)
    (arm : s.pcc.arm = .parked ∨ s.pcc.arm = .lost) : exec .abortingComplete s = .next (settle (completeAbort false s)) := by
  have down : armDown s = true := by rcases arm with arm | arm <;> simp [armDown, arm]
  have due : (s.started && abortDone s) = true := by simp [started, abortDone, aborting, bothAtZero, drives, down]
  exact congrArg Host.Outcome.next (if_pos due)

theorem abortTimeout_spec {a : Nat} (started : s.started = true) (aborting : s.seq.state = .aborting) (timer : s.seq.abortTimer = some a)
    (time : 10000000 ≤ a) : exec .abortTimeout s = .next (settle (completeAbort true s)) := by
  have elapsed : abortTime ≤ a := time
  have due : (s.started && abortTimeoutDue s) = true := by simp [started, abortTimeoutDue, aborting, timer, elapsed]
  exact congrArg Host.Outcome.next (if_pos due)

theorem completeEnding_last {r : Recipe} (copy : s.seq.copy = some r) (last : r.steps.length ≤ s.seq.index) : completeEnding s =
    noticeRunEnded false (enterRest .done (s.setSeq { s.seq with deferred := .empty, result := .completed })) := by
  have count : s.stepCount = r.steps.length := by simp [State.stepCount, copy]
  rw [completeEnding, if_neg (by rw [count]; omega)]

theorem completeEnding_next {r : Recipe} {st : StepRec} (copy : s.seq.copy = some r) (step : r.steps[s.seq.index]? = some st) :
    completeEnding s = enterWaiting (s.seq.index + 1) false s := by
  have count : s.stepCount = r.steps.length := by simp [State.stepCount, copy]
  obtain ⟨short, -⟩ := List.getElem?_eq_some_iff.1 step
  rw [completeEnding, if_pos (by rw [count]; exact short)]

end

/-- Settles O44: the last step, the next step without and with a fault of a switch, and ABORTING. -/
theorem endingAndAbortingComplete : Obligations.EndingAndAbortingComplete := by
  unfold Obligations.EndingAndAbortingComplete
  refine ⟨fun s r started ending rinsed moved copy => ⟨fun last => ?_, fun st next main additive => ?_, fun st next faulty fresh => ?_⟩,
    fun s started aborting => ⟨fun drives arm => ?_, fun a timer time => ?_⟩⟩
  · refine ⟨_, endingComplete_spec started ending rinsed moved, ?_⟩
    rw [completeEnding_last copy last]
    exact runEnded_settled false nofun nofun
  · have step := stepEntered_step (k := s.seq.index + 1) copy (Nat.le_add_left ..) next
    have sound : switchesFault st s = false := by rw [switchesFault, main, additive]; rfl
    have enters := enterWaiting_settled (fromStart := false) started step sound nofun
    have q := enters.seq
    refine ⟨_, endingComplete_spec started ending rinsed moved, ?_⟩
    rw [completeEnding_next copy next]
    refine ⟨congrArg Seq.index q, congrArg Seq.deferred q, congrArg Seq.elapsed q, congrArg Seq.hold q, congrArg Seq.waiting q,
      congrArg Seq.waitLongSent q, congrArg Seq.disposition q, congrArg Seq.endpoint q, congrArg Seq.overEnd q, congrArg Seq.flags q,
      (congrArg Seq.record q :), (congrArg Seq.copy q :), fun unconditioned none_deferred => ?_, fun lost inSitu => ?_, fun stays => ?_,
      enters.platen, enters.head, by simp, by simp, by simp [OutsideStands]⟩
    · have none_join : causesOf st s = .empty := by
        rcases unconditioned with unset | apart
        · simp [causesOf, none_deferred, unset]
        · simp [causesOf, none_deferred, apart]
      obtain ⟨seq, -⟩ := enters.waits (by rw [none_join]; rfl)
      rw [seq]
      exact ⟨rfl, rfl⟩
    · have joins : causesOf st s = s.seq.deferred.add .conditioner := by simp [causesOf, lost, inSitu]
      obtain ⟨seq, -⟩ := enters.holds (by rw [joins]; exact CauseSet.notForSlurry_add _ ⟨nofun, nofun⟩)
      rw [seq, joins]
      rfl
    · have stays' : (causesOf st s).notForSlurry = true := by
        rcases stays with stays | ⟨lost, inSitu⟩
        · unfold causesOf
          split
          · exact CauseSet.notForSlurry_add _ ⟨nofun, nofun⟩
          · exact stays
        · simp only [causesOf, lost, inSitu]
          exact CauseSet.notForSlurry_add _ ⟨nofun, nofun⟩
      obtain ⟨seq, -⟩ := enters.holds stays'
      rw [seq]
      refine ⟨rfl, rfl, ?_⟩
      unfold causesOf
      split <;> exact ⟨rfl, rfl, rfl, rfl⟩
  · have step := stepEntered_step (k := s.seq.index + 1) copy (Nat.le_add_left ..) next
    have switch : switchesFault st s = true := Bool.or_eq_true_iff.2 faulty
    have cut := enterWaiting_cut (fromStart := false) started step (.inl switch) fresh
    obtain ⟨e, seq, index, result, elapsed, hold, flags⟩ := cut.seq
    rw [if_pos switch] at seq
    refine ⟨_, e, endingComplete_spec started ending rinsed moved, ?_⟩
    rw [completeEnding_next copy next]
    refine ⟨congrArg Seq.state seq, congrArg Seq.result seq, congrArg Seq.first seq, congrArg Seq.index seq, congrArg Seq.record seq, index, result,
      elapsed, hold, flags, cut.setpoints, cut.own, cut.demand, by simp, by simp, by simp [OutsideStands]⟩
  · refine ⟨_, abortingComplete_spec started aborting drives arm, ?_⟩
    obtain ⟨seq, rcp, notices, -, others⟩ := runEnded_settled (s := s) (q := { s.seq with abortTimer := none })
      (x := if s.seq.first.isSome then .faulted else .done) false (by split <;> nofun) (by split <;> nofun)
    exact ⟨seq, rcp, notices, others⟩
  · refine ⟨_, abortTimeout_spec started aborting timer time, ?_⟩
    obtain ⟨seq, rcp, notices, -, others⟩ := runEnded_settled (s := s) (q := { s.seq with abortTimer := none })
      (x := if s.seq.first.isSome then .faulted else .done) true (by split <;> nofun) (by split <;> nofun)
    exact ⟨seq, rcp, notices, others⟩

end Sys2Proof.Machine
end

section
/-! START (R66, R67, R70, R142, R175): O24. -/

namespace Sys2Proof.Machine

open Sys2Proof

section
variable {s : State} {m : OrderMeta}

/-! ### START's refusals and its entry -/

theorem start_refused {c : Code} (takes : takesOrder m s = true) (e : orderStart s = .bare s c) :
    exec (.start m) s = .next (answered m (numCode c) [] s) := congrArg Host.Outcome.next (serve_refused takes e)

/-- START at rest with a working copy is judged by the tool mode and the life counters alone (R66). -/
theorem orderStart_of_copy {r : Recipe} (unlocked : s.ilk.mode ≠ .lockout) (state : s.seq.state = .loaded ∨ s.seq.state = .done)
    (copy : s.seq.copy = some r) : orderStart s = if s.ilk.mode ≠ .run then .bare s .mode else if anyWorn s then .bare s .worn
      else .bare (settle (enterWaiting 1 true (s.setSeq { s.seq with record := [], result := .none }))) .ok := by
  have taken : ((s.seq.state == .loaded || s.seq.state == .done) && s.seq.copy.isSome) = true := by
    rcases state with state | state <;> simp [state, copy]
  rw [orderStart, if_neg unlocked, taken]
  rfl

theorem anyWorn_iff : anyWorn s = true ↔ s.img.diskLimit ≤ s.pcc.diskLife ∨ s.img.padLimit ≤ s.pcc.padLife := by
  simp [anyWorn, worn]

/-- START taken: the run record emptied, and WAITING entered for step 1 (R66, R67). -/
theorem start_taken {r : Recipe} (takes : takesOrder m s = true) (unlocked : s.ilk.mode ≠ .lockout)
    (state : s.seq.state = .loaded ∨ s.seq.state = .done) (copy : s.seq.copy = some r) (run : s.ilk.mode = .run)
    (disk : s.pcc.diskLife < s.img.diskLimit) (pad : s.pcc.padLife < s.img.padLimit) :
    exec (.start m) s = .next (answered m 0 [] (settle (enterWaiting 1 true (s.setSeq { s.seq with record := [], result := .none })))) := by
  have fresh : ¬anyWorn s = true := fun out => by
    rcases anyWorn_iff.1 out with out | out <;> omega
  have e := orderStart_of_copy unlocked state copy
  rw [if_neg (by simp [run]), if_neg fresh] at e
  exact congrArg Host.Outcome.next (serve_of takes e (by simp))

/-- What START's entry leaves outside the blocks it directs. -/
theorem started_frame (s : State) :
    let t := settle (enterWaiting 1 true (s.setSeq { s.seq with record := [], result := .none }))
    t.lnk.answers = s.lnk.answers ∧ OutsideStands s t := by simp [OutsideStands]

theorem answered_demandSlot (m : OrderMeta) (c : Nat) (d : List Byte) (s : State) :
    (answered m c d s).lnk.demandSlot = s.lnk.demandSlot := by
  unfold answered
  split <;> rfl

theorem OutsideStands.answered {t : State} (h : OutsideStands s t) (m : OrderMeta) (c : Nat) (d : List Byte) :
    OutsideStands s (answered m c d t) := by
  unfold Machine.answered
  split <;> exact h

end

/-- Settles O24: the refusals, the entry that meets no fault, and the one that a switch or a trip cuts. -/
theorem startEntersWaiting : Obligations.StartEntersWaiting := by
  unfold Obligations.StartEntersWaiting
  refine ⟨fun s m takes unlocked refused => start_refused (c := .state) takes ?_, fun s m r st takes unlocked copy first state =>
    ⟨fun service => start_refused (c := .mode) takes ?_, fun run out => start_refused (c := .worn) takes ?_, fun run disk pad => ?_⟩⟩
  · have none_taken : ((s.seq.state == .loaded || s.seq.state == .done) && s.seq.copy.isSome) = false := by
      rcases refused with ⟨loaded, done⟩ | none_held
      · simp [loaded, done]
      · simp [none_held]
    rw [orderStart, if_neg unlocked, none_taken]
    rfl
  · rw [orderStart_of_copy unlocked state copy, if_pos (by simp [service])]
  · rw [orderStart_of_copy unlocked state copy, if_neg (by simp [run]), if_pos (anyWorn_iff.2 out)]
  have started := started_of_takesOrder takes
  have taken := start_taken takes unlocked state copy run disk pad
  have step := stepEntered_step (s := s.setSeq { s.seq with record := [], result := .none }) (k := 1) copy (Nat.le_refl 1) first
  refine ⟨fun untripped undeferred sound => ⟨_, taken, ?_⟩, fun faulty => ⟨_, taken, ?_⟩⟩
  · have enters := enterWaiting_settled (fromStart := true) (s := s.setSeq { s.seq with record := [], result := .none }) started step sound
      fun _ => untripped
    obtain ⟨answers, cfg, rcp, ilk, pins, -, -, pending, table, -⟩ := started_frame s
    generalize settle (enterWaiting 1 true (s.setSeq { s.seq with record := [], result := .none })) = t at enters answers cfg rcp ilk pins pending table
    have drive : ∀ d, (answered m 0 [] t).drive d = t.drive d := fun d => by simp [State.drive]
    have head : ∀ c, (answered m 0 [] t).head c = t.head c := fun c => by simp [State.head]
    have outcome : (s.pcc.condLost = false ∨ st.inSitu = false → t.seq.state = .waiting ∧ t.seq.causes = .empty) ∧
        (s.pcc.condLost = true → st.inSitu = true →
          t.seq.state = .holding ∧ t.seq.causes.conditioner = true ∧ t.seq.resume = some .waiting) ∧ HeadHolds st s t := by
      by_cases conditions : s.pcc.condLost = true ∧ st.inSitu = true
      · have joins : causesOf st (s.setSeq { s.seq with record := [], result := .none }) = s.seq.deferred.add .conditioner := by
          simp [causesOf, conditions]
        obtain ⟨seq, holds⟩ := enters.holds (by rw [joins]; exact CauseSet.notForSlurry_add _ ⟨nofun, nofun⟩)
        rw [joins] at seq
        exact ⟨fun not => by simp [conditions] at not, fun _ _ => by rw [seq]; exact ⟨rfl, rfl, rfl⟩, holds⟩
      · have none_join : causesOf st (s.setSeq { s.seq with record := [], result := .none }) = .empty :=
          (if_neg (by simpa using conditions)).trans undeferred
        obtain ⟨seq, holds⟩ := enters.waits (by rw [none_join]; rfl)
        exact ⟨fun _ => by rw [seq]; exact ⟨rfl, rfl⟩, fun lost inSitu => absurd ⟨lost, inSitu⟩ conditions, holds⟩
    obtain ⟨waits, holds, vented, targets⟩ := outcome
    have q := enters.seq
    rw [(answered_keeps m 0 [] t).1, drive, drive]
    refine ⟨waits, holds, congrArg Seq.index q, congrArg Seq.record q, congrArg Seq.result q, congrArg Seq.elapsed q, congrArg Seq.hold q,
      congrArg Seq.waiting q, congrArg Seq.disposition q, congrArg Seq.endpoint q, (congrArg Seq.copy q :), (congrArg Seq.first q :), enters.platen,
      enters.head, fun condition c => ?_, fun other c sound => ?_, answered_answers answers cfg, ?_⟩
    · rw [head]
      exact vented condition c
    · rw [head]
      exact (targets other c sound).2
    · simp [rcp, ilk, cfg, pins, table, pending]
  · have faulty' : switchesFault st s = true ∨ (true = true ∧ tripped s = true) := faulty.symm.imp_right fun trip => ⟨rfl, trip⟩
    have cut := enterWaiting_cut (fromStart := true) (s := s.setSeq { s.seq with record := [], result := .none }) started step faulty' nofun
    obtain ⟨answers, outside⟩ := started_frame s
    generalize settle (enterWaiting 1 true (s.setSeq { s.seq with record := [], result := .none })) = t at cut answers outside
    have drive : ∀ d, (answered m 0 [] t).drive d = t.drive d := fun d => by simp [State.drive]
    have slot : (answered m 0 [] t).lnk.demandSlot = t.lnk.demandSlot := answered_demandSlot ..
    obtain ⟨e, seq, -, result, -⟩ := cut.seq
    rw [(answered_keeps m 0 [] t).1, seq, slot]
    refine ⟨rfl, rfl, rfl, ?_, rfl, ?_, rfl, fun d => ?_, ?_, fun ready feed => cut.demand ready (by simp [run]) feed,
      answered_answers answers outside.1, ?_⟩
    · exact if_congr (and_iff_right rfl) rfl rfl
    · simp [result]
    · rw [drive]
      exact cut.setpoints d
    · have peer : (answered m 0 [] t).peer = t.peer := by simp only [answered_keeps]
      rw [peer]
      exact cut.own
    · exact outside.answered m 0 []

end Sys2Proof.Machine
end

section
/-! RESUME (R80, R81): the causes that leave and stay, and the departures from HOLDING to WAITING and to ENDING. -/

namespace Sys2Proof.Machine

open Sys2Proof

section
variable {s u : State} {m : OrderMeta}

/-! ### RESUME as it is answered -/

/-- The state and the answer of a RESUME that is taken: the answer carries what stays (R81, R185). -/
def resumed (m : OrderMeta) (u : State) : State := answered m 0 [byteOf (bitSet (settle u).seq.causes.bits)] (settle u)

theorem resume_taken (takes : takesOrder m s = true) (unlocked : s.ilk.mode ≠ .lockout) (holding : s.seq.state = .holding) :
    exec (.resume m) s = .next (resumed m (resumeHold s)) := by
  have e : orderResume s = resumeReply (settle (resumeHold s)) .ok := by rw [orderResume, if_neg unlocked, if_pos holding]
  exact congrArg Host.Outcome.next (serve_of takes e (by simp))

theorem resume_refused (takes : takesOrder m s = true) (unlocked : s.ilk.mode ≠ .lockout) (other : s.seq.state ≠ .holding) :
    exec (.resume m) s = .next (answered m 2 [byteOf (bitSet s.seq.causes.bits)] s) := by
  have e : orderResume s = resumeReply s .state := by rw [orderResume, if_neg unlocked, if_neg other]
  exact congrArg Host.Outcome.next (serve_of takes e rfl)

/-- The causes that RESUME leaves in the set (R81). -/
def keptCauses (s : State) : CauseSet :=
  { CauseSet.empty with
    interlock := s.seq.causes.interlock && holdLineActive s, mode := s.seq.causes.mode && s.ilk.mode == .service
    share := s.seq.causes.share, supply := s.seq.causes.supply }

/-- SEQ with the decision that CONDITIONER's removal takes (R70). -/
def decidedSeq (s : State) : Seq :=
  if s.seq.causes.conditioner = true ∧ s.pcc.condLost = true then
    if s.stepKind = some .condition then { s.seq with disposition := .skip }
    else { s.seq with disposition := .conditioningOff, flags := { s.seq.flags with condLost := true } }
  else s.seq

theorem resumeDisposition_eq (s : State) : resumeDisposition s = s.setSeq (decidedSeq s) := by
  simp only [resumeDisposition, decidedSeq, Bool.and_eq_true]
  split
  · split <;> rfl
  · rfl

/-- The decision touches nothing of SEQ but the step's disposition and flags. -/
theorem decidedSeq_eq (s : State) :
    decidedSeq s = { s.seq with disposition := (decidedSeq s).disposition, flags := (decidedSeq s).flags } := by
  unfold decidedSeq
  split
  · split <;> rfl
  · rfl

theorem decidedSeq_causes (s : State) : (decidedSeq s).causes = s.seq.causes := (congrArg Seq.causes (decidedSeq_eq s) :)

theorem decidedSeq_state (s : State) : (decidedSeq s).state = s.seq.state := (congrArg Seq.state (decidedSeq_eq s) :)

theorem decidedSeq_record (s : State) : (decidedSeq s).record = s.seq.record := (congrArg Seq.record (decidedSeq_eq s) :)

theorem decidedSeq_index (s : State) : (decidedSeq s).index = s.seq.index := (congrArg Seq.index (decidedSeq_eq s) :)

theorem decidedSeq_hold (s : State) : (decidedSeq s).hold = s.seq.hold := (congrArg Seq.hold (decidedSeq_eq s) :)

theorem decidedSeq_copy (s : State) : (decidedSeq s).copy = s.seq.copy := (congrArg Seq.copy (decidedSeq_eq s) :)

theorem decidedSeq_resume (s : State) : (decidedSeq s).resume = s.seq.resume := (congrArg Seq.resume (decidedSeq_eq s) :)

theorem decidedSeq_of_kept (kept : s.pcc.condLost = false ∨ s.seq.causes.conditioner = false) : decidedSeq s = s.seq := by
  refine if_neg fun ⟨conditioner, lost⟩ => ?_
  rcases kept with kept | kept
  · simp [lost] at kept
  · simp [conditioner] at kept

/-- The state with the decision taken and the causes removed. -/
def causesRemoved (s : State) : State := s.setSeq { decidedSeq s with causes := keptCauses s }

/-- RESUME leaves HOLDING where its removals empty the set (R80, R81). -/
theorem resumeHold_eq (unlocked : s.ilk.mode ≠ .lockout) : resumeHold s =
    if (keptCauses s).isEmpty then leaveHolding (causesRemoved s) else causesRemoved s := by
  have service : (s.ilk.mode != .run) = (s.ilk.mode == .service) := by
    cases mode : s.ilk.mode
    · rfl
    · rfl
    · exact absurd mode unlocked
  have kept : causesAfterResume (s.setSeq (decidedSeq s)) = keptCauses s := by
    have line : holdLineActive (s.setSeq (decidedSeq s)) = holdLineActive s := rfl
    simp only [causesAfterResume, keptCauses, line, State.setSeq_seq, decidedSeq_causes, State.setSeq_ilk, service]
    rfl
  rw [resumeHold, resumeDisposition_eq]
  dsimp only
  rw [kept]
  rfl

theorem causesRemoved_of_kept (kept : s.pcc.condLost = false ∨ s.seq.causes.conditioner = false) :
    causesRemoved s = s.setSeq { s.seq with causes := keptCauses s } := by rw [causesRemoved, decidedSeq_of_kept kept]

/-- Nothing stays where the interlock's and the mode's reasons have gone and SDU holds nothing (R81). -/
theorem keptCauses_empty (line : s.seq.causes.interlock = false ∨ holdLineActive s = false)
    (mode : s.seq.causes.mode = false ∨ s.ilk.mode = .run) (share : s.seq.causes.share = false) (supply : s.seq.causes.supply = false) :
    keptCauses s = .empty := by
  have line' : (s.seq.causes.interlock && holdLineActive s) = false := Bool.and_eq_false_iff.2 line
  have mode' : (s.seq.causes.mode && s.ilk.mode == .service) = false := Bool.and_eq_false_iff.2 (mode.imp_right fun run => by rw [run]; rfl)
  rw [keptCauses, line', mode', share, supply]
  rfl

/-! ### What RESUME leaves of the other blocks -/

theorem resumeHold_frame (s : State) : (settle (resumeHold s)).lnk.answers = s.lnk.answers ∧ OutsideStands s (settle (resumeHold s)) := by
  simp [OutsideStands]

/-- With the set empty after it, RESUME's answer carries 0 (R81, R185). -/
theorem resumed_answers {t : State} (answers : (settle t).lnk.answers = s.lnk.answers) (cfg : (settle t).cfg = s.cfg)
    (causes : (settle t).seq.causes = .empty) : (resumed m t).lnk.answers = (answered m 0 [0#8] s).lnk.answers := by
  rw [resumed, causes]
  exact answers_of answers cfg

end

end Sys2Proof.Machine
end

section
/-! HOLDING left for WAITING, for ENDING, and for RUNNING (R70, R80). -/

namespace Sys2Proof.Machine

open Sys2Proof

section
variable {s u v : State} {st : StepRec}

/-! ### To ENDING -/

/-- An entry to ENDING whose post-rinse can be run, carried through (R47, R82). -/
theorem enterEnding_settled (rinse : postRinseFault v = false) :
    (settle (enterEnding v)).seq = { v.seq with state := .ending, causes := .empty, deferred := .empty, resume := none } ∧
    (settle (enterEnding v)).drv = v.drv := by
  have seq : (enterEnding v).seq = { v.seq with state := .ending, causes := .empty, deferred := .empty, resume := none } := by
    rw [enterEnding_of_rinse rinse]
    simp
  obtain ⟨seq', -, -, -, drv, -⟩ := settle_calm (s := enterEnding v) (by rw [seq]; nofun) (by rw [seq]; nofun)
  refine ⟨seq'.trans seq, drv.trans ?_⟩
  rw [enterEnding_of_rinse rinse]
  simp

/-- A step that is skipped leaves its entry with elapsed time and dose 0 and the COND_LOST flag (R70). -/
theorem leaveHolding_skips (resume : u.seq.resume = some .waiting) (skip : u.seq.disposition = .skip) (rinse : postRinseFault u = false) :
    (settle (leaveHolding u)).seq = { u.seq with
      state := .ending, causes := .empty, deferred := .empty, resume := none
      record := u.seq.record ++
        [⟨u.seq.index, .skipped, 0, min 65535 (u.seq.hold / 100000), 0, none, { u.seq.flags with condLost := true }⟩] } ∧
    (settle (leaveHolding u)).drv = u.drv := by
  have left : leaveHolding u = enterEnding (noticeLeft .ending (appendEntry u.skippedEntry u)) := by
    simp only [leaveHolding, resume, if_pos skip]
  have rinse' : postRinseFault (noticeLeft .ending (appendEntry u.skippedEntry u)) = false :=
    (postRinseFault_congr (by simp) (by simp) (by simp)).trans rinse
  obtain ⟨seq, drv⟩ := enterEnding_settled rinse'
  have before : (noticeLeft .ending (appendEntry u.skippedEntry u)).seq = { u.seq with record := u.seq.record ++ [u.skippedEntry] } := by
    simp [appendEntry_seq]
  rw [left]
  exact ⟨by rw [seq, before]; rfl, drv.trans (by simp)⟩

/-- A step already concluded goes on to ENDING (R75, R80). -/
theorem leaveHolding_concluded (resume : u.seq.resume = some .running) (concluded : u.seq.disposition = .concluded)
    (rinse : postRinseFault u = false) :
    (settle (leaveHolding u)).seq = { u.seq with state := .ending, causes := .empty, deferred := .empty, resume := none } := by
  have left : leaveHolding u = enterEnding (noticeLeft .ending u) := by simp only [leaveHolding, resume, if_pos concluded]
  obtain ⟨seq, -⟩ := enterEnding_settled (v := noticeLeft .ending u) ((postRinseFault_congr (by simp) (by simp) (by simp)).trans rinse)
  rw [left, seq]
  simp

/-! ### To WAITING -/

/-- The return to WAITING, carried through (R80). -/
theorem leaveHolding_waits (resume : u.seq.resume = some .waiting) (unskipped : u.seq.disposition ≠ .skip) :
    let t := settle (leaveHolding u)
    t.seq = { u.seq with state := .waiting, causes := .empty, resume := none } ∧ t.hpc = u.hpc ∧ t.pcc = u.pcc ∧ t.drv = u.drv := by
  rw [leaveHolding_of_waiting resume unskipped]
  have seq : (noticeLeft .waiting (u.setSeq { u.seq with state := .waiting, causes := .empty, resume := none })).seq =
      { u.seq with state := .waiting, causes := .empty, resume := none } := by simp
  obtain ⟨seq', hpc, pcc, -, drv, -⟩ := settle_calm
    (s := noticeLeft .waiting (u.setSeq { u.seq with state := .waiting, causes := .empty, resume := none })) (by rw [seq]; nofun) (by rw [seq]; nofun)
  exact ⟨seq'.trans seq, by simp [hpc], by simp [pcc], by simp [drv]⟩

/-! ### To RUNNING -/

theorem leaveHolding_runs (resume : u.seq.resume = some .running) (unconcluded : u.seq.disposition ≠ .concluded) (share : u.sdu.share = false) :
    leaveHolding u = returnToRunning u := by
  simp only [leaveHolding, resume, if_neg unconcluded, share]
  rfl

/-- With the SHARE condition holding, the return finds it at once (R50, R80). -/
theorem leaveHolding_shared (resume : u.seq.resume = some .running) (unconcluded : u.seq.disposition ≠ .concluded) (share : u.sdu.share = true) :
    leaveHolding u = u.setSeq { u.seq with causes := { CauseSet.empty with share := true } } := by
  simp only [leaveHolding, resume, if_neg unconcluded, share]
  rfl

/-- The step runs, or is held with resume target RUNNING, unconcluded. -/
def RunsOn (s : State) : Prop :=
  (s.seq.state = .running ∨ s.seq.state = .holding ∧ s.seq.resume = some .running) ∧ s.seq.disposition ≠ .concluded

theorem RunsOn.congr (h : RunsOn u) (state : v.seq.state = u.seq.state) (resume : v.seq.resume = u.seq.resume)
    (disposition : v.seq.disposition = u.seq.disposition) : RunsOn v := by
  rw [RunsOn, state, resume, disposition]
  exact h

theorem returnSweep_state (running : s.seq.state = .running) : (returnSweep s).seq.state = .running := by
  unfold returnSweep
  split
  · exact running
  · split
    · exact running
    · split
      · simp [running]
      · rw [armFault_of_running running]
        simp [flagCondLost, running]

theorem returnToRunning_state (s : State) : (returnToRunning s).seq.state = .running :=
  returnSweep_state (by simp)

theorem RunsOn.leaveHolding (h : RunsOn u) (holding : u.seq.state = .holding) : RunsOn (leaveHolding u) := by
  obtain ⟨state, unconcluded⟩ := h
  obtain ⟨-, resume⟩ := state.resolve_left (by simp [holding])
  cases share : u.sdu.share
  · rw [leaveHolding_runs resume unconcluded share]
    exact ⟨.inl (returnToRunning_state u), by simpa using unconcluded⟩
  · rw [leaveHolding_shared resume unconcluded share]
    exact ⟨.inr ⟨holding, resume⟩, unconcluded⟩

theorem RunsOn.carry (h : RunsOn u) : RunsOn (carry u) := h.congr (by simp) (by simp) (by simp)

theorem RunsOn.takeReports (h : RunsOn u) : RunsOn (takeReports u) := by
  obtain ⟨state, unconcluded⟩ := id h
  unfold Machine.takeReports
  rcases state with running | ⟨holding, resume⟩
  · rw [running]
    dsimp only
    split
    · exact ⟨.inr (by rw [enterHolding_seq]; exact ⟨rfl, rfl⟩), by simpa using unconcluded⟩
    · exact h
  · rw [holding]
    dsimp only
    have removed : RunsOn (u.setSeq { u.seq with causes := causesAfterWithdrawal u }) := ⟨.inr ⟨holding, resume⟩, unconcluded⟩
    split
    · exact h
    · split
      · exact removed.leaveHolding holding
      · exact removed

/-- SHARE may hold the step again at once, and SDU may withdraw it (R50, R76, R80). -/
theorem RunsOn.settle (h : RunsOn u) : RunsOn (settle u) := by
  unfold Machine.settle
  split
  · exact h.carry.takeReports.carry.takeReports.carry.congr (by simp) (by simp) (by simp)
  · exact h

end

end Sys2Proof.Machine
end

section
/-! The return to RUNNING (R80): the targets taken afresh, the symbolizer, and the arm toward its resume point (R136, R137, R143). -/

namespace Sys2Proof.Machine

open Sys2Proof

section
variable {s u v : State} {st : StepRec}

/-! ### The segment of a radius (R136) -/

section
variable {segs : List Segment} {test : Nat → Bool}

/-- The first segment whose outer radius passes a test: it is one of the profile's, the outer radius before it fails the test, and its own passes
or it is the last. -/
theorem firstSegment_spec (some_segs : 1 ≤ segs.length) :
    let j := firstSegment segs test
    1 ≤ j ∧ j ≤ segs.length ∧ (1 < j → test (outerOf segs (j - 1)) = false) ∧ (test (outerOf segs j) = true ∨ j = segs.length) := by
  unfold firstSegment
  split
  · next i found =>
    obtain ⟨passes, within, before⟩ := List.find?_range_eq_some.1 found
    rw [List.mem_range] at within
    refine ⟨by omega, by omega, fun many => ?_, .inl passes⟩
    have fails := before (i - 1) (by omega)
    rw [show i - 1 + 1 = i + 1 - 1 by omega] at fails
    simpa using fails
  · next none_passes =>
    simp only [List.find?_eq_none, List.mem_range] at none_passes
    refine ⟨some_segs, Nat.le_refl _, fun many => ?_, .inr rfl⟩
    have fails := none_passes (segs.length - 2) (by omega)
    rw [show segs.length - 2 + 1 = segs.length - 1 by omega] at fails
    exact Bool.eq_false_iff.2 fails

theorem innerOf_of_first {j : Nat} (first : j ≤ 1) : innerOf segs j = innerRadius := if_pos first

theorem innerOf_of_later {j : Nat} (later : 1 < j) : innerOf segs j = outerOf segs (j - 1) := if_neg (Nat.not_le.2 later)

/-- The segment of a radius within the profile holds it, and leads on from it in the direction of the sweep. -/
theorem segmentAt_spec (some_segs : 1 ≤ segs.length) {radius : Nat} (reached : innerRadius ≤ radius) (within : radius ≤ lastOuter segs)
    (d : Direction) :
    let seg := segmentAt segs radius d
    1 ≤ seg ∧ seg ≤ segs.length ∧ innerOf segs seg ≤ radius ∧ radius ≤ outerOf segs seg ∧
    (d = .outward → radius < outerOf segs seg ∨ seg = segs.length) ∧ (d = .inward → innerOf segs seg < radius ∨ seg = 1) := by
  cases d with
  | outward =>
    obtain ⟨low, high, before, passes⟩ := firstSegment_spec (test := fun r => radius < r) some_segs
    rw [segmentAt]
    generalize firstSegment segs _ = seg at *
    simp only [decide_eq_false_iff_not, decide_eq_true_eq, Nat.not_lt] at before passes
    refine ⟨low, high, ?_, ?_, fun _ => passes, nofun⟩
    · rcases Nat.lt_or_ge 1 seg with later | first
      · rw [innerOf_of_later later]
        exact before later
      · rw [innerOf_of_first first]
        exact reached
    · rcases passes with passes | last
      · exact passes.le
      · exact within.trans_eq (congrArg (outerOf segs) last.symm)
  | inward =>
    obtain ⟨low, high, before, passes⟩ := firstSegment_spec (test := fun r => radius ≤ r) some_segs
    rw [segmentAt]
    generalize firstSegment segs _ = seg at *
    simp only [decide_eq_false_iff_not, decide_eq_true_eq, Nat.not_le] at before passes
    have inner : innerOf segs seg ≤ radius ∧ (innerOf segs seg < radius ∨ seg = 1) := by
      rcases Nat.lt_or_ge 1 seg with later | first
      · rw [innerOf_of_later later]
        exact ⟨(before later).le, .inl (before later)⟩
      · rw [innerOf_of_first first]
        exact ⟨reached, .inr (Nat.le_antisymm first low)⟩
    refine ⟨low, high, inner.1, ?_, nofun, fun _ => inner.2⟩
    rcases passes with passes | last
    · exact passes
    · exact within.trans_eq (congrArg (outerOf segs) last.symm)

end

/-! ### The step targets taken afresh (R115, R117, R120) -/

theorem takeStepTargets_of_none (none_now : s.stepNow = none) :
    takeStepTargets s = reportClamped (takeTargets s.hpc.stepTargets 0 true s) := by
  rw [takeStepTargets, State.stepKind, State.rampTime, none_now]
  rfl

/-- Taking the step targets leaves what the channels were asked and what they measure. -/
theorem takeStepTargets_asks (s : State) (c : HeadCh) : ((takeStepTargets s).head c).requested = (s.head c).requested ∧
    ((takeStepTargets s).head c).measured = (s.head c).measured := by
  cases now : s.stepNow with
  | some st => exact takeStepTargets_inputs now c
  | none =>
    have reported : (takeStepTargets s).head c = (takeTargets s.hpc.stepTargets 0 true s).head c := by
      rw [takeStepTargets_of_none now]
      simp [State.head]
    rw [reported, takeTargets_now_head]
    exact HeadChan.takeNow_inputs ..

/-- Taking the step targets adds CLAMPED to the step's flags where they are not the requested values (R89, R117). -/
theorem takeStepTargets_flags (s : State) : (takeStepTargets s).seq = { s.seq with flags := { s.seq.flags with
    clamped := s.seq.flags.clamped || decide (s.hpc.stepTargets ≠ s.hpc.ch.map HeadChan.requested) } } := by
  cases now : s.stepNow with
  | some st => exact takeStepTargets_seq now
  | none =>
    have requested : (takeTargets s.hpc.stepTargets 0 true s).hpc.ch.map HeadChan.requested = s.hpc.ch.map HeadChan.requested :=
      PerHead.ext' fun c => by
        have same := (HeadChan.takeNow_inputs (s.head c) s.img.regTolerance (s.hpc.stepTargets.get c)).1
        rw [← takeTargets_now_head] at same
        simpa [State.head] using same
    rw [takeStepTargets_of_none now, reportClamped_seq, requested]
    simp only [takeTargets_keeps]

/-- The head at a step's targets: vented for a CONDITION step, else each sound channel at its target at once or on its ramp to it (R115, R120). -/
def HeadRuns (st : StepRec) (s u : State) : Prop :=
  (st.kind = .condition → u.hpc.ramp = none ∧ u.hpc.inForce = false ∧ ∀ c : HeadCh, (u.head c).applied = 0 ∧ (u.head c).target = 0) ∧
  (st.kind ≠ .condition → st.rampTime = 0 → u.hpc.ramp = none ∧ u.hpc.atTarget = true ∧
    ∀ c : HeadCh, (s.head c).state ≠ .channelFault → (u.head c).state = .regulating ∧
      (u.head c).target = s.hpc.stepTargets.get c ∧ (u.head c).applied = s.hpc.stepTargets.get c) ∧
  (st.kind ≠ .condition → 0 < st.rampTime → u.hpc.ramp = some ⟨s.applied, st.rampTime * 5, 0, 0⟩ ∧
    ∀ c : HeadCh, (s.head c).state ≠ .channelFault → (u.head c).state = .ramping ∧
      (u.head c).target = s.hpc.stepTargets.get c ∧ (u.head c).applied = (s.head c).applied)

theorem HeadRuns.congr (h : HeadRuns st s u) (hpc : v.hpc = u.hpc) : HeadRuns st s v := by
  simpa only [HeadRuns, State.head, hpc] using h

/-- What the head holds turns on HPC alone. -/
theorem HeadRuns.held_congr (h : HeadRuns st s u) (hpc : v.hpc = s.hpc) : HeadRuns st v u := by
  simpa only [HeadRuns, State.head, State.applied, hpc] using h

theorem takeStepTargets_runs (now : s.stepNow = some st) : HeadRuns st s (takeStepTargets s) := by
  refine ⟨fun condition => ?_, fun other time => ?_, fun other time => ?_⟩
  · have hpc : (takeStepTargets s).hpc = (ventHead s).hpc := by rw [takeStepTargets_vents now condition]; simp
    refine ⟨by simp [hpc, ventHead], by simp [hpc, ventHead], fun c => ?_⟩
    rw [State.head, hpc, ← State.head, ventHead_head]
    exact ⟨rfl, rfl⟩
  · have hpc : (takeStepTargets s).hpc = (takeTargets s.hpc.stepTargets 0 true s).hpc := by rw [takeStepTargets_takes now other, time]; simp
    refine ⟨by rw [hpc, takeTargets_now], by rw [hpc, takeTargets_now], fun c sound => ?_⟩
    rw [State.head, hpc, ← State.head, takeTargets_now_head]
    exact HeadChan.takeNow_of_sound sound ..
  · have hpc : (takeStepTargets s).hpc = (takeTargets s.hpc.stepTargets st.rampTime true s).hpc := by
      rw [takeStepTargets_takes now other]
      simp
    obtain ⟨ramp, head⟩ := takeTargets_ramp s.hpc.stepTargets s time
    refine ⟨by rw [hpc, ramp], fun c sound => ?_⟩
    rw [State.head, hpc, ← State.head, head]
    exact HeadChan.startRamp_of_sound sound _

end

end Sys2Proof.Machine
end

section
/-! RUNNING returned to, block by block (R80), and what PCC makes of the resume point it holds (R136, R137, R143). -/

namespace Sys2Proof.Machine

open Sys2Proof

section
variable {s v : State} {st : StepRec}

/-! ### Before PCC's part -/

/-- RUNNING returned to with HOLD_LEFT queued, the step targets taken afresh and the symbolizer resumed. -/
def returned (s : State) : State :=
  resumeSymbolizer (takeStepTargets (noticeLeft .running (s.setSeq { s.seq with
    state := .running, causes := .empty, resume := none, sinceStart := false })))

theorem returnToRunning_eq (s : State) : returnToRunning s = returnSweep (returned s) := rfl

theorem returned_seq (s : State) : (returned s).seq = { s.seq with
    state := .running, causes := .empty, resume := none, sinceStart := false
    flags := { s.seq.flags with
      clamped := s.seq.flags.clamped || decide (s.hpc.stepTargets ≠ s.hpc.ch.map HeadChan.requested) } } := by
  have kept : ∀ u : State, (resumeSymbolizer u).seq = u.seq := fun u => by simp
  rw [returned, kept, takeStepTargets_flags]
  simp only [noticeLeft_keeps, State.setSeq_seq, State.setSeq_hpc]

/-- A SUSPENDED symbolizer enters REFERENCE with its timer started afresh (R149). -/
theorem returned_epm (s : State) : (returned s).epm =
    if s.epm.state = .suspended then { s.epm with state := .reference, periodTimer := 0 } else s.epm := by
  have before : (takeStepTargets (noticeLeft .running (s.setSeq { s.seq with
      state := .running, causes := .empty, resume := none, sinceStart := false }))).epm = s.epm := by simp
  rw [returned, resumeSymbolizer, before]
  split
  · rfl
  · exact before

/-- The head takes the step targets as from the held state. -/
theorem returned_runs (now : s.stepNow = some st) : HeadRuns st s (returned s) := by
  have now' : (noticeLeft .running (s.setSeq { s.seq with
      state := .running, causes := .empty, resume := none, sinceStart := false })).stepNow = some st :=
    (State.stepNow_congr (by simp) (by simp)).trans now
  exact ((takeStepTargets_runs now').held_congr (v := s) (by simp)).congr (by simp [returned])

theorem returned_asks (s : State) (c : HeadCh) : ((returned s).head c).requested = (s.head c).requested ∧
    ((returned s).head c).measured = (s.head c).measured := by
  have asks := takeStepTargets_asks (noticeLeft .running (s.setSeq { s.seq with
    state := .running, causes := .empty, resume := none, sinceStart := false })) c
  simpa only [State.head, returned, resumeSymbolizer_keeps, noticeLeft_keeps, State.setSeq_hpc] using asks

/-- HOLD_LEFT is queued with the step index, RUNNING and the hold time (R80, R187). -/
theorem returned_lnk (s : State) : (returned s).lnk =
    (placeNotice 6 ([byteOf s.seq.index, 3] ++ le2 (min 65535 (s.seq.hold / 100000))) s).lnk := by
  have kept : ∀ u : State, (resumeSymbolizer (takeStepTargets u)).lnk = u.lnk := fun u => by simp
  rw [returned, kept]
  exact placeNotice_lnk_congr (s := s) (by simp) (by simp) ..

theorem returned_keeps (s : State) : (returned s).pcc = s.pcc ∧ (returned s).peer = s.peer ∧ (returned s).shr = s.shr ∧
    (returned s).sdu = s.sdu ∧ (returned s).drv = s.drv ∧ OutsideStands s (returned s) := by
  simp [returned, OutsideStands]

/-! ### The arm's part (R136, R137, R143) -/

/-- A resume point is held whose profile cannot be read (R143). -/
def profileUnread (s : State) : Bool := s.pcc.resume.isSome && !s.pcc.withdrawn && (stepProfile s).state != .written

theorem profileUnread_iff : profileUnread s = true ↔
    (∃ point, s.pcc.resume = some point) ∧ s.pcc.withdrawn = false ∧ (stepProfile s).state ≠ .written := by
  simp [profileUnread, Option.isSome_iff_exists, and_assoc]

/-- The profile read turns on the step and the store alone. -/
theorem profileUnread_congr (pcc : v.pcc = s.pcc) (index : v.seq.index = s.seq.index) (copy : v.seq.copy = s.seq.copy) (rcp : v.rcp = s.rcp) :
    stepProfile v = stepProfile s ∧ profileUnread v = profileUnread s := by
  have now : v.stepNow = s.stepNow := State.stepNow_congr copy index
  have profile : stepProfile v = stepProfile s := by rw [stepProfile, stepProfile, now, rcp]
  exact ⟨profile, by rw [profileUnread, profileUnread, profile, pcc]⟩

theorem returnSweep_stands (absent : s.pcc.resume = none ∨ s.pcc.withdrawn = true) : returnSweep s = s := by
  unfold returnSweep
  split
  · rfl
  · next point resume => rw [if_pos (absent.resolve_left (by simp [resume]))]

theorem returnSweep_resumes {point : ResumePoint} (resume : s.pcc.resume = some point) (kept : s.pcc.withdrawn = false)
    (written : (stepProfile s).state = .written) : returnSweep s = resumeSweep (stepProfile s).segments point s := by
  simp [returnSweep, resume, kept, written]

theorem returnSweep_loses (running : s.seq.state = .running) (lost : profileUnread s = true) :
    returnSweep s = flagCondLost (loseArm .profile s) := by
  obtain ⟨⟨point, resume⟩, kept, unwritten⟩ := profileUnread_iff.1 lost
  simp [returnSweep, resume, kept, unwritten, armFault_of_running running]

/-- Without the arm fault PCC alone can move. -/
theorem returnSweep_of_read (read : profileUnread s = false) : ∃ p, returnSweep s = s.setPcc p := by
  cases resume : s.pcc.resume with
  | none => exact ⟨s.pcc, returnSweep_stands (.inl resume)⟩
  | some point =>
    cases withdrawn : s.pcc.withdrawn with
    | true => exact ⟨s.pcc, returnSweep_stands (.inr withdrawn)⟩
    | false =>
      have written : (stepProfile s).state = .written := by simpa [profileUnread, resume, withdrawn] using read
      exact ⟨_, returnSweep_resumes resume withdrawn written⟩

/-- Outside PCC the arm's part adds at most the fault's flag and its COND_LOST (R143). -/
theorem returnSweep_spec (running : s.seq.state = .running) :
    let t := returnSweep s
    t.seq = { s.seq with flags := { s.seq.flags with condLost := s.seq.flags.condLost || profileUnread s } } ∧
    t.lnk = (if profileUnread s then placeNotice 16 (2 :: le2 (s.pins.armFeedback / 1000000)) s else s).lnk ∧
    t.hpc = s.hpc ∧ t.epm = s.epm ∧ t.peer = s.peer ∧ t.shr = s.shr ∧ t.sdu = s.sdu ∧ t.drv = s.drv ∧ OutsideStands s t := by
  cases lost : profileUnread s with
  | true =>
    rw [returnSweep_loses running lost]
    refine ⟨by simp [flagCondLost], ?_, by simp [OutsideStands]⟩
    exact loseArm_profile_lnk s
  | false =>
    obtain ⟨p, same⟩ := returnSweep_of_read lost
    rw [same]
    simp [OutsideStands]

/-- A sweep resumed goes in to its resume radius, held to the profile's end and turned inward there (R136). -/
theorem resumeSweep_pcc (segs : List Segment) (point : ResumePoint) (s : State) :
    let radius := min point.radius (lastOuter segs)
    let direction := if lastOuter segs < point.radius then .inward else point.direction
    (resumeSweep segs point s).pcc = { s.pcc with
      segments := segs, segment := segmentAt segs radius direction, direction := direction, arm := .movingIn, destination := radius
      resume := some ⟨radius, segmentAt segs radius direction, direction⟩ } := by
  have radius : (if lastOuter segs < point.radius then lastOuter segs else point.radius) = min point.radius (lastOuter segs) := by
    split <;> omega
  simp only [resumeSweep, State.setPcc_pcc, radius]

/-- PCC at the return to RUNNING: as it stood without a resume point, LOST where the profile cannot be read, else on its way in (R136, R143). -/
theorem returnToRunning_pcc (s : State) :
    (s.pcc.resume = none ∨ s.pcc.withdrawn = true → (returnToRunning s).pcc = s.pcc) ∧
    (profileUnread s = true → (returnToRunning s).pcc = { s.pcc with
      downforce := 0, arm := .lost, resume := none, search := none, withdrawn := true, condLost := true
      positionTimer := 0, stallTimer := 0 }) ∧
    (∀ point, s.pcc.resume = some point → s.pcc.withdrawn = false → profileUnread s = false →
      (returnToRunning s).pcc = (resumeSweep (stepProfile s).segments point s).pcc) := by
  obtain ⟨pcc, -, -, -, -, outside⟩ := returned_keeps s
  obtain ⟨-, rcp, -⟩ := outside
  have seq := returned_seq s
  obtain ⟨profile, unread⟩ := profileUnread_congr pcc (congrArg Seq.index seq :) (congrArg Seq.copy seq :) rcp
  rw [returnToRunning_eq]
  refine ⟨fun absent => ?_, fun lost => ?_, fun point resume kept read => ?_⟩
  · rw [returnSweep_stands (by rwa [pcc])]
    exact pcc
  · have running : (returned s).seq.state = .running := by rw [seq]
    have flagged : ∀ u : State, (flagCondLost u).pcc = u.pcc := fun u => by simp
    rw [returnSweep_loses running (unread.trans lost), flagged, loseArm_pcc running .profile, pcc]
  · have written : (stepProfile s).state = .written := by simpa [profileUnread, resume, kept] using read
    rw [returnSweep_resumes (pcc ▸ resume) (pcc ▸ kept) (profile ▸ written), profile]
    simp only [resumeSweep, State.setPcc_pcc, pcc]

end

end Sys2Proof.Machine
end

section
/-! RESUME (R70, R80, R81): O26. -/

namespace Sys2Proof.Machine

open Sys2Proof

section
variable {s u : State} {m : OrderMeta}

/-! ### The set after RESUME -/

@[simp] theorem causesRemoved_keeps (s : State) : (causesRemoved s).hpc = s.hpc ∧ (causesRemoved s).pcc = s.pcc ∧
    (causesRemoved s).drv = s.drv ∧ (causesRemoved s).lnk = s.lnk ∧ (causesRemoved s).rcp = s.rcp ∧ (causesRemoved s).ilk = s.ilk ∧ (causesRemoved s).cfg = s.cfg ∧
    (causesRemoved s).pins = s.pins ∧ (causesRemoved s).pending = s.pending := by
  simp [causesRemoved]

theorem causesRemoved_rinse (s : State) : postRinseFault (causesRemoved s) = postRinseFault s :=
  postRinseFault_congr (decidedSeq_copy s) (decidedSeq_index s) .rfl

section
variable (takes : takesOrder m s = true) (unlocked : s.ilk.mode ≠ .lockout) (holding : s.seq.state = .holding)
include takes unlocked holding

/-- What stays of the set keeps HOLDING until SDU withdraws it (R81). -/
theorem resume_stays (stays : (keptCauses s).isEmpty = false) : exec (.resume m) s = .next (resumed m (causesRemoved s)) := by
  rw [resume_taken takes unlocked holding, resumeHold_eq unlocked, stays]
  rfl

/-- An emptied set leaves HOLDING, and what the departure leaves alone stands (R80). -/
theorem resume_leaves (gone : keptCauses s = .empty) : exec (.resume m) s = .next (resumed m (leaveHolding (causesRemoved s))) ∧
    OutsideStands s (settle (leaveHolding (causesRemoved s))) ∧
    (settle (leaveHolding (causesRemoved s))).lnk.answers = s.lnk.answers := by
  have left : resumeHold s = leaveHolding (causesRemoved s) := by
    rw [resumeHold_eq unlocked, gone]
    rfl
  obtain ⟨answers, outside⟩ := resumeHold_frame s
  rw [left] at answers outside
  exact ⟨by rw [resume_taken takes unlocked holding, left], outside, answers⟩

/-- A skipped step goes to ENDING with its entry (R70, R80). -/
theorem resume_skips (gone : keptCauses s = .empty) (resume : s.seq.resume = some .waiting) (skip : (decidedSeq s).disposition = .skip)
    (rinse : postRinseFault s = false) :
    ∃ t, exec (.resume m) s = .next t ∧
      t.seq = { decidedSeq s with
        state := .ending, causes := .empty, deferred := .empty, resume := none
        record := s.seq.record ++
          [⟨s.seq.index, .skipped, 0, min 65535 (s.seq.hold / 100000), 0, none, { (decidedSeq s).flags with condLost := true }⟩] } ∧
      t.lnk.answers = (answered m 0 [0#8] s).lnk.answers ∧ t.drv = s.drv ∧ OutsideStands s t := by
  obtain ⟨taken, outside, answers⟩ := resume_leaves takes unlocked holding gone
  obtain ⟨seq, drv⟩ := leaveHolding_skips (u := causesRemoved s) ((decidedSeq_resume s).trans resume) skip ((causesRemoved_rinse s).trans rinse)
  refine ⟨_, taken, ?_, resumed_answers answers outside.1 (by rw [seq]), ?_, outside.answered ..⟩
  · rw [resumed, (answered_keeps ..).1, seq, ← decidedSeq_record s, ← decidedSeq_index s, ← decidedSeq_hold s]
    rfl
  · rw [resumed]
    simpa using drv

/-- A step that waits goes back to WAITING (R80). -/
theorem resume_waits (gone : keptCauses s = .empty) (resume : s.seq.resume = some .waiting) (unskipped : (decidedSeq s).disposition ≠ .skip) :
    ∃ t, exec (.resume m) s = .next t ∧ t.seq = { decidedSeq s with state := .waiting, causes := .empty, resume := none } ∧
      t.hpc = s.hpc ∧ t.pcc = s.pcc ∧ t.drv = s.drv ∧ t.lnk.answers = (answered m 0 [0#8] s).lnk.answers ∧ t.rcp = s.rcp ∧
      t.ilk = s.ilk ∧ t.cfg = s.cfg ∧ t.pins = s.pins ∧ t.pending = s.pending := by
  obtain ⟨taken, outside, answers⟩ := resume_leaves takes unlocked holding gone
  obtain ⟨seq, hpc, pcc, drv⟩ := leaveHolding_waits (u := causesRemoved s) ((decidedSeq_resume s).trans resume) unskipped
  refine ⟨_, taken, (answered_keeps ..).1.trans seq, ?_, ?_, ?_, resumed_answers answers outside.1 (by rw [seq]), ?_⟩
  · simpa [resumed] using hpc
  · simpa [resumed] using pcc
  · simpa [resumed] using drv
  · simp [resumed]

/-- A step already concluded goes to ENDING (R75, R80). -/
theorem resume_concludes (gone : keptCauses s = .empty) (resume : s.seq.resume = some .running)
    (concluded : (decidedSeq s).disposition = .concluded) (rinse : postRinseFault s = false) :
    ∃ t, exec (.resume m) s = .next t ∧
      t.seq = { decidedSeq s with state := .ending, causes := .empty, deferred := .empty, resume := none } ∧
      t.lnk.answers = (answered m 0 [0#8] s).lnk.answers ∧ OutsideStands s t := by
  obtain ⟨taken, outside, answers⟩ := resume_leaves takes unlocked holding gone
  have seq := leaveHolding_concluded (u := causesRemoved s) ((decidedSeq_resume s).trans resume) concluded ((causesRemoved_rinse s).trans rinse)
  exact ⟨_, taken, (answered_keeps ..).1.trans seq, resumed_answers answers outside.1 (by rw [seq]), outside.answered ..⟩

/-- The step runs on from where it was held (R80). -/
theorem resume_runs (gone : keptCauses s = .empty) (kept : s.pcc.condLost = false ∨ s.seq.causes.conditioner = false)
    (resume : s.seq.resume = some .running) (unconcluded : s.seq.disposition ≠ .concluded) (share : s.sdu.share = false) :
    exec (.resume m) s = .next (resumed m (returnToRunning s)) := by
  obtain ⟨taken, -⟩ := resume_leaves takes unlocked holding gone
  have removed := causesRemoved_of_kept kept
  rw [taken, removed, leaveHolding_runs (u := s.setSeq { s.seq with causes := keptCauses s }) resume unconcluded share]
  rfl

/-- With the SHARE condition holding, the cause joins the emptied set (R50, R80). -/
theorem resume_shared (gone : keptCauses s = .empty) (kept : s.pcc.condLost = false ∨ s.seq.causes.conditioner = false)
    (resume : s.seq.resume = some .running) (unconcluded : s.seq.disposition ≠ .concluded) (share : s.sdu.share = true) :
    exec (.resume m) s = .next (resumed m (s.setSeq { s.seq with causes := { CauseSet.empty with share := true } })) := by
  obtain ⟨taken, -⟩ := resume_leaves takes unlocked holding gone
  have removed := causesRemoved_of_kept kept
  rw [taken, removed, leaveHolding_shared (u := s.setSeq { s.seq with causes := keptCauses s }) resume unconcluded share]
  rfl

omit unlocked in
/-- A cause whose reason stands, or a low inlet, keeps HOLDING as the change is carried through (R81). -/
theorem causesRemoved_stays (stays : (keptCauses s).interlock = true ∨ (keptCauses s).mode = true ∨
    ((keptCauses s).supply = true ∧ anyLow s = true)) :
    let t := settle (causesRemoved s)
    t.seq = { decidedSeq s with causes := { keptCauses s with share := t.seq.causes.share, supply := (keptCauses s).supply && anyLow s } } ∧
    t.hpc = s.hpc ∧ t.pcc = s.pcc ∧ t.drv = s.drv ∧ t.lnk.notices = s.lnk.notices := by
  have held : holdStays (causesRemoved s) := by
    rcases stays with interlock | mode | low
    · exact .inl (by simp [causesRemoved, CauseSet.notForSlurry, interlock])
    · exact .inl (by simp [causesRemoved, CauseSet.notForSlurry, mode])
    · exact .inr low
  have state : (causesRemoved s).seq.state = .holding := (decidedSeq_state s).trans holding
  obtain ⟨seq, hpc, pcc, -, drv, notices, -⟩ := settle_stays (s := causesRemoved s) (started_of_takesOrder (m := m) takes) state held
  exact ⟨seq.trans rfl, hpc, pcc, drv, notices⟩

end

/-! ### The return to RUNNING, as it is stated -/

/-- RUNNING returned to, apart from PCC (R80). -/
theorem returnToRunning_spec (s : State) :
    let t := returnToRunning s
    t.seq = { s.seq with
      state := .running, causes := CauseSet.empty, resume := none, sinceStart := false
      flags := { s.seq.flags with
        clamped := s.seq.flags.clamped || decide (s.hpc.stepTargets ≠ s.hpc.ch.map HeadChan.requested)
        condLost := s.seq.flags.condLost || profileUnread s } } ∧
    t.epm = (if s.epm.state = .suspended then { s.epm with state := .reference, periodTimer := 0 } else s.epm) ∧
    t.lnk = (if profileUnread s then
        placeNotice 16 (2 :: le2 (s.pins.armFeedback / 1000000))
          (placeNotice 6 ([byteOf s.seq.index, 3] ++ le2 (min 65535 (s.seq.hold / 100000))) s)
      else placeNotice 6 ([byteOf s.seq.index, 3] ++ le2 (min 65535 (s.seq.hold / 100000))) s).lnk ∧
    t.hpc = (returned s).hpc ∧ t.peer = s.peer ∧ t.shr = s.shr ∧ t.sdu = s.sdu ∧ t.drv = s.drv ∧ OutsideStands s t := by
  obtain ⟨pcc, peer, shr, sdu, drv, outside⟩ := returned_keeps s
  obtain ⟨cfg, rcp, -, pins, -⟩ := id outside
  have seq := returned_seq s
  have lnk := returned_lnk s
  obtain ⟨-, unread⟩ := profileUnread_congr pcc (congrArg Seq.index seq :) (congrArg Seq.copy seq :) rcp
  obtain ⟨seq', lnk', hpc', epm', peer', shr', sdu', drv', -⟩ := returnSweep_spec (s := returned s) (by rw [seq])
  rw [returnToRunning_eq]
  refine ⟨?_, epm'.trans (returned_epm s), ?_, hpc', peer'.trans peer, shr'.trans shr, sdu'.trans sdu, drv'.trans drv, by simpa [OutsideStands] using outside⟩
  · rw [seq', seq, unread]
  · rw [lnk', unread]
    split
    · rw [pins]
      exact placeNotice_lnk_congr lnk (by simp [cfg]) ..
    · exact lnk

end

end Sys2Proof.Machine
end

section
/-! RESUME's clauses put together (R80, R81): O26. -/

namespace Sys2Proof.Machine

open Sys2Proof

section
variable {s : State} {m : OrderMeta} (takes : takesOrder m s = true) (unlocked : s.ilk.mode ≠ .lockout) (holding : s.seq.state = .holding)
include takes unlocked holding

/-- A MODE or an INTERLOCK whose reason stands keeps HOLDING, with the arm, the head, the drives and the notices as they stood (R81). -/
theorem resume_kept (decided : s.pcc.condLost = false ∨ s.seq.causes.conditioner = false)
    (stays : s.seq.causes.mode = true ∧ s.ilk.mode = .service ∨ s.seq.causes.interlock = true ∧ holdLineActive s = true) :
    ∃ t, exec (.resume m) s = .next t ∧
      t.seq = { s.seq with causes := { keptCauses s with share := t.seq.causes.share, supply := (keptCauses s).supply && anyLow s } } ∧
      t.hpc = s.hpc ∧ t.pcc = s.pcc ∧ t.drv = s.drv ∧ t.lnk.notices = s.lnk.notices ∧
      t.lnk.answers = (answered m 0 [byteOf (bitSet t.seq.causes.bits)] s).lnk.answers ∧ t.rcp = s.rcp ∧
      t.ilk = s.ilk ∧ t.cfg = s.cfg ∧ t.pins = s.pins ∧ t.pending = s.pending := by
  have reason : (keptCauses s).interlock = true ∨ (keptCauses s).mode = true := by
    rcases stays with ⟨mode, service⟩ | ⟨interlock, line⟩
    · exact .inr (by simp [keptCauses, mode, service])
    · exact .inl (by simp [keptCauses, interlock, line])
  have nonempty : (keptCauses s).isEmpty = false := by
    rcases reason with reason | reason <;> simp [CauseSet.isEmpty, reason]
  obtain ⟨seq, hpc, pcc, drv, notices⟩ := causesRemoved_stays takes holding (reason.imp_right .inl)
  rw [decidedSeq_of_kept decided] at seq
  have answered_seq : (resumed m (causesRemoved s)).seq = (settle (causesRemoved s)).seq := (answered_keeps ..).1
  refine ⟨_, resume_stays takes unlocked holding nonempty, ?_, ?_⟩
  · rw [answered_seq]
    exact seq
  · rw [answered_seq, resumed]
    simp only [answered_keeps, hpc, pcc, drv, notices, true_and]
    exact ⟨answers_of (by simp) (by simp), by simp⟩

end

/-- Settles O26: what stays, what keeps HOLDING, and each departure by resume target and disposition. -/
theorem resumeClearsItsCauses : Obligations.ResumeClearsItsCauses := by
  unfold Obligations.ResumeClearsItsCauses
  refine fun s m takes unlocked => ⟨fun holding nonempty => ⟨resume_stays takes unlocked holding nonempty, fun reason => ?_, fun share shared => ?_⟩,
    fun holding decided => ⟨fun stays => ?_, fun line mode share supply => ?_⟩,
    fun holding lost conditioner line mode share supply resume => ?_, resume_refused takes unlocked⟩
  · obtain ⟨seq, -⟩ := causesRemoved_stays takes holding (reason.imp_right (.imp_right (.imp_right (by simp [anyLow]))))
    have state := congrArg Seq.state seq
    exact ⟨state.trans ((decidedSeq_state s).trans holding), (congrArg (fun q => q.causes.interlock) seq :), (congrArg (fun q => q.causes.mode) seq :)⟩
  · exact settle_shared (s := causesRemoved s) (started_of_takesOrder (m := m) takes) ((decidedSeq_state s).trans holding) share shared
  · obtain ⟨t, taken, seq, hpc, pcc, drv, notices, outside⟩ := resume_kept takes unlocked holding decided stays
    refine ⟨t, taken, ?_⟩
    rw [seq]
    exact ⟨holding, rfl, rfl, rfl, rfl, rfl, rfl, rfl, hpc, pcc, drv, notices, seq ▸ outside⟩
  · have gone := keptCauses_empty line mode share supply
    have plain := decidedSeq_of_kept decided
    refine ⟨fun resume skip rinse => ?_, fun resume unskipped => ?_, fun resume unconcluded share => ?_, fun resume unconcluded share => ?_,
      fun resume unconcluded share => resume_shared takes unlocked holding gone decided resume unconcluded share, fun resume concluded rinse => ?_⟩
    · obtain ⟨t, taken, seq, answers, drv, outside⟩ := resume_skips takes unlocked holding gone resume (plain ▸ skip) rinse
      rw [plain] at seq
      refine ⟨t, taken, ?_⟩
      rw [seq]
      exact ⟨rfl, rfl, rfl, rfl, answers, drv, outside⟩
    · have waits := resume_waits takes unlocked holding gone resume (plain ▸ unskipped)
      rwa [plain] at waits
    · have runs : RunsOn (settle (returnToRunning s)) :=
        RunsOn.settle ⟨.inl (returnToRunning_state s), by simpa using unconcluded⟩
      refine ⟨_, resume_runs takes unlocked holding gone decided resume unconcluded share, ?_⟩
      rw [resumed, (answered_keeps ..).1]
      exact ⟨runs.1, by simp⟩
    · obtain ⟨seq, epm, lnk, hpc, peer, shr, sdu, drv, outside⟩ := returnToRunning_spec s
      obtain ⟨absent, unread, read⟩ := returnToRunning_pcc s
      have head : ∀ c, (returnToRunning s).head c = (returned s).head c := fun c => by rw [State.head, State.head, hpc]
      refine ⟨returnToRunning s, resume_runs takes unlocked holding gone decided resume unconcluded share, seq, epm, by simp, fun c => ?_,
        fun st now => (returned_runs now).congr hpc, absent, unread, fun point held kept reads => ?_, lnk, peer, shr, sdu, drv, outside⟩
      · rw [head]
        exact returned_asks s c
      · have pcc := (read point held kept reads).trans (resumeSweep_pcc ..)
        have segment := congrArg Pcc.segment pcc
        refine ⟨pcc.trans (by rw [segment]), fun some_segs reached => ?_⟩
        rw [segment]
        exact segmentAt_spec some_segs reached (Nat.min_le_right ..) _
    · obtain ⟨t, taken, seq, answers, cfg, rcp, ilk, pins, -, -, pending, -⟩ :=
        resume_concludes takes unlocked holding gone resume (plain ▸ concluded) rinse
      rw [plain] at seq
      refine ⟨t, taken, ?_⟩
      rw [seq]
      exact ⟨rfl, rfl, rfl, rfl, rfl, answers, rcp, ilk, cfg, pins, pending⟩
  · have gone := keptCauses_empty line mode share supply
    refine ⟨fun other => ?_, fun condition rinse => ?_⟩
    · have off : decidedSeq s = { s.seq with disposition := .conditioningOff, flags := { s.seq.flags with condLost := true } } := by
        rw [decidedSeq, if_pos ⟨conditioner, lost⟩, if_neg other]
      have waits := resume_waits takes unlocked holding gone resume (by simp [off])
      rwa [off] at waits
    · have skips : decidedSeq s = { s.seq with disposition := .skip } := by
        rw [decidedSeq, if_pos ⟨conditioner, lost⟩, if_pos condition]
      obtain ⟨t, taken, seq, answers, drv, outside⟩ := resume_skips takes unlocked holding gone resume (by rw [skips]) rinse
      rw [skips] at seq
      refine ⟨t, taken, ?_⟩
      rw [seq]
      exact ⟨rfl, rfl, rfl, rfl, rfl, rfl, answers, drv, outside⟩

end Sys2Proof.Machine
end

section
/-! How RCP takes an order (R100, R101): the checks that its orders share, and O30. -/

namespace Sys2Proof.Machine

open Sys2Proof

/-! ### The checks of R100 -/

/-- The checks that every store order meets first: the tool mode and the operation in flight (R100, steps 1 and 2). -/
def unlessBusy (reply : State → Reply) (s : State) : Reply :=
  if s.ilk.mode = .lockout then .bare s .mode else if s.storeBusy then .bare s .busy else reply s

/-- The checks of an order that names a target: its numbers and the store lock (R100, steps 3 and 4). -/
def onTarget (out : Prop) [Decidable out] (reply : State → Reply) (s : State) : Reply :=
  if out then .bare s .range else if s.rcp.lock then .bare s .locked else reply s

/-- The header part that WRITE_HEADER names is marked. -/
def Slot.markHeader (sl : Slot) (i : Byte) : Bool := if i = 0 then sl.markPart0 else sl.markSigs.get (i.toNat - 1)

/-- The contents are in range for the header part that WRITE_HEADER names (R95, R96). -/
def headerOk (i : Byte) (data : List Byte) : Bool := if i = 0 then part0Ok data else sigOk data

/-- The checks of a write to one part of a slot: the slot, the part's mark and the values (R102, R103). -/
def partReply (state : SlotState) (marked good : Bool) (o : StoreOp) (s : State) : Reply :=
  if state = .corrupt then .bare s .corrupt
  else if state = .closed ∨ marked = true then .bare s .written
  else if !good then .bare s .range
  else accept o s

/-- CLOSE_RECIPE's checks of its slot (R104). -/
def closeReply (n : Nat) (s : State) : Reply :=
  if (s.slot n).state = .corrupt then .bare s .corrupt
  else if (s.slot n).state = .closed then .bare s .written
  else if !(s.slot n).markPart0 || (s.slot n).highestStep = 0 then .bare s .empty
  else if !(s.slot n).stepsWritten (s.slot n).highestStep then .bare s .gap
  else accept (.closeRecipe n (s.slot n).highestStep) s

/-- WRITE_PROFILE's checks of its profile and its segments (R99, R109). -/
def profileReply (p : Nat) (segments : List Segment) (s : State) : Reply :=
  match (s.profile p).state with
  | .written => .bare s .written
  | .corrupt => .bare s .corrupt
  | .unwritten => if segmentsOk segments then accept (.writeProfile p segments) s else .bare s .range

section
variable {s : State} {m : OrderMeta} {n i : Byte} {data : List Byte}

/-! ### Each order through its checks -/

theorem ofLength_of_good {good : Bool} (owner : State → Reply) (h : good = true) : ofLength good owner = owner := if_pos h

theorem ofLength_of_bad {good : Bool} (owner : State → Reply) (h : good = false) : ofLength good owner = refuse .range :=
  if_neg (by simp [h])

theorem writeHeader_checks (long : data.length = headerLength i) :
    exec (.writeHeader m n i data) s = .next (serve m (unlessBusy (onTarget (!slotOk n || 3 < i.toNat)
      (partReply (s.slot n.toNat).state ((s.slot n.toNat).markHeader i) (headerOk i data) (.writeHeader n.toNat i.toNat data)))) s) := by
  change execWriteHeader m n i data s = _
  rw [execWriteHeader, ofLength_of_good _ (by simpa using long)]
  rfl

theorem writeStep_checks (long : data.length = 32) :
    exec (.writeStep m n i data) s = .next (serve m (unlessBusy (onTarget (!slotOk n || !(1 ≤ i.toNat && i.toNat ≤ 24))
      (partReply (s.slot n.toNat).state ((s.slot n.toNat).markStep i.toNat) (stepOk data) (.writeStep n.toNat i.toNat data)))) s) := by
  change execWriteStep m n i data s = _
  rw [execWriteStep, ofLength_of_good _ (by simpa using long)]
  rfl

theorem writeProfile_checks (long : data.length = 3 * i.toNat) :
    exec (.writeProfile m n i data) s =
      .next (serve m (unlessBusy (onTarget (3 < n.toNat) (profileReply n.toNat (readSegments data i.toNat)))) s) := by
  change execWriteProfile m n i data s = _
  rw [execWriteProfile, ofLength_of_good _ (by simpa using long)]
  rfl

theorem closeRecipe_checks :
    exec (.closeRecipe m n) s = .next (serve m (unlessBusy (onTarget (!slotOk n) (closeReply n.toNat))) s) := rfl

theorem eraseRecipe_checks :
    exec (.eraseRecipe m n) s = .next (serve m (unlessBusy (onTarget (!slotOk n) (accept (.eraseRecipe n.toNat)))) s) := rfl

theorem eraseStore_checks : exec (.eraseStore m) s = .next (serve m (unlessBusy (accept (.eraseStore 0))) s) := rfl

theorem lockStore_checks :
    exec (.lockStore m) s = .next (serve m (unlessBusy fun s => .bare (s.setRcp { s.rcp with lock := true }) .ok) s) := rfl

/-! ### A check that fails, and all of them passed -/

variable {c : Instr} {code : Code} {out : Prop} [Decidable out] {reply : State → Reply}

theorem refused_of_reply (checks : exec c s = .next (serve m reply s)) (takes : takesOrder m s = true) (e : reply s = .bare s code) :
    exec c s = .next (answered m (numCode code) [] s) := checks.trans (congrArg _ (serve_refused takes e))

/-- An operation accepted is in flight from now with its target marked, and answered ACCEPTED (R101). -/
theorem begun_of_reply {o : StoreOp} (checks : exec c s = .next (serve m reply s)) (takes : takesOrder m s = true)
    (e : reply s = accept o s) : exec c s = .next (answered m 1 [] (startOp o s)) := checks.trans (congrArg _ (serve_of takes e rfl))

theorem unlessBusy_of_free (run : s.ilk.mode ≠ .lockout) (free : s.rcp.op = none) : unlessBusy reply s = reply s := by
  simp [unlessBusy, run, State.storeBusy, free]

theorem onTarget_of_open (reached : ¬out) (unlocked : s.rcp.lock = false) : onTarget out reply s = reply s := by
  simp [onTarget, reached, unlocked]

/-- The reply of an order whose number is in range, while no operation is in flight and the lock is clear (R100). -/
theorem checked_of_open (run : s.ilk.mode ≠ .lockout) (free : s.rcp.op = none) (unlocked : s.rcp.lock = false) (reached : ¬out) :
    unlessBusy (onTarget out reply) s = reply s := (unlessBusy_of_free run free).trans (onTarget_of_open reached unlocked)

/-- What an order whose number is in range begins, or is refused for its target, with no operation in flight and the lock clear (R100, R101). -/
theorem begun_on_target {o : StoreOp} (checks : exec c s = .next (serve m (unlessBusy (onTarget out reply)) s)) (takes : takesOrder m s = true)
    (run : s.ilk.mode ≠ .lockout) (free : s.rcp.op = none) (unlocked : s.rcp.lock = false) (reached : ¬out) (e : reply s = accept o s) :
    exec c s = .next (answered m 1 [] (startOp o s)) := begun_of_reply checks takes ((checked_of_open run free unlocked reached).trans e)

theorem refused_on_target (checks : exec c s = .next (serve m (unlessBusy (onTarget out reply)) s)) (takes : takesOrder m s = true)
    (run : s.ilk.mode ≠ .lockout) (free : s.rcp.op = none) (unlocked : s.rcp.lock = false) (reached : ¬out) (e : reply s = .bare s code) :
    exec c s = .next (answered m (numCode code) [] s) := refused_of_reply checks takes ((checked_of_open run free unlocked reached).trans e)

theorem refused_busy (checks : exec c s = .next (serve m (unlessBusy reply) s)) (takes : takesOrder m s = true)
    (run : s.ilk.mode ≠ .lockout) (busy : s.rcp.op.isSome = true) : exec c s = .next (answered m 3 [] s) :=
  refused_of_reply (code := .busy) checks takes (by simp [unlessBusy, run, State.storeBusy, busy])

theorem refused_range (checks : exec c s = .next (serve m (unlessBusy (onTarget out reply)) s)) (takes : takesOrder m s = true)
    (run : s.ilk.mode ≠ .lockout) (free : s.rcp.op = none) (beyond : out) : exec c s = .next (answered m 4 [] s) :=
  refused_of_reply (code := .range) checks takes ((unlessBusy_of_free run free).trans (if_pos beyond))

theorem refused_locked (checks : exec c s = .next (serve m (unlessBusy (onTarget out reply)) s)) (takes : takesOrder m s = true)
    (run : s.ilk.mode ≠ .lockout) (free : s.rcp.op = none) (reached : ¬out) (locked : s.rcp.lock = true) :
    exec c s = .next (answered m 9 [] s) :=
  refused_of_reply (code := .locked) checks takes ((unlessBusy_of_free run free).trans ((if_neg reached).trans (if_pos locked)))

/-- A payload of the wrong length is answered RANGE whatever the order's owner would say (R184). -/
theorem refused_length {good : Bool} (length : exec c s = .next (serve m (ofLength good reply) s)) (takes : takesOrder m s = true)
    (bad : good = false) : exec c s = .next (answered m 4 [] s) :=
  refused_of_reply (code := .range) length takes (by rw [ofLength_of_bad _ bad]; rfl)

/-! ### The checks of a target -/

section
variable {state : SlotState} {marked good : Bool} {o : StoreOp}

theorem partReply_of_writable (writable : state = .erased ∨ state = .opened) (unmarked : marked = false) :
    partReply state marked good o s = if good then accept o s else .bare s .range := by
  rcases writable with rfl | rfl <;> cases good <;> simp [partReply, unmarked]

theorem partReply_written (state_ne : state ≠ .corrupt) (written : state = .closed ∨ marked = true) :
    partReply state marked good o s = .bare s .written := (if_neg state_ne).trans (if_pos written)

/-- A part's write begins where its slot is writable, its mark is clear and its values are in range (R102, R103). -/
theorem part_begun (checks : exec c s = .next (serve m (unlessBusy (onTarget out (partReply state marked good o))) s))
    (takes : takesOrder m s = true) (run : s.ilk.mode ≠ .lockout) (free : s.rcp.op = none) (unlocked : s.rcp.lock = false) (reached : ¬out)
    (writable : state = .erased ∨ state = .opened) (unmarked : marked = false) (ok : good = true) :
    exec c s = .next (answered m 1 [] (startOp o s)) :=
  begun_on_target checks takes run free unlocked reached ((partReply_of_writable writable unmarked).trans (if_pos ok))

/-- A part's write is refused for its slot, its mark, or its values (R102, R103). -/
theorem part_refused (checks : exec c s = .next (serve m (unlessBusy (onTarget out (partReply state marked good o))) s))
    (takes : takesOrder m s = true) (run : s.ilk.mode ≠ .lockout) (free : s.rcp.op = none) (unlocked : s.rcp.lock = false) (reached : ¬out) :
    (state = .corrupt → exec c s = .next (answered m 8 [] s)) ∧
    (state = .closed → exec c s = .next (answered m 5 [] s)) ∧
    (state = .erased ∨ state = .opened →
      (marked = true → exec c s = .next (answered m 5 [] s)) ∧
      (marked = false → good = false → exec c s = .next (answered m 4 [] s))) := by
  have refused (code : Code) := refused_on_target (code := code) checks takes run free unlocked reached
  refine ⟨fun corrupt => refused .corrupt (if_pos corrupt), fun closed => refused .written (partReply_written (by simp [closed]) (.inl closed)),
    fun writable => ⟨fun marked => refused .written (partReply_written ?_ (.inr marked)), fun unmarked bad => refused .range ?_⟩⟩
  · rintro rfl
    simp at writable
  · rw [partReply_of_writable writable unmarked, bad]
    rfl

end

theorem closeReply_of_writable {k : Nat} (writable : (s.slot k).state = .erased ∨ (s.slot k).state = .opened) :
    closeReply k s = if (s.slot k).markPart0 = false ∨ (s.slot k).highestStep = 0 then .bare s .empty
      else if (s.slot k).stepsWritten (s.slot k).highestStep = false then .bare s .gap
      else accept (.closeRecipe k (s.slot k).highestStep) s := by
  rcases writable with state | state <;> simp [closeReply, state]

end

/-! ### The statement -/

/-- Settles O30: each order through the checks of R100 in their order, then those of its target. -/
theorem storeOrdersAnswered : Obligations.StoreOrdersAnswered := by
  unfold Obligations.StoreOrdersAnswered
  refine ⟨fun s m n i data takes run free => ?_, fun s m n i data takes run => ?_⟩
  · refine ⟨begun_of_reply eraseStore_checks takes (unlessBusy_of_free run free), fun unlocked low high => ?_,
      fun unlocked low long state good => ?_⟩
    · have slot := slotOk_iff.2 ⟨low, high⟩
      refine ⟨begun_on_target eraseRecipe_checks takes run free unlocked (by simp [slot]) rfl,
        fun writable => ⟨fun part long unmarked good => ?_, fun first last long unmarked good => ?_, fun first last long unmarked good => ?_,
          fun marked steps written => ?_⟩⟩
      · subst part
        exact part_begun (writeHeader_checks long) takes run free unlocked (by simp [slot]) writable unmarked good
      · have other : i ≠ 0 := fun x => by simp [x] at first
        exact part_begun (writeHeader_checks (by rwa [headerLength, if_neg other])) takes run free unlocked (by simp [slot, last]) writable
          (by rwa [Slot.markHeader, if_neg other]) (by rwa [headerOk, if_neg other])
      · exact part_begun (writeStep_checks long) takes run free unlocked (by simp [slot, first, last]) writable unmarked good
      · refine begun_on_target closeRecipe_checks takes run free unlocked (by simp [slot]) ?_
        rw [closeReply_of_writable writable, if_neg (by simp [marked, Nat.ne_of_gt steps]), if_neg (by simp [written])]
    · exact begun_on_target (writeProfile_checks long) takes run free unlocked (by omega) (by simp [profileReply, state, good])
  · intro refused header step profile headerLong
    have headerChecks (long : headerLong) := writeHeader_checks (s := s) (m := m) (n := n) (i := i) (data := data) long
    refine ⟨?_, ?_, ?_, fun busy => ?_, fun free => ?_, fun free locked => ?_, fun free unlocked low high => ?_, fun free unlocked low long => ?_⟩
    · exact fun long => refused_length rfl takes (beq_eq_false_iff_ne.2 long)
    · exact fun long => refused_length rfl takes (beq_eq_false_iff_ne.2 long)
    · exact fun long => refused_length rfl takes (beq_eq_false_iff_ne.2 long)
    · refine ⟨?_, fun long => refused_busy (headerChecks long) takes run busy, fun long => refused_busy (writeStep_checks long) takes run busy,
        fun long => refused_busy (writeProfile_checks long) takes run busy⟩
      simp only [List.forall_mem_cons]
      exact ⟨refused_busy closeRecipe_checks takes run busy, refused_busy eraseRecipe_checks takes run busy,
        refused_busy eraseStore_checks takes run busy, refused_busy lockStore_checks takes run busy, nofun⟩
    · refine ⟨fun beyond => ?_, fun beyond long => refused_range (headerChecks long) takes run free (by simp [slotOk]; omega),
        fun beyond long => refused_range (writeStep_checks long) takes run free (by simp [slotOk]; omega),
        fun beyond long => refused_range (writeProfile_checks long) takes run free beyond⟩
      have beyond : (!slotOk n) = true := by simp [slotOk]; omega
      simp only [List.forall_mem_cons]
      exact ⟨refused_range closeRecipe_checks takes run free beyond, refused_range eraseRecipe_checks takes run free beyond, nofun⟩
    · refine ⟨fun low high => ?_, fun low long => refused_locked (writeProfile_checks long) takes run free (by omega) locked⟩
      have slot := slotOk_iff.2 ⟨low, high⟩
      refine ⟨?_, fun last long => refused_locked (headerChecks long) takes run free (by simp [slot, last]) locked,
        fun first last long => refused_locked (writeStep_checks long) takes run free (by simp [slot, first, last]) locked⟩
      have reached : ¬(!slotOk n) = true := by simp [slot]
      simp only [List.forall_mem_cons]
      exact ⟨refused_locked closeRecipe_checks takes run free reached locked, refused_locked eraseRecipe_checks takes run free reached locked, nofun⟩
    · have slot := slotOk_iff.2 ⟨low, high⟩
      have close (code : Code) := refused_on_target (code := code) (closeRecipe_checks (n := n)) takes run free unlocked (by simp [slot])
      refine ⟨⟨fun state => close .corrupt (if_pos state), fun state => close .written (by simp [closeReply, state]),
          fun writable => ⟨fun missing => close .empty ?_, fun marked steps gap => close .gap ?_⟩⟩,
        fun last long => part_refused (headerChecks long) takes run free unlocked (by simp [slot, last]),
        fun first last long => part_refused (writeStep_checks long) takes run free unlocked (by simp [slot, first, last])⟩
      · rw [closeReply_of_writable writable, if_pos missing]
      · rw [closeReply_of_writable writable, if_neg (by simp [marked, Nat.ne_of_gt steps]), if_pos gap]
    · have profile (code : Code) := refused_on_target (code := code) (writeProfile_checks long) takes run free unlocked (Nat.not_lt.2 low)
      exact ⟨fun state => profile .written (by simp [profileReply, state]), fun state => profile .corrupt (by simp [profileReply, state]),
        fun state bad => profile .range (by simp [profileReply, state, bad])⟩

end Sys2Proof.Machine
end

section
/-! The completion of a store operation and the targets of an ERASE_STORE (R101 to R106, R109): O31 and O32; the store lock and the life counters
(R107, R110, R142): O33. -/

namespace Sys2Proof.Machine

open Sys2Proof

/-! ### An operation at its time -/

section
variable {s : State} {o : StoreOp} {done start : Nat}

/-- An operation is due at its time of completion; an ERASE_STORE once its last target is erased (R101, R106). -/
theorem opDue_of_late (op : s.rcp.op = some (o, start)) (late : start + o.duration ≤ s.now)
    (targets : ∀ done, o = .eraseStore done → eraseTargets ≤ done) : opDue s = true := by
  cases o
  case eraseStore done => simpa [opDue, op] using ⟨targets done rfl, late⟩
  all_goals simpa [opDue, op] using late

/-- A completed operation makes its changes, leaves no mark and no operation, and queues STORE_DONE (R101). -/
theorem storeOpComplete_of_late (started : s.started = true) (op : s.rcp.op = some (o, start)) (late : start + o.duration ≤ s.now)
    (targets : ∀ done, o = .eraseStore done → eraseTargets ≤ done) :
    exec .storeOpComplete s = .next (placeNotice 10 o.body (s.setRcp { s.rcp.apply o with inProgress := none, op := none })) := by
  change execStoreOpComplete s = _
  rw [execStoreOpComplete, started, opDue_of_late op late targets]
  simp [completeOp, op]

/-- A target whose erasure has ended takes its erased state, and the next is under way (R106). -/
theorem eraseStoreTargetDone_of_late (started : s.started = true) (op : s.rcp.op = some (.eraseStore done, start)) (more : done < 20)
    (late : start + eraseTargetTime done ≤ s.now) :
    exec .eraseStoreTargetDone s = .next (s.setRcp { s.rcp.eraseTarget done with
      inProgress := some (.eraseStore (done + 1)), op := some (.eraseStore (done + 1), start) }) := by
  have due : eraseTargetDue s = true := by simp [eraseTargetDue, op, eraseTargets, more, late]
  change execEraseStoreTargetDone s = _
  rw [execEraseStoreTargetDone, started, due]
  simp [eraseTarget, op]

end

theorem PerSig.get_all {α : Type} (x : α) (i : Nat) : (PerSig.all x).get i = x := by
  unfold PerSig.get
  split <;> rfl

theorem Slot.erased_markStep (i : Nat) : Slot.erased.markStep i = false := by
  rw [Slot.markStep, List.getD_eq_getElem?_getD]
  exact List.getElem?_getD_replicate_default_eq false 24 (i - 1)

/-- Settles O31: what each kind of operation leaves, once it is due. -/
theorem storeOperationCompletes : Obligations.StoreOperationCompletes := by
  unfold Obligations.StoreOperationCompletes
  intro s o start started op
  have completes (late : start + o.duration ≤ s.now) := storeOpComplete_of_late started op late
  refine ⟨?_, ?_, ?_, ?_, ?_, ?_⟩
  · rintro n data rfl late
    exact completes late nofun
  · rintro n part data rfl header late
    rw [completes late nofun, Rcp.apply, Slot.putHeader, if_neg (by omega)]
    rfl
  · rintro n i data rfl late
    exact completes late nofun
  · rintro n count rfl late
    exact completes late nofun
  · rintro n rfl late
    exact ⟨.erased, completes late nofun, rfl, rfl, rfl, fun j => ⟨PerSig.get_all .., PerSig.get_all ..⟩, Slot.erased_markStep⟩
  · rintro p segments rfl late
    exact completes late nofun

/-- Settles O32: a profile or a slot as its erasure ends, and the end of the operation. -/
theorem eraseStoreTargetByTarget : Obligations.EraseStoreTargetByTarget := by
  unfold Obligations.EraseStoreTargetByTarget
  intro s done start started op
  refine ⟨fun profile late => ?_, fun slot last late => ?_, fun all late => ?_⟩
  · have late : start + eraseTargetTime done ≤ s.now := by
      rw [eraseTargetTime, if_pos profile, ms]
      omega
    rw [eraseStoreTargetDone_of_late started op (by omega) late, Rcp.eraseTarget, if_pos profile]
    rfl
  · have late : start + eraseTargetTime done ≤ s.now := by
      rw [eraseTargetTime, if_neg (Nat.not_lt.2 slot), ms]
      omega
    rw [eraseStoreTargetDone_of_late started op last late, Rcp.eraseTarget, if_neg (Nat.not_lt.2 slot)]
    rfl
  · subst all
    exact storeOpComplete_of_late started op late (by simp [eraseTargets])

/-! ### The lock and the life counters -/

/-- A counter at 0 is at its warning level where its limit is 0 alone (R141). -/
theorem atWarning_zero (limit : Nat) : atWarning 0 limit = (limit == 0) := by simp [atWarning, Bool.beq_eq_decide_eq]

section
variable {s : State} {m : OrderMeta}

/-- DISK_REPLACED and PAD_REPLACED are refused in a run (R142). -/
theorem replaced_refused (takes : takesOrder m s = true) (run : s.ilk.mode ≠ .lockout) (inRun : s.seq.state.atRest = false) :
    exec (.diskReplaced m) s = .next (answered m 2 [] s) ∧ exec (.padReplaced m) s = .next (answered m 2 [] s) :=
  ⟨refused_of_reply (reply := orderDiskReplaced) (code := .state) rfl takes (by simp [orderDiskReplaced, run, inRun]),
    refused_of_reply (reply := orderPadReplaced) (code := .state) rfl takes (by simp [orderPadReplaced, run, inRun])⟩

theorem orderDiskReplaced_of_rest (run : s.ilk.mode ≠ .lockout) (rest : s.seq.state.atRest = true) :
    orderDiskReplaced s = .bare (writeBack (s.setPcc { s.pcc with
      diskLife := 0, diskRemainder := 0, diskWarned := s.img.diskLimit == 0 })) .ok := by
  simp [orderDiskReplaced, run, rest, atWarning_zero]

theorem orderPadReplaced_of_rest (run : s.ilk.mode ≠ .lockout) (rest : s.seq.state.atRest = true) :
    orderPadReplaced s = .bare (writeBack (s.setPcc { s.pcc with
      padLife := 0, padRemainder := 0, padWarned := s.img.padLimit == 0 })) .ok := by
  simp [orderPadReplaced, run, rest, atWarning_zero]

end

/-- Settles O33: the orders by the sequencer's state, and the accumulation timer at 60 s. -/
theorem lockAndLifeCounters : Obligations.LockAndLifeCounters := by
  unfold Obligations.LockAndLifeCounters
  refine fun s m => ⟨fun takes run => ⟨fun free => ?_, fun rest => ⟨?_, ?_⟩, replaced_refused takes run⟩, fun started due => ?_⟩
  · exact lockStore_checks.trans (congrArg _ (serve_of (c := .ok) (d := []) takes (unlessBusy_of_free run free) rfl))
  · exact congrArg Host.Outcome.next (serve_of takes (orderDiskReplaced_of_rest run rest) rfl)
  · exact congrArg Host.Outcome.next (serve_of takes (orderPadReplaced_of_rest run rest) rfl)
  · have due : accumulationDue s = true := decide_eq_true due
    change execAccumulationTimeout s = _
    rw [execAccumulationTimeout, started, due]
    rfl

end Sys2Proof.Machine
end

section
/-! The zone envelope in closed form (R116, R117): O45. -/

namespace Sys2Proof.Machine

open Sys2Proof

/-- Settles O45: the two passes unfolded zone by zone; each side of an equation is then the same set of bounds, and the two are compared by
what lies below them. -/
theorem fittedTargetsAreTheEnvelope : Obligations.FittedTargetsAreTheEnvelope := by
  unfold Obligations.FittedTargetsAreTheEnvelope
  intro maxima v d c fitted
  have clamped : ∀ x, (clampHead maxima v).get x = c x := fun x => PerHead.get_of _ x
  have c1 : (clampHead maxima v).z1 = c .z1 := clamped .z1
  have c2 : (clampHead maxima v).z2 = c .z2 := clamped .z2
  have c3 : (clampHead maxima v).z3 = c .z3 := clamped .z3
  have c4 : (clampHead maxima v).z4 = c .z4 := clamped .z4
  have c5 : (clampHead maxima v).z5 = c .z5 := clamped .z5
  obtain ⟨f1, f2, f3, f4, f5, fr⟩ := forwardPass_eqs d (clampHead maxima v)
  obtain ⟨b5, b4, b3, b2, b1, br⟩ := backwardPass_eqs d (forwardPass d (clampHead maxima v))
  refine ⟨?_, ?_, ?_, ?_, ?_, br.trans (fr.trans (clamped .rr)), fitHead_within ..⟩
  all_goals
    refine eq_of_forall_le_iff fun k => ?_
    simp only [fitted, fitHead, b1, b2, b3, b4, b5, f1, f2, f3, f4, f5, c1, c2, c3, c4, c5, ← Nat.add_min_add_right, le_min_iff]
    omega

end Sys2Proof.Machine
end

section
/-! What CLEAR_EVENTS makes of each flag (R127, R145, R168, R170, R201). -/

namespace Sys2Proof.Machine

open Sys2Proof

/-! ### The interlock lines -/

/-- A LEVEL line that is ACTIVE keeps its flag (R168). -/
def keepsSticky (s : State) (l : Line) : Bool := (s.img.lines.get l).type == .level && (s.line l).level == .active

theorem clearLine_line (l k : Line) (s : State) :
    (clearLine l s).line k = { s.line k with sticky := (s.line k).sticky && (decide (k ≠ l) || keepsSticky s k) } := by
  by_cases same : l = k
  · subst same
    by_cases kept : keepsSticky s l = true
    · have stands : clearLine l s = s := if_pos kept
      simp [stands, kept]
    · have cleared : clearLine l s = s.setLine l { s.line l with sticky := false } := if_neg kept
      rw [cleared, State.line, State.setLine]
      simp [kept]
  · have other : k ≠ l := Ne.symm same
    unfold clearLine
    split
    · simp [other]
    · simp [State.line, State.setLine, PerLine.get_set_of_ne _ _ same, other]

theorem clearLine_frame (l : Line) (s : State) : clearLine l s = s.setIlk { s.ilk with lines := (clearLine l s).ilk.lines } := by
  unfold clearLine
  split <;> rfl

/-- The named lines of a list hand their flags to R168; the levels stand, and every block but ILK. -/
theorem clearLines_foldl (mask : BitVec 16) (ls : List Line) (s : State) :
    let t := ls.foldl (fun u l => if mask.getLsbD (numLine l) then clearLine l u else u) s
    (∀ k, t.line k = { s.line k with
      sticky := (s.line k).sticky && (!(decide (k ∈ ls) && mask.getLsbD (numLine k)) || keepsSticky s k) }) ∧
    t = s.setIlk { s.ilk with lines := t.ilk.lines } := by
  induction ls generalizing s with
  | nil => exact ⟨fun k => by simp, rfl⟩
  | cons l ls ih =>
    by_cases named : mask.getLsbD (numLine l) = true
    · obtain ⟨lines, rest⟩ := ih (clearLine l s)
      have keeps : ∀ k, keepsSticky (clearLine l s) k = keepsSticky s k := fun k => by
        have image : (clearLine l s).img = s.img := by simp [State.img]
        rw [keepsSticky, clearLine_line, image]
        rfl
      simp only [List.foldl_cons, named, if_true]
      refine ⟨fun k => ?_, ?_⟩
      · rw [lines, keeps, clearLine_line]
        by_cases same : k = l
        · subst same
          cases keepsSticky s k <;> simp [named]
        · simp [same]
      · rw [rest, clearLine_frame l s]
        rfl
    · obtain ⟨lines, rest⟩ := ih s
      simp only [List.foldl_cons, named]
      refine ⟨fun k => ?_, rest⟩
      have other : (decide (k ∈ l :: ls) && mask.getLsbD (numLine k)) = (decide (k ∈ ls) && mask.getLsbD (numLine k)) := by
        by_cases same : k = l
        · simp [same, named]
        · simp [same]
      rw [other]
      exact lines k

/-! ### All the flags -/

/-- Every flag a mask names, each under its owner's rule, and nothing else: a LEVEL line that is ACTIVE keeps its flag (R168), SUPPLY_WARN
stays while the air is low (R127), MODE_ILLEGAL while the combination is decoded (R170), and COND_LOST of a LOST arm begins a home search
(R145). -/
theorem clearFlags_eq (mask : BitVec 16) (s : State) : clearFlags mask s = { s with
    ilk := { s.ilk with
      lines := (clearLines mask s).ilk.lines
      modeIllegal := s.ilk.modeIllegal && (!mask.getLsbD 15 || s.ilk.decoded == some (true, false)) }
    lnk := { s.lnk with
      collisionSeen := s.lnk.collisionSeen && !mask.getLsbD 8
      checkErrorSeen := s.lnk.checkErrorSeen && !mask.getLsbD 9
      malformedSeen := s.lnk.malformedSeen && !mask.getLsbD 10 }
    sdu := { s.sdu with mismatch := s.sdu.mismatch && !mask.getLsbD 11 }
    drv := { s.drv with tachLost := s.drv.tachLost && !mask.getLsbD 12 }
    pcc := if s.pcc.arm = .lost ∧ mask.getLsbD 13 = true then
        { s.pcc with condLost := false, arm := .parked, homeFound := false, search := some 0, radius := s.pins.armFeedback }
      else s.pcc
    hpc := { s.hpc with warn := s.hpc.warn && (!mask.getLsbD 14 || decide (s.pins.air < s.img.airWarn)) } } := by
  have mismatch : ∀ (b : Bool) (u : State), (if b then u.setSdu { u.sdu with mismatch := false } else u) =
      u.setSdu { u.sdu with mismatch := u.sdu.mismatch && !b } := fun b u => by
    cases b
    · simp; rfl
    · simp
  have tach : ∀ (b : Bool) (u : State), (if b then u.setDrv { u.drv with tachLost := false } else u) =
      u.setDrv { u.drv with tachLost := u.drv.tachLost && !b } := fun b u => by
    cases b
    · simp; rfl
    · simp
  have pad : ∀ (b : Bool) (u : State), (if b then clearCondLost u else u) =
      u.setPcc (if u.pcc.arm = .lost ∧ b = true then
        { u.pcc with condLost := false, arm := .parked, homeFound := false, search := some 0, radius := u.pins.armFeedback }
      else u.pcc) := fun b u => by
    by_cases lost : u.pcc.arm = .lost <;> cases b <;> simp [clearCondLost, lost] <;> rfl
  have air : ∀ (b c : Bool) (u : State), (if b && !c then u.setHpc { u.hpc with warn := false } else u) =
      u.setHpc { u.hpc with warn := u.hpc.warn && (!b || c) } := fun b c u => by
    cases b <;> cases c <;> simp <;> rfl
  have mode : ∀ (b : Bool) (u : State), (if b then clearModeIllegal u else u) =
      u.setIlk { u.ilk with modeIllegal := u.ilk.modeIllegal && (!b || u.ilk.decoded == some (true, false)) } := fun b u => by
    have kept : clearModeIllegal u = u.setIlk { u.ilk with
        modeIllegal := u.ilk.modeIllegal && u.ilk.decoded == some (true, false) } := by
      by_cases illegal : u.ilk.decoded = some (true, false)
      · rw [clearModeIllegal, if_pos illegal, beq_iff_eq.2 illegal, Bool.and_true]
        rfl
      · rw [clearModeIllegal, if_neg illegal, beq_eq_false_iff_ne.2 illegal, Bool.and_false]
    rw [kept]
    cases b
    · simp; rfl
    · simp
  obtain ⟨v, lines⟩ : ∃ v, clearLines mask s = s.setIlk { s.ilk with lines := v } := ⟨_, (clearLines_foldl mask _ s).2⟩
  simp only [clearFlags, mismatch, tach, pad, air, mode, lines]
  rfl

/-- The named lines hand their flags to R168. -/
theorem clearFlags_sticky (mask : BitVec 16) (s : State) (l : Line) :
    ((clearFlags mask s).line l).sticky = ((s.line l).sticky &&
      (!mask.getLsbD (numLine l) || ((s.img.lines.get l).type == .level && (s.line l).level == .active))) := by
  have all : l ∈ PerLine.indices := by cases l <;> decide
  have cleared : (clearLines mask s).line l = _ := (clearLines_foldl mask PerLine.indices s).1 l
  have same : (clearFlags mask s).line l = (clearLines mask s).line l := by rw [clearFlags_eq]; rfl
  rw [same, cleared]
  simp [all, keepsSticky]

end Sys2Proof.Machine
end

section
/-! An arm at rest as a change is carried through, and CLEAR_EVENTS and RESTART: O34. -/

namespace Sys2Proof.Machine

open Sys2Proof

/-! ### An arm at rest -/

/-- A PARKED arm without a resume point stays so, and its home state, its search and its COND_LOST mark stand (R132, R135, R145). -/
structure KeepsRest (s t : State) : Prop where
  rests : s.pcc.arm = .parked → s.pcc.resume = none → t.pcc.arm = .parked ∧ t.pcc.resume = none ∧
    t.pcc.condLost = s.pcc.condLost ∧ t.pcc.homeFound = s.pcc.homeFound ∧ t.pcc.search = s.pcc.search

section
variable {s t u : State}

theorem KeepsRest.of_pcc (h : t.pcc = s.pcc) : KeepsRest s t := ⟨fun parked none => by simp [h, parked, none]⟩

theorem KeepsRest.refl (s : State) : KeepsRest s s := .of_pcc rfl

theorem KeepsRest.trans (h : KeepsRest s t) (h' : KeepsRest t u) : KeepsRest s u where
  rests parked none := by
    obtain ⟨arm, resume, lost, home, search⟩ := h.rests parked none
    obtain ⟨arm', resume', lost', home', search'⟩ := h'.rests arm resume
    exact ⟨arm', resume', lost'.trans lost, home'.trans home, search'.trans search⟩

theorem KeepsRest.ite {c : Prop} [Decidable c] (h : KeepsRest s t) (h' : KeepsRest s u) : KeepsRest s (if c then t else u) := by
  split
  · exact h
  · exact h'

theorem liftForHold_rests (s : State) : KeepsRest s (liftForHold s) where
  rests parked none := by simp [liftForHold, State.armOut, parked, none]

theorem liftForEnd_rests (s : State) : KeepsRest s (liftForEnd s) where
  rests parked none := by simp [liftForEnd, State.armOut, parked]

theorem enterHolding_rests (r : ResumeTarget) (c : CauseSet) (s : State) : KeepsRest s (enterHolding r c s) := by
  have lifted : ∀ u, KeepsRest u (clearPersist (suspendSymbolizer (liftForHold u))) := fun u =>
    (liftForHold_rests u).trans (.of_pcc (by simp))
  exact .trans (.of_pcc (by simp)) (lifted _)

theorem enterAborting_rests (r : RunResult) (s : State) : KeepsRest s (enterAborting r s) := by
  have lifted : ∀ u, KeepsRest u (clearPersist (stopSymbolizer (stopDrives (liftForEnd u)))) := fun u =>
    (liftForEnd_rests u).trans (.of_pcc (by simp))
  exact .trans (.of_pcc (by simp)) (lifted _)

theorem takeFault_rests (k : FaultKind) (s : State) : KeepsRest s (takeFault k s) := by
  unfold takeFault
  split
  · split
    case h_4 | h_5 | h_6 | h_7 => exact .trans (.of_pcc (by simp)) (enterAborting_rests ..)
    all_goals exact .of_pcc (by simp)
  · exact .refl s

theorem enterEnding_rests (s : State) : KeepsRest s (enterEnding s) := by
  have lifted : ∀ u, KeepsRest u (clearPersist (stopSymbolizer (liftForEnd u))) := fun u =>
    (liftForEnd_rests u).trans (.of_pcc (by simp))
  have ended : ∀ q, KeepsRest s (clearPersist (stopSymbolizer (liftForEnd (takeHoldLevels (startPostRinse (s.setSeq q)))))) := fun q =>
    .trans (.of_pcc (by simp)) (lifted _)
  exact .ite ((ended _).trans (takeFault_rests ..)) (ended _)

/-- Without a resume point a return to RUNNING leaves the arm (R136). -/
theorem returnSweep_rests (s : State) : KeepsRest s (returnSweep s) where
  rests parked none := by
    have stands : returnSweep s = s := by simp [returnSweep, none]
    simp [stands, parked, none]

theorem leaveHolding_rests (s : State) : KeepsRest s (leaveHolding s) := by
  have ending : ∀ u, u.pcc = s.pcc → KeepsRest s (enterEnding u) := fun u h => .trans (.of_pcc h) (enterEnding_rests u)
  have running : KeepsRest s (returnToRunning s) := .trans (.of_pcc (by simp)) (returnSweep_rests _)
  unfold leaveHolding
  split
  · exact .ite (ending _ (by simp)) (.ite (.of_pcc (by simp)) running)
  · exact .ite (ending _ (by simp)) (.of_pcc (by simp))

theorem takeReports_rests (s : State) : KeepsRest s (takeReports s) := by
  unfold takeReports
  split
  · exact .ite (enterHolding_rests ..) (.refl s)
  · exact .ite (.refl s) (.ite (.trans (.of_pcc (by simp)) (leaveHolding_rests _)) (.of_pcc (by simp)))
  all_goals exact .refl s

theorem settle_rests (s : State) : KeepsRest s (settle s) := by
  have round : ∀ u, KeepsRest u (takeReports (carry u)) := fun u => .trans (.of_pcc (by simp)) (takeReports_rests _)
  exact .ite (((round s).trans (round _)).trans (.of_pcc (by simp))) (.refl s)

end

/-! ### The orders -/

/-- An ANSWER queued leaves the flags of LNK (R201). -/
theorem answered_flags (m : OrderMeta) (c : Nat) (d : List Byte) (s : State) :
    (answered m c d s).lnk.collisionSeen = s.lnk.collisionSeen ∧ (answered m c d s).lnk.checkErrorSeen = s.lnk.checkErrorSeen ∧
    (answered m c d s).lnk.malformedSeen = s.lnk.malformedSeen := by
  unfold answered
  split
  · exact ⟨rfl, rfl, rfl⟩
  · exact ⟨rfl, rfl, rfl⟩

theorem flagsWord_answered (m : OrderMeta) (c : Nat) (d : List Byte) (s : State) : flagsWord (answered m c d s) = flagsWord s := by
  obtain ⟨collision, check, malformed⟩ := answered_flags m c d s
  simp [flagsWord, stickyBits, collision, check, malformed]

theorem clearEvents_spec {m : OrderMeta} {s : State} (mask : BitVec 16) (takes : takesOrder m s = true) :
    exec (.clearEvents m mask) s =
      .next (answered m 0 (le2 (flagsWord (settle (clearFlags mask s)))) (settle (clearFlags mask s))) :=
  congrArg Host.Outcome.next (serve_of (o := orderClearEvents mask) takes rfl (by simp [clearFlags_eq]))

section
variable {s : State} {m : OrderMeta}

/-- An order answered in a state as silent as the one that took it (R178, R184). -/
theorem serve_bare {o : State → Reply} {t : State} {c : Code} (takes : takesOrder m s = true) (reply : o s = .bare t c)
    (silent : t.silent = s.silent) : serve m o s = answered m (numCode c) [] t := by
  simp only [serve, takes, if_true, reply, Reply.bare, answered, placeAnswer, silent]
  cases m.toAll <;> cases s.silent <;> simp [State.setLnk, Frame.new]

theorem restart_pending (takes : takesOrder m s = true) (run : s.ilk.mode ≠ .lockout) (rest : s.seq.state.atRest = true)
    (one : m.toAll = false) (heard : s.silent = false) :
    exec (.restart m) s = .next (answered m 0 [] { s with cfg := { s.cfg with restartPending := true } }) := by
  have reply : orderRestart m.toAll s = .bare (s.setCfg { s.cfg with restartPending := true }) .ok := by
    simp [orderRestart, run, rest, one, heard]
  exact congrArg Host.Outcome.next (serve_bare takes reply rfl)

theorem restart_atOnce (takes : takesOrder m s = true) (run : s.ilk.mode ≠ .lockout) (rest : s.seq.state.atRest = true)
    (unanswered : m.toAll = true ∨ s.silent = true) : exec (.restart m) s = .next (doReset .restartOrder false s) := by
  have none : (m.toAll || s.silent) = true := by simpa using unanswered
  have reply : orderRestart m.toAll s = .bare (doReset .restartOrder false s) .ok := by simp [orderRestart, run, rest, none]
  refine congrArg Host.Outcome.next ?_
  rw [serve, if_pos takes, reply]
  exact if_pos none

end

/-- Settles O34: the flags through the carrying through and the answer, the arm's search, and RESTART by the sequencer's state. -/
theorem clearEventsAndRestart : Obligations.ClearEventsAndRestart := by
  unfold Obligations.ClearEventsAndRestart
  refine fun s m mask takes => ⟨?_, restart_pending takes, restart_atOnce takes, fun run inRun =>
    refused_of_reply (reply := orderRestart m.toAll) (code := .state) rfl takes (by simp [orderRestart, run, inRun])⟩
  have cleared := clearFlags_eq mask s
  have pcc : (clearFlags mask s).pcc = if s.pcc.arm = .lost ∧ mask.getLsbD 13 = true then
      { s.pcc with condLost := false, arm := .parked, homeFound := false, search := some 0, radius := s.pins.armFeedback }
    else s.pcc := by rw [cleared]
  have seq : (clearFlags mask s).seq = s.seq := by rw [cleared]
  have epm : (clearFlags mask s).epm = s.epm := by rw [cleared]
  have calm : s.seq.state ≠ .running → s.seq.state ≠ .holding → (settle (clearFlags mask s)).pcc = (clearFlags mask s).pcc ∧
      (settle (clearFlags mask s)).seq = s.seq ∧ (settle (clearFlags mask s)).epm = s.epm := fun running holding => by
    obtain ⟨seq', -, pcc', epm', -⟩ := settle_calm (s := clearFlags mask s) (by rwa [seq]) (by rwa [seq])
    exact ⟨pcc', seq'.trans seq, epm'.trans epm⟩
  refine ⟨_, clearEvents_spec mask takes, fun l => ?_, by simp [answered_flags, cleared], by simp [answered_flags, cleared],
    by simp [answered_flags, cleared], by simp [cleared], by simp [cleared], by simp [cleared], by simp [cleared], ?_, by simp [cleared],
    by simp [cleared], by simp [cleared], by simp [cleared], ⟨clearFlags mask s, by simp, by simp, by simp, seq, epm, pcc⟩,
    fun still lost named => ?_, fun running holding => ⟨fun other => ?_, ?_, ?_⟩⟩
  · simpa [State.line] using clearFlags_sticky mask s l
  · rw [flagsWord_answered]
    exact answers_of (by simp [cleared]) (by simp [cleared])
  · rw [if_pos ⟨lost, named⟩] at pcc
    simp only [answered_keeps]
    rcases still with ⟨running, holding⟩ | none
    · rw [(calm running holding).1, pcc]
      exact ⟨rfl, rfl, rfl, rfl⟩
    · obtain ⟨arm, -, mark, home, search⟩ := (settle_rests (clearFlags mask s)).rests (by rw [pcc]) (by rw [pcc]; exact none)
      rw [pcc] at mark home search
      exact ⟨mark, arm, home, search⟩
  · have unnamed : ¬(s.pcc.arm = .lost ∧ mask.getLsbD 13 = true) := fun ⟨lost, named⟩ =>
      other.elim (fun h => Bool.false_ne_true (h.symm.trans named)) (· lost)
    simp only [answered_keeps, calm running holding, pcc, if_neg unnamed]
  · simpa using (calm running holding).2.1
  · simpa using (calm running holding).2.2

end Sys2Proof.Machine
end

section
/-! Ramps (R120, R121): the ticks of a ramp and its end. -/

namespace Sys2Proof.Machine

open Sys2Proof

/-- The last tick of a ramp gives the target (R121). -/
theorem rampValue_last (a b : Nat) {n : Nat} (pos : 0 < n) : rampValue a b n n = b := by
  unfold rampValue
  simp only [Nat.mul_div_cancel _ pos]
  split <;> omega

/-- Two families within the maxima and D, and a ramp from the one to the other at any of its ticks (R119, R121). -/
theorem ZonesWithin.ramp {maxima a b : PerHead Nat} {d k n : Nat} (tick : k ≤ n) (starts : ZonesWithin maxima d a)
    (targets : ZonesWithin maxima d b) : ZonesWithin maxima d (.of fun c => rampValue (a.get c) (b.get c) k n) := by
  obtain ⟨⟨a1, a2, a3, a4, a5, ar⟩, ⟨p1, q1⟩, ⟨p2, q2⟩, ⟨p3, q3⟩, p4, q4⟩ := starts
  obtain ⟨⟨b1, b2, b3, b4, b5, br⟩, ⟨u1, v1⟩, ⟨u2, v2⟩, ⟨u3, v3⟩, u4, v4⟩ := targets
  have le : ∀ {m x y : Nat}, x ≤ m → y ≤ m → rampValue x y k n ≤ m := fun x y => rampValue_le _ n k tick x y
  have near : ∀ {w x y z : Nat}, w ≤ x + d → y ≤ z + d → rampValue w y k n ≤ rampValue x z k n + d := fun x y =>
    rampValue_within d n k tick x y
  exact ⟨⟨le a1 b1, le a2 b2, le a3 b3, le a4 b4, le a5 b5, le ar br⟩, ⟨near p1 u1, near q1 v1⟩, ⟨near p2 u2, near q2 v2⟩,
    ⟨near p3 u3, near q3 v3⟩, near p4 u4, near q4 v4⟩

section
variable {s : State} {r : Ramp}

theorem rampTick_eq (found : s.hpc.ramp = some r) :
    rampTick s = s.setHpc { s.hpc with
      ramp := some { r with k := r.k + 1, timer := r.timer - rampTickTime }
      ch := .of (fun c =>
        if (s.head c).state = .ramping then
          { s.head c with applied := rampValue (r.starts.get c) (s.head c).target (r.k + 1) r.n }
        else s.head c) } := by
  rw [rampTick, found]

theorem rampTick_head (found : s.hpc.ramp = some r) (c : HeadCh) :
    (rampTick s).head c =
      if (s.head c).state = .ramping then
        { s.head c with applied := rampValue (r.starts.get c) (s.head c).target (r.k + 1) r.n }
      else s.head c := by
  rw [rampTick_eq found]
  exact PerHead.get_of _ c

/-- With every channel RAMPING a tick gives each the ramp's value between its start and its target (R121). -/
theorem rampTick_applied (found : s.hpc.ramp = some r) (ramping : ∀ c, (s.head c).state = .ramping) :
    (rampTick s).applied = .of fun c => rampValue (r.starts.get c) (s.targets.get c) (r.k + 1) r.n := by
  refine PerHead.ext' fun c => ?_
  have head := rampTick_head found c
  rw [if_pos (ramping c)] at head
  rw [State.applied, PerHead.get_map, PerHead.get_of, State.targets, PerHead.get_map]
  exact congrArg HeadChan.applied head

theorem exec_rampTick (started : s.started = true) (found : s.hpc.ramp = some r) (more : r.k < r.n) (time : 20000 ≤ r.timer) :
    exec .rampTick s = .next (rampTick s) := by
  have due : rampTickDue s = true := by
    have time : rampTickTime ≤ r.timer := time
    simp [rampTickDue, found, more, time]
  change execRampTick s = _
  rw [execRampTick, started, due]
  rfl

theorem exec_rampEnd (started : s.started = true) (found : s.hpc.ramp = some r) (all : r.n ≤ r.k) :
    exec .rampEnd s = .next (rampEnd s) := by
  have due : rampEndDue s = true := by simp [rampEndDue, found, all]
  change execRampEnd s = _
  rw [execRampEnd, started, due]
  rfl

theorem rampEnd_head (s : State) (c : HeadCh) :
    (rampEnd s).head c =
      if (s.head c).state = .ramping then { s.head c with state := .regulating, applied := (s.head c).target, regTimer := 0 }
      else s.head c := PerHead.get_map ..

end

end Sys2Proof.Machine
end

section
/-! The head within its clamp and envelope through every order, frame and event (R119 to R122, R125, R126). -/

namespace Sys2Proof.Machine

open Sys2Proof

/-! ### What keeps the head within its bounds -/

/-- A change of state keeps the head within its bounds. -/
structure KeepsHead (s t : State) : Prop where
  within : HeadWithin s → HeadWithin t

section
variable {s t u : State}

theorem KeepsHead.refl (s : State) : KeepsHead s s := ⟨id⟩

theorem KeepsHead.trans (h : KeepsHead s t) (h' : KeepsHead t u) : KeepsHead s u := ⟨h'.within ∘ h.within⟩

/-- A change that leaves the head, CFG, SEQ's state and its first fault. -/
theorem KeepsHead.of_frame
    (h : t.hpc = s.hpc ∧ t.cfg = s.cfg ∧ t.seq.state = s.seq.state ∧ t.seq.first = s.seq.first) : KeepsHead s t := by
  obtain ⟨hpc, cfg, state, first⟩ := h
  exact ⟨fun within => within.of_same hpc cfg state first⟩

theorem KeepsHead.ite {c : Prop} [Decidable c] (h : c → KeepsHead s t) (h' : ¬c → KeepsHead s u) :
    KeepsHead s (if c then t else u) := by
  split
  · exact h ‹_›
  · exact h' ‹_›

theorem KeepsHead.whenDue {due : Bool} {f : State → State} (h : KeepsHead s u) (hf : due = true → KeepsHead u (f u)) :
    KeepsHead s (whenDue due u f) := 
  ⟨fun within => (h.within within).after_whenDue fun x => (hf x).within (h.within within)⟩

theorem KeepsHead.settle (h : KeepsHead s t) : KeepsHead s (settle t) :=
  ⟨fun within => (h.within within).after_settle⟩

/-- An event of the part's own whose effect is carried through. -/
theorem event_head {due : Bool} {f : State → State} (h : due = true → KeepsHead s (f s)) :
    KeepsHead s (whenDue due s (fun u => settle (f u))) :=
  .whenDue (.refl s) fun x => (h x).settle

/-! ### Before the image is in force -/

/-- Before the image is in force SEQ is EMPTY, the head vented and without targets (R92, R130). -/
theorem HeadWithin.vented (h : HeadWithin s) (off : ¬ InForce s) :
    s.seq.state = .empty ∧ s.applied = .all 0 ∧ s.hpc.stepTargets = .all 0 ∧ s.hpc.ramp = none := by
  refine h.2.2.2.2 ?_
  by_contra none
  rw [not_or, not_or] at none
  exact off none

/-- With the image in force the bounds and the faults of the channels are all of the invariant. -/
theorem HeadWithin.of_inForce (fits : HeadFits t) (inForce : InForce t)
    (faulted : ∀ c, (t.head c).state = .channelFault →
      t.seq.state = .faulted ∨ (t.seq.state = .aborting ∧ t.seq.first.isSome = true)) : HeadWithin t := by
  obtain ⟨applied, targets, ramp⟩ := fits
  refine ⟨applied, targets, ramp, faulted, fun off => ?_⟩
  obtain ⟨settle, loading, fault⟩ := inForce
  rcases off with off | off | off <;> contradiction

/-- A vented head without step targets meets every bound (R119, R122). -/
theorem HeadWithin.of_vented (applied : t.applied = .all 0) (targets : t.hpc.stepTargets = .all 0) (ramp : t.hpc.ramp = none)
    (sound : AllSound t) (empty : t.seq.state = .empty) : HeadWithin t :=
  ⟨applied ▸ zonesWithin_zero .., targets ▸ zonesWithin_zero .., fun _ found => absurd (ramp.symm.trans found) nofun,
    fun c faulted => absurd faulted (sound c), fun _ => ⟨empty, applied, targets, ramp⟩⟩

/-- With the head vented, without step targets, SEQ EMPTY, and no channel in CHANNEL_FAULT the image may change. -/
theorem HeadWithin.of_image (h : HeadWithin s) (off : ¬ InForce s) (hpc : t.hpc = s.hpc) (seq : t.seq = s.seq) :
    HeadWithin t := by
  obtain ⟨empty, applied, targets, ramp⟩ := h.vented off
  have good := h.good (by simp [empty]) (by simp [empty])
  exact .of_vented (by rw [State.applied, hpc]; exact applied) (by rw [hpc, targets]) (by rw [hpc, ramp]) (good.2.of_eq hpc)
    (by rw [seq, empty])

/-- An operation that keeps a good head, and in EMPTY, ABORTING and FAULTED leaves the head, SEQ's state and its first fault, keeps the
invariant whatever the start-up state. -/
theorem KeepsHead.of_calm (cfg : t.cfg = s.cfg) (good : HeadGood s → HeadGood t)
    (calm : s.seq.state = .empty ∨ s.seq.state = .aborting ∨ s.seq.state = .faulted →
      t.hpc = s.hpc ∧ t.seq.state = s.seq.state ∧ t.seq.first = s.seq.first) : KeepsHead s t := by
  constructor
  intro h
  by_cases out : s.seq.state = .empty ∨ s.seq.state = .aborting ∨ s.seq.state = .faulted
  · obtain ⟨hpc, state, first⟩ := calm out
    exact h.of_same hpc cfg state first
  · have inForce : InForce s := by_contra fun off => out (.inl (h.vented off).1)
    simp only [not_or] at out
    refine .of_good (good (h.good out.2.2 out.2.1)) ?_
    rw [InForce, cfg]
    exact inForce

/-! ### The sequencer's operations -/

theorem holdFor_head (c : Cause) (s : State) : KeepsHead s (holdFor c s) :=
  .of_calm (by simp) (fun good => good.after_holdFor c) fun out => by rcases out with out | out | out <;> simp [holdFor, out]

theorem abortRun_head (r : RunResult) (s : State) : KeepsHead s (abortRun r s) :=
  .of_calm (by simp) (fun good => good.after_abortRun r) fun out => by
    rcases out with out | out | out <;> simp [abortRun, out, SeqState.inRun]

theorem takeFault_head (k : FaultKind) (s : State) : KeepsHead s (takeFault k s) := ⟨fun within => within.after_takeFault k⟩

/-- A fault of a block whose own part leaves the head. -/
theorem KeepsHead.fault (k : FaultKind)
    (h : t.hpc = s.hpc ∧ t.cfg = s.cfg ∧ t.seq.state = s.seq.state ∧ t.seq.first = s.seq.first) : KeepsHead s (takeFault k t) :=
  .trans (.of_frame h) (takeFault_head ..)

/-- An operation of a started part outside ABORTING and FAULTED that keeps a good head. -/
theorem KeepsHead.of_good (started : s.started = true) (state : s.seq.state ≠ .faulted ∧ s.seq.state ≠ .aborting)
    (cfg : t.cfg = s.cfg) (good : HeadGood s → HeadGood t) : KeepsHead s t :=
  ⟨fun within => within.whenGood started cfg state good⟩

theorem takeStop_head (s : State) : KeepsHead s (takeStop s) := by
  unfold takeStop
  split
  · exact holdFor_head ..
  · exact abortRun_head ..

theorem armFault_head (c : ArmCause) (started : s.started = true) : KeepsHead s (armFault c s) :=
  ⟨fun within => within.after_armFault started c⟩

/-- ABORTING completed: FAULTED where a fault is in the record, so that a CHANNEL_FAULT keeps its fault; else DONE (R86). -/
theorem completeAbort_head (timeout : Bool) (started : s.started = true) (aborting : s.seq.state = .aborting) :
    KeepsHead s (completeAbort timeout s) := by
  have inForce : InForce (completeAbort timeout s) := by simpa [InForce] using inForce_of_started started
  constructor
  intro within
  by_cases fault : s.seq.first.isSome = true
  · have entered : HeadFits (enterRest .faulted (s.setSeq { s.seq with abortTimer := none })) :=
      HeadFits.after_enterRest (within.fits.of_eq (State.setSeq_hpc ..) (State.setSeq_cfg ..)) _
    have completed : completeAbort timeout s =
        noticeRunEnded timeout (enterRest .faulted (s.setSeq { s.seq with abortTimer := none })) := by rw [completeAbort, if_pos fault]
    rw [completed] at inForce ⊢
    have fits : HeadFits (noticeRunEnded timeout (enterRest .faulted (s.setSeq { s.seq with abortTimer := none }))) :=
      entered.of_eq (by simp) (by simp)
    exact .of_inForce fits inForce fun _ _ => .inl (by simp [enterRest])
  · refine .of_good (HeadGood.after_completeAbort ⟨within.fits, fun c faulted => ?_⟩ timeout) inForce
    rcases within.2.2.2.1 c faulted with state | ⟨-, first⟩
    · simp [aborting] at state
    · exact fault first

/-! ### ILK -/

theorem route_head (r : Routing) (l : Line) (s : State) : KeepsHead s (route r l s) := by
  have placed : ∀ u, KeepsHead u (placeStopFrame (numLine l) u) := fun _ => .of_frame (by simp)
  cases r with
  | note => exact .refl s
  | hold => exact holdFor_head ..
  | abort => exact takeFault_head ..
  | linkStop => exact (takeFault_head ..).trans (placed _)

theorem takeLine_head (l : Line) (s : State) : KeepsHead s (takeLine l s) := by
  have taken : ∀ x, KeepsHead s (s.setLine l x) := fun _ => .of_frame (by simp)
  have noticed : ∀ n p u, KeepsHead u (placeNotice n p u) := fun _ _ _ => .of_frame (by simp)
  unfold takeLine
  dsimp only
  split
  · exact taken _
  · exact .ite (fun _ => (taken _).trans ((noticed ..).trans (route_head ..))) fun _ => taken _

theorem takeAtOnce_head (l : Line) (s : State) : KeepsHead s (takeAtOnce l s) := event_head fun _ => takeLine_head l s

theorem decodeMode_head (s : State) : KeepsHead s (decodeMode s) := by
  have decoded : ∀ x, KeepsHead s (s.setIlk x) := fun _ => .of_frame (by simp)
  have noticed : ∀ n p u, KeepsHead u (placeNotice n p u) := fun _ _ _ => .of_frame (by simp)
  have changed : ∀ m u, KeepsHead u (modeChanged m u) := fun m u => by
    cases m with
    | run => exact .refl u
    | service => exact holdFor_head ..
    | lockout => exact abortRun_head ..
  exact .ite (fun _ => decoded _) fun _ => ((decoded _).trans (noticed ..)).trans (changed ..)

/-! ### Resets and start-up -/

theorem doReset_head (cause : ResetCause) (held : Bool) (s : State) : KeepsHead s (doReset cause held s) :=
  ⟨fun _ => .of_vented rfl rfl rfl (fun c => by cases c <;> nofun) rfl⟩

/-- SETTLE's end: the image that comes into force finds a vented head, and a trip that stands leaves it vented (R175, R195). -/
theorem endSettle_head (due : settleDue s = true) : KeepsHead s (endSettle s) := by
  have off : ¬ InForce s := fun inForce => by simp_all [settleDue, InForce]
  unfold endSettle
  split
  · next b _ =>
    rw [loadImage_eq]
    constructor
    intro within
    have loading : HeadWithin (loaded b s) := within.of_image off (by simp [loaded]) (by simp [loaded])
    have trips : ∀ c v, HeadWithin v → HeadWithin (if c = true then takeFault .driveTrip v else v) := fun c v h => by
      split
      · exact h.after_takeFault _
      · exact h
    exact trips _ _ (trips _ _ loading)
  · exact ⟨fun within => within.of_image off (by simp) (by simp)⟩

/-- What leaves the head and SEQ while CFG moves on with the same image in force. -/
theorem KeepsHead.of_cfg (hpc : t.hpc = s.hpc) (image : t.cfg.image = s.cfg.image) (inForce : InForce t) (seq : t.seq = s.seq) :
    KeepsHead s t :=
  ⟨fun within => within.of_cfg hpc (by rw [State.img, image, State.img]) inForce (by rw [seq]) (by rw [seq])⟩

end

end Sys2Proof.Machine
end

section
/-! The head within its clamp and envelope through the orders and the link (R64 to R66, R77, R81, R84, R88, R126, R181 to R184, R202). -/

namespace Sys2Proof.Machine

open Sys2Proof

section
variable {s t u : State}

/-! ### The orders -/

/-- An order's reply keeps the head within its bounds. -/
def Reply.KeepsHead (s : State) (r : Reply) : Prop := Machine.KeepsHead s r.st

theorem Reply.KeepsHead.refused (s : State) (c : Code) (d : List Byte) : Reply.KeepsHead s ⟨s, c, d⟩ := Machine.KeepsHead.refl s

theorem Reply.KeepsHead.ite {p : Prop} [Decidable p] {r r' : Reply} (h : p → r.KeepsHead s) (h' : ¬p → r'.KeepsHead s) :
    Reply.KeepsHead s (if p then r else r') := by
  split
  · exact h ‹_›
  · exact h' ‹_›

/-- LOAD enters LOADED from a state in which no channel is in CHANNEL_FAULT (R64). -/
theorem orderLoad_head (slot : Byte) (started : s.started = true) : (orderLoad slot s).KeepsHead s := by
  refine .ite (fun _ => .refused ..) fun _ => .ite (fun _ => .refused ..) fun loads => ?_
  have calm : s.seq.state ≠ .faulted ∧ s.seq.state ≠ .aborting := by
    constructor <;> intro state <;> simp [SeqState.loads, state] at loads
  have copied : Machine.KeepsHead s (takeCopy (s.slot slot.toNat) s) :=
    .of_good started calm (by simp [takeCopy]) fun good => HeadGood.after_enterRest (good.of_eq (by simp) (by simp)) _
  refine .ite (fun _ => .refused ..) fun _ => .ite (fun _ => .refused ..) fun _ => ?_
  dsimp only
  split
  case h_4 => exact .ite (fun _ => copied.settle) fun _ => Machine.KeepsHead.of_frame ⟨rfl, rfl, rfl, rfl⟩
  all_goals exact .refused ..

theorem orderUnload_head (started : s.started = true) : (orderUnload s).KeepsHead s := by
  refine .ite (fun _ => .refused ..) fun _ => .ite (fun state => ?_) fun _ => .refused ..
  have calm := notBad (s := s) (by rcases state with state | state <;> simp [state])
  exact (Machine.KeepsHead.of_good started calm (by simp) fun good =>
    HeadGood.after_enterRest (good.of_eq (by simp) (by simp)) _).settle

theorem orderStart_head (started : s.started = true) : (orderStart s).KeepsHead s := by
  refine .ite (fun _ => .refused ..) fun _ => .ite (fun _ => .refused ..) fun rest => ?_
  refine .ite (fun _ => .refused ..) fun _ => .ite (fun _ => .refused ..) fun _ => ?_
  have calm : s.seq.state ≠ .faulted ∧ s.seq.state ≠ .aborting := by
    constructor <;> intro state <;> simp [state] at rest
  exact (Machine.KeepsHead.of_good started calm (by simp) fun good =>
    HeadGood.after_enterWaiting (good.of_eq (by simp) (by simp)) _ _).settle

theorem orderHold_head (s : State) : (orderHold s).KeepsHead s :=
  .ite (fun _ => .refused ..) fun _ => .ite (fun _ => (holdFor_head .ordered s).settle) fun _ => .refused ..

theorem orderResume_head (started : s.started = true) : (orderResume s).KeepsHead s := by
  refine .ite (fun _ => .refused ..) fun _ => .ite (fun state => ?_) fun _ => .refused ..
  exact (Machine.KeepsHead.of_good started (notBad (by simp [state])) (by simp) fun good => good.after_resumeHold).settle

theorem orderAbort_head (s : State) : (orderAbort s).KeepsHead s :=
  .ite (fun _ => .refused ..) fun _ => .ite (fun _ => (abortRun_head .aborted s).settle) fun _ =>
    .ite (fun _ => .refused ..) fun _ => .refused ..

/-- With a ramp in progress every channel is RAMPING, and none left to clear (R121, R126). -/
theorem HeadFits.after_clearChannelFaults (h : HeadFits s) : HeadFits (clearChannelFaults s) := by
  obtain ⟨applied, targets, ramps⟩ := h
  have head : ∀ c, (clearChannelFaults s).head c =
      if (s.head c).sound then s.head c else { s.head c with state := .vented, overTimer := 0 } := fun c => PerHead.get_map ..
  have stand : ∀ c, ((clearChannelFaults s).head c).applied = (s.head c).applied ∧
      ((clearChannelFaults s).head c).target = (s.head c).target := fun c => by
    rw [head]
    cases (s.head c).sound <;> exact ⟨rfl, rfl⟩
  have applied' : (clearChannelFaults s).applied = s.applied :=
    PerHead.ext' fun c => by simpa [State.applied, State.head] using (stand c).1
  have targets' : (clearChannelFaults s).targets = s.targets :=
    PerHead.ext' fun c => by simpa [State.targets, State.head] using (stand c).2
  refine ⟨applied' ▸ applied, targets, fun r found => ?_⟩
  obtain ⟨tick, starts, within, ramping⟩ := ramps r found
  refine ⟨tick, starts, targets' ▸ within, fun c => ?_⟩
  rw [head, if_pos (by simp [HeadChan.sound, (ramping c).1])]
  exact ramping c

/-- CLEAR_FAULT leaves no channel in CHANNEL_FAULT, and DONE with the head vented (R88, R126). -/
theorem orderClearFault_head (started : s.started = true) : (orderClearFault s).KeepsHead s := by
  refine .ite (fun _ => .refused ..) fun _ => .ite (fun _ => .refused ..) fun _ => .ite (fun _ => .refused ..) fun _ => ?_
  refine Machine.KeepsHead.settle ⟨fun within => ?_⟩
  have fits : HeadFits (clearChannelFaults (s.setSeq { s.seq with first := none, later := .empty })) :=
    HeadFits.after_clearChannelFaults (within.fits.of_eq rfl rfl)
  have good : HeadGood (clearChannelFaults (s.setSeq { s.seq with first := none, later := .empty })) :=
    ⟨fits, fun c => (clearChannelFaults_sound _ c).1⟩
  exact .of_good (good.after_enterRest _) (by simpa [InForce] using inForce_of_started started)

theorem orderClearEvents_head (mask : BitVec 16) (s : State) : (orderClearEvents mask s).KeepsHead s := by
  have cleared : Machine.KeepsHead s (clearFlags mask s) :=
    ⟨fun within => within.of_chans (by rw [clearFlags_eq]; exact ⟨rfl, rfl, fun _ => ⟨rfl, rfl, rfl⟩⟩) (by rw [clearFlags_eq])
      (by rw [clearFlags_eq]) (by rw [clearFlags_eq])⟩
  exact cleared.settle

theorem orderRestart_head (toAll : Bool) (started : s.started = true) : (orderRestart toAll s).KeepsHead s :=
  .ite (fun _ => .refused ..) fun _ => .ite (fun _ => .refused ..) fun _ =>
    .ite (fun _ => doReset_head ..) fun _ => Machine.KeepsHead.of_cfg rfl rfl (inForce_of_started started) rfl

/-- Every order at its owner: the store's orders, the replacements and the readings leave the head. -/
theorem carryOut_head (toAll : Bool) (o : Order) (started : s.started = true) : (carryOut toAll o s).KeepsHead s := by
  cases o with
  | load slot => exact orderLoad_head slot started
  | unload => exact orderUnload_head started
  | start => exact orderStart_head started
  | hold => exact orderHold_head s
  | resume => exact orderResume_head started
  | abort => exact orderAbort_head s
  | clearFault => exact orderClearFault_head started
  | clearEvents mask => exact orderClearEvents_head mask s
  | restart => exact orderRestart_head toAll started
  | _ =>
    simp only [carryOut, orderReadResult, orderWriteHeader, orderWriteStep, orderCloseRecipe, orderEraseRecipe, orderSumRecipe,
      orderEraseStore, orderLockStore, orderReadRecipe, readReply, orderWriteProfile, orderDiskReplaced, orderPadReplaced,
      orderQueryStatus]
    (repeat' split) <;> exact Machine.KeepsHead.of_frame ⟨rfl, rfl, rfl, rfl⟩

theorem serve_head (m : OrderMeta) {owner : State → Reply} (h : s.started = true → (owner s).KeepsHead s) :
    KeepsHead s (serve m owner s) := by
  have answer : ∀ tag d u, KeepsHead u (placeAnswer tag d u) := fun _ _ _ => .of_frame (by simp)
  exact .ite (fun takes => .ite (fun _ => h (started_of_takesOrder takes)) fun _ =>
    KeepsHead.trans (h (started_of_takesOrder takes)) (answer ..)) fun _ => .refl s

theorem takeOrder_head (m : OrderMeta) (payload : List Byte) (s : State) : KeepsHead s (takeOrder m payload s) := by
  unfold takeOrder
  split
  · exact serve_head m fun _ => .refused ..
  · exact serve_head m fun _ => .ite (fun _ => .refused ..) fun _ => .refused ..
  · exact serve_head m fun started => carryOut_head _ _ started

theorem ofLength_head (good : Bool) {owner : State → Reply} (h : (owner s).KeepsHead s) : (ofLength good owner s).KeepsHead s := by
  cases good
  · exact .refused ..
  · exact h

/-! ### The link -/

theorem setLnk_head (s : State) (x : Lnk) : KeepsHead s (s.setLnk x) := .of_frame ⟨rfl, rfl, rfl, rfl⟩

theorem restartIfSent_head (s : State) : KeepsHead s (restartIfSent s) := .ite (fun _ => doReset_head ..) fun _ => .refl s

theorem finishFrame_head (s : State) : KeepsHead s (finishFrame s) := by
  unfold finishFrame
  split
  · exact .refl s
  · exact (setLnk_head ..).trans (restartIfSent_head _)

theorem mismatchEcho_head (s : State) : KeepsHead s (mismatchEcho s) := by
  unfold mismatchEcho
  split
  · exact .refl s
  · exact (setLnk_head ..).trans (restartIfSent_head _)

theorem takeDemand_head (n : Nat) (p : List Byte) (s : State) : KeepsHead s (takeDemand n p s) := by
  have marked : ∀ items u, KeepsHead u (reportMarks items u) := fun items u => .of_frame (by
    rw [reportMarks_alone items u]
    exact ⟨rfl, rfl, rfl, rfl⟩)
  have shared : ∀ v u, KeepsHead u (shrRuns v u) := fun _ _ => .of_frame (by simp)
  have entered : ∀ x, KeepsHead s (s.setPeer x) := fun _ => .of_frame (by simp)
  by_cases own : n = s.img.node
  · rw [takeDemand, if_pos own]
    exact .refl s
  by_cases ok : demandOk n p = true
  · rw [takeDemand_of_ok own ok]
    exact ((entered _).trans (marked ..)).trans (shared ..)
  · rw [takeDemand, if_neg own, if_neg ok]
    exact setLnk_head ..

/-- A duplicate node number is a fault, or the restart that was pending (R182). -/
theorem findDuplicate_head (s : State) : KeepsHead s (findDuplicate s) := by
  have silenced : ∀ x, KeepsHead s ((s.setCfg { s.cfg with startUp := .duplicateNode }).setLnk x) := fun _ =>
    .of_cfg rfl rfl ⟨nofun, nofun, nofun⟩ rfl
  exact .ite (fun _ => doReset_head ..) fun _ => (silenced _).trans (takeFault_head ..)

/-- A frame of another node through the checks and to its owner (R181 to R183). -/
theorem hearOther_head (k : FrameKind) (bs : List Byte) (s : State) : KeepsHead s (hearOther k bs s) := by
  have heard : KeepsHead s (hearFrame s) := .of_frame ⟨rfl, rfl, rfl, rfl⟩
  have delivered : ∀ u, KeepsHead u (deliver k bs u) := fun u => by
    cases k with
    | stop => exact takeStop_head u
    | order => exact takeOrder_head ..
    | answer => exact .refl u
    | demand => exact takeDemand_head ..
    | notice => exact .refl u
  have accepted : ∀ u, KeepsHead u (acceptFrame k bs u) := fun u =>
    .ite (fun _ => setLnk_head ..) fun _ => .ite (fun _ => delivered u) fun _ => .refl u
  have shared : ∀ u, KeepsHead u (shrRuns allFeeds u) := fun _ => .of_frame (by simp)
  exact heard.trans (.ite (fun _ => (accepted _).trans (shared _)) fun _ => accepted _)

theorem endCarrier_head (bs : List Byte) (s : State) : KeepsHead s (endCarrier bs s) := by
  have checked : ∀ u, KeepsHead u (checkFrame bs u) := fun u => by
    unfold checkFrame
    split
    · exact setLnk_head ..
    · split
      · exact setLnk_head ..
      · exact .ite (fun _ => findDuplicate_head u) fun _ => hearOther_head ..
  exact .ite (fun _ => (setLnk_head ..).trans (checked _).settle) fun _ => setLnk_head ..

end

end Sys2Proof.Machine
end

section
/-! The head within its clamp and envelope through every command and every step: O46. -/

namespace Sys2Proof.Machine

open Sys2Proof

section
variable {s t : State}

/-! ### Every command -/

/-- The second refresh tick of LISTEN leaves the image as it is. -/
theorem countListen_head (s : State) : KeepsHead s (countListen s) := by
  unfold countListen
  split
  · next listen => exact .of_cfg rfl rfl (by simp [InForce, listen]) rfl
  · exact .refl s

/-- LISTEN ends in READY with the same image (R196). -/
theorem enterReady_head (s : State) : KeepsHead s (enterReady s) :=
  .of_cfg (by simp [enterReady]) (by simp [enterReady]) (by simp [InForce, enterReady]) (by simp [enterReady])

theorem rampTick_keepsHead (started : s.started = true) (due : rampTickDue s = true) : KeepsHead s (rampTick s) := by
  obtain ⟨r, found⟩ : ∃ r, s.hpc.ramp = some r := by
    rw [← Option.isSome_iff_exists]
    cases ramp : s.hpc.ramp <;> simp_all [rampTickDue]
  refine ⟨fun within => within.of_fits started (within.fits.after_rampTick due) ?_ (fun c faulted => ?_) ?_ ?_⟩
  · rw [rampTick_eq found]
    rfl
  · rw [rampTick_head found] at faulted
    split at faulted <;> exact faulted
  · rw [rampTick_eq found]
    rfl
  · rw [rampTick_eq found]
    rfl

theorem rampEnd_keepsHead (started : s.started = true) (due : rampEndDue s = true) : KeepsHead s (rampEnd s) := by
  refine ⟨fun within => within.of_fits started (within.fits.after_rampEnd due) rfl (fun c faulted => ?_) rfl rfl⟩
  rw [rampEnd_head] at faulted
  split at faulted
  · exact absurd faulted nofun
  · exact faulted

theorem judgeRegulation_head (c : HeadCh) (s : State) : KeepsHead s (judgeRegulation c s) :=
  ⟨fun within => within.after_judgeRegulation c⟩

/-- A change of HPC's own marks and timers. -/
theorem setHpc_head {x : Hpc} (same : x.ch = s.hpc.ch ∧ x.ramp = s.hpc.ramp ∧ x.stepTargets = s.hpc.stepTargets) :
    KeepsHead s (s.setHpc x) := by
  obtain ⟨ch, ramp, targets⟩ := same
  refine ⟨fun within => within.of_chans ⟨ramp, targets, fun c => ?_⟩ rfl rfl rfl⟩
  have head : (s.setHpc x).head c = s.head c := by rw [State.head, State.setHpc_hpc, ch, State.head]
  rw [head]
  exact ⟨rfl, rfl, rfl⟩

theorem airWarn_head (s : State) : KeepsHead s (airWarn s) := by
  have noticed : ∀ n p u, KeepsHead u (placeNotice n p u) := fun _ _ _ => .of_frame (by simp)
  have marked : KeepsHead s (s.setHpc { s.hpc with warn := true, armed := false, rearmTimer := 0 }) := setHpc_head ⟨rfl, rfl, rfl⟩
  exact marked.trans (noticed ..)

theorem tripAir_head (s : State) : KeepsHead s (tripAir s) := by
  have timed : KeepsHead s (s.setHpc { s.hpc with tripTimer := 0 }) := setHpc_head ⟨rfl, rfl, rfl⟩
  exact timed.trans (takeFault_head ..)

theorem checkDose_head (s : State) : KeepsHead s (checkDose s) :=
  .of_calm (by simp) HeadGood.after_checkDose fun out => by rcases out with out | out | out <;> simp [checkDose, out]

/-- What the bounds and the faults read of the state: the image, the start-up state, SEQ's state and first fault, the step targets, the channels'
states and values, and a ramp's starts and ticks. -/
theorem HeadWithin.congr (h : HeadWithin s) (image : t.cfg.image = s.cfg.image) (startUp : t.cfg.startUp = s.cfg.startUp)
    (state : t.seq.state = s.seq.state) (first : t.seq.first = s.seq.first) (targets : t.hpc.stepTargets = s.hpc.stepTargets)
    (chans : ∀ c, (t.head c).state = (s.head c).state ∧ (t.head c).target = (s.head c).target ∧
      (t.head c).applied = (s.head c).applied)
    (ramp : ∀ r, t.hpc.ramp = some r → ∃ timer, s.hpc.ramp = some { r with timer := timer }) : HeadWithin t := by
  have image' : t.img = s.img := by rw [State.img, image, State.img]
  have applied : t.applied = s.applied := PerHead.ext' fun c => by simpa [State.applied, State.head] using (chans c).2.2
  have targets' : t.targets = s.targets := PerHead.ext' fun c => by simpa [State.targets, State.head] using (chans c).2.1
  obtain ⟨bounds, steps, ramps, faults, off⟩ := h
  refine ⟨by rwa [image', applied], by rwa [image', targets], fun r found => ?_, fun c faulted => ?_, fun x => ?_⟩
  · obtain ⟨timer, found'⟩ := ramp r found
    obtain ⟨tick, starts, within, ramping⟩ := ramps _ found'
    refine ⟨tick, by rwa [image'], by rwa [image', targets'], fun c => ?_⟩
    obtain ⟨state', target, value⟩ := chans c
    rw [state', target, value]
    exact ramping c
  · rw [state, first]
    exact faults c ((chans c).1.symm.trans faulted)
  · rw [startUp] at x
    obtain ⟨empty, zero, zero', none⟩ := off x
    refine ⟨state.trans empty, applied.trans zero, targets.trans zero', ?_⟩
    rw [Option.eq_none_iff_forall_ne_some]
    intro r found
    obtain ⟨timer, found'⟩ := ramp r found
    exact absurd (none.symm.trans found') nofun

/-- The reset line held or released on a part whose image and start-up state stand (R199). -/
theorem setHeld_head (s : State) (held : Bool) : KeepsHead s (s.setCfg { s.cfg with held := held }) :=
  ⟨fun within => within.congr rfl rfl rfl rfl rfl (fun _ => ⟨rfl, rfl, rfl⟩) fun r found => ⟨r.timer, found⟩⟩

/-- Every command keeps the head within its bounds. -/
theorem exec_head (c : Instr) (s : State) : ∃ t, exec c s = .next t ∧ KeepsHead s t := by
  have order : ∀ (m : OrderMeta) o, KeepsHead s (serve m (carryOut m.toAll o) s) := fun m o => serve_head m (carryOut_head _ _)
  have write : ∀ (m : OrderMeta) good o, KeepsHead s (serve m (ofLength good (carryOut m.toAll o)) s) :=
    fun m good o => serve_head m fun started => ofLength_head good (carryOut_head _ _ started)
  have run : ∀ {due : Bool}, (s.started && due) = true → s.started = true ∧ due = true := fun h => by simpa using h
  cases c with
  -- resets and start-up
  | powerOn => exact ⟨_, rfl, doReset_head ..⟩
  | resetLine => exact ⟨_, rfl, .ite (fun _ => setHeld_head s false) fun _ => .ite (fun _ => .refl s) fun _ => doReset_head ..⟩
  | resetLineActive => exact ⟨_, rfl, .ite (fun _ => .refl s) fun _ => .ite (fun _ => setHeld_head s true) fun _ => doReset_head ..⟩
  | settleEnd => exact ⟨_, rfl, event_head endSettle_head⟩
  | listenEnd => exact ⟨_, rfl, .whenDue (.refl s) fun _ => enterReady_head s⟩
  | refreshTick => exact ⟨_, rfl, event_head fun _ => .trans (.of_frame (by simp)) (countListen_head _)⟩
  -- the link
  | frameReceived bs => exact ⟨_, rfl, endCarrier_head bs s⟩
  | demandReceived n p => exact ⟨_, rfl, event_head fun _ => takeDemand_head n p s⟩
  | stopReceived => exact ⟨_, rfl, event_head fun _ => takeStop_head s⟩
  | carrierBegins => exact ⟨_, rfl, .of_frame (by simp)⟩
  | frameSent => exact ⟨_, rfl, .whenDue (.refl s) fun _ => finishFrame_head s⟩
  | echoMismatch => exact ⟨_, rfl, .whenDue (.refl s) fun _ => mismatchEcho_head s⟩
  -- the orders
  | unknownOrder m p => exact ⟨_, rfl, takeOrder_head m p s⟩
  | load m slot => exact ⟨_, rfl, order m (.load slot)⟩
  | unload m => exact ⟨_, rfl, order m .unload⟩
  | start m => exact ⟨_, rfl, order m .start⟩
  | hold m => exact ⟨_, rfl, order m .hold⟩
  | resume m => exact ⟨_, rfl, order m .resume⟩
  | abort m => exact ⟨_, rfl, order m .abort⟩
  | clearFault m => exact ⟨_, rfl, order m .clearFault⟩
  | readResult m i => exact ⟨_, rfl, order m (.readResult i)⟩
  | writeHeader m slot part bs => exact ⟨_, rfl, write m _ (.writeHeader slot part bs)⟩
  | writeStep m slot i bs => exact ⟨_, rfl, write m _ (.writeStep slot i bs)⟩
  | closeRecipe m slot => exact ⟨_, rfl, order m (.closeRecipe slot)⟩
  | eraseRecipe m slot => exact ⟨_, rfl, order m (.eraseRecipe slot)⟩
  | eraseStore m => exact ⟨_, rfl, order m .eraseStore⟩
  | lockStore m => exact ⟨_, rfl, order m .lockStore⟩
  | readRecipe m slot kind part => exact ⟨_, rfl, order m (.readRecipe slot kind part)⟩
  | sumRecipe m slot => exact ⟨_, rfl, order m (.sumRecipe slot)⟩
  | writeProfile m profile count bs => exact ⟨_, rfl, write m _ (.writeProfile profile count bs)⟩
  | diskReplaced m => exact ⟨_, rfl, order m .diskReplaced⟩
  | padReplaced m => exact ⟨_, rfl, order m .padReplaced⟩
  | queryStatus m page => exact ⟨_, rfl, order m (.queryStatus page)⟩
  | clearEvents m mask => exact ⟨_, rfl, order m (.clearEvents mask)⟩
  | restart m => exact ⟨_, rfl, order m .restart⟩
  -- the dispense unit
  | valveFeedbackFault ch p => exact ⟨_, rfl, event_head fun _ => .fault _ (by simp)⟩
  | strokePulse ch =>
    have stroke : KeepsHead s (takeStroke ch s) := by rw [takeStroke_frame]; exact .of_frame ⟨rfl, rfl, rfl, rfl⟩
    exact ⟨_, rfl, event_head fun _ => (stroke.trans (.of_frame (by simp))).trans (checkDose_head _)⟩
  | flowmeterPulse ch =>
    have pulse : KeepsHead s (takePulse ch s) := by rw [takePulse_frame]; exact .of_frame ⟨rfl, rfl, rfl, rfl⟩
    exact ⟨_, rfl, event_head fun _ => pulse.trans (checkDose_head _)⟩
  | supplyPersist =>
    exact ⟨_, rfl, event_head fun due => .of_good (run due).1 (notBad (by simp_all [persistDue])) (by simp) fun good =>
      good.after_enterHolding ..⟩
  | pumpBlocked ch => exact ⟨_, rfl, event_head fun _ => .fault _ (by simp)⟩
  -- the sequencer
  | stepStart =>
    exact ⟨_, rfl, event_head fun due => .of_good (run due).1 (notBad (by simp_all [startDue])) (by simp) HeadGood.after_beginStep⟩
  | minTimeReached => exact ⟨_, rfl, event_head fun _ => .trans (.of_frame (by simp)) (checkDose_head _)⟩
  | stepLimitReached =>
    exact ⟨_, rfl, event_head fun due => .of_good (run due).1 (notBad (by simp_all [limitDue])) (by simp) HeadGood.after_reachLimit⟩
  | overpolishEnd =>
    exact ⟨_, rfl, event_head fun due => .of_good (run due).1 (notBad (by simp_all [overpolishDue])) (by simp) fun good =>
      good.after_endStep _⟩
  | endingComplete =>
    exact ⟨_, rfl, event_head fun due => .of_good (run due).1 (notBad (by simp_all [endingDue])) (by simp) HeadGood.after_completeEnding⟩
  | abortingComplete => exact ⟨_, rfl, event_head fun due => completeAbort_head false (run due).1 (by simp_all [abortDone])⟩
  | abortTimeout => exact ⟨_, rfl, event_head fun due => completeAbort_head true (run due).1 (by simp_all [abortTimeoutDue])⟩
  -- the head
  | rampTick => exact ⟨_, rfl, .whenDue (.refl s) fun due => rampTick_keepsHead (run due).1 (run due).2⟩
  | rampEnd => exact ⟨_, rfl, .whenDue (.refl s) fun due => rampEnd_keepsHead (run due).1 (run due).2⟩
  | regulationTimeout c => exact ⟨_, rfl, event_head fun _ => judgeRegulation_head c s⟩
  | overpressure c => exact ⟨_, rfl, event_head fun due => ⟨fun within => within.after_overpressure (run due).1 c⟩⟩
  | supplyAir => exact ⟨_, rfl, event_head fun _ => tripAir_head s⟩
  | supplyWarn => exact ⟨_, rfl, .whenDue (.refl s) fun _ => airWarn_head s⟩
  | warnRearm => exact ⟨_, rfl, .whenDue (.refl s) fun _ => setHpc_head ⟨rfl, rfl, rfl⟩⟩
  | measuredPressureChange c value => exact ⟨_, rfl, ⟨fun within => within.after_measure c value⟩⟩
  -- the arm
  | homeTimeout => exact ⟨_, rfl, event_head fun due => armFault_head _ (run due).1⟩
  | armPositionFault => exact ⟨_, rfl, event_head fun due => armFault_head _ (run due).1⟩
  | diskStall => exact ⟨_, rfl, event_head fun due => armFault_head _ (run due).1⟩
  -- the interlocks, the tool mode and the drives
  | lineLevelChange i high =>
    have set : ∀ u, KeepsHead u (setRaw i high u) := fun _ => .of_frame (by simp)
    exact ⟨_, rfl, ((takeAtOnce_head i s).trans (set _)).trans (takeAtOnce_head i _)⟩
  | debounceExpiry i => exact ⟨_, rfl, event_head fun _ => takeLine_head i s⟩
  | modeDecoded => exact ⟨_, rfl, event_head fun _ => decodeMode_head s⟩
  | driveTrip d =>
    exact ⟨_, rfl, .whenDue (.of_frame ⟨rfl, rfl, rfl, rfl⟩) fun _ => (KeepsHead.fault _ (by simp)).settle⟩
  | driveTripRelease d => exact ⟨_, rfl, .whenDue (.of_frame ⟨rfl, rfl, rfl, rfl⟩) fun _ => .of_frame (by simp)⟩
  | currentSample counts => exact ⟨_, rfl, .whenDue (.of_frame ⟨rfl, rfl, rfl, rfl⟩) fun _ => .of_frame (by simp)⟩
  | modeLinesChange first second => exact ⟨_, rfl, .of_frame (by simp)⟩
  | driveFeedback d tach estimate => exact ⟨_, rfl, .of_frame (by simp)⟩
  | tachPulse d => exact ⟨_, rfl, .of_frame (by simp)⟩
  -- the other events touch neither the head nor SEQ's state, but for what is carried through
  | entryStale | entryRemoved | isolationBegun | derateDecrement | holdOffExpiry | nonOverlapEnd | flushDone
  | postRinseWaitEnd | postRinseDone | flowMismatch | flowRestored | supplyLowRaise | supplyLowClear | tachLost | tachRestored =>
    exact ⟨_, rfl, event_head fun _ => .of_frame (by simp)⟩
  | _ => exact ⟨_, rfl, .whenDue (.refl s) fun _ => .of_frame (by simp)⟩

/-! ### Time -/

/-- A microsecond moves the timers of the channels and of a ramp, not their values (R121, R123, R125). -/
theorem tick_head (s : State) : KeepsHead s (tick s) := by
  unfold tick
  split
  · exact .of_frame ⟨rfl, rfl, rfl, rfl⟩
  · split
    · refine ⟨fun within => within.congr rfl rfl rfl rfl rfl (fun c => ?_) fun r found => ?_⟩
      · rw [State.head, tickHpc, PerHead.get_of]
        exact ⟨rfl, rfl, rfl⟩
      · obtain ⟨r', found', rfl⟩ := Option.map_eq_some_iff.1 found
        exact ⟨r'.timer, found'⟩
    · exact ⟨fun within => within.congr rfl rfl rfl rfl rfl (fun _ => ⟨rfl, rfl, rfl⟩) fun r found => ⟨r.timer, found⟩⟩

theorem idle_head (s : State) : KeepsHead s (idle s) := by
  unfold idle
  split
  · exact tick_head s
  · exact .of_frame ⟨rfl, rfl, rfl, rfl⟩
  · exact .of_frame ⟨rfl, rfl, rfl, rfl⟩

/-- A step, of the queue or of the part's own, keeps the head within its bounds. -/
theorem step_head (h : step s = .next t) : KeepsHead s t := by
  unfold step at h
  split at h
  · next c rest _ =>
    obtain ⟨u, executed, kept⟩ := exec_head c (s.setPending rest)
    obtain rfl : u = t := by simpa [executed] using h
    exact .trans (.of_frame (by simp)) kept
  · obtain rfl : idle s = t := by simpa using h
    exact idle_head s

end

/-- Settles O46: every step keeps the head within its bounds; a ramp's tick, and its end. -/
theorem rampKeepsToTheEnvelope : Obligations.RampKeepsToTheEnvelope := by
  unfold Obligations.RampKeepsToTheEnvelope
  refine ⟨fun s t within stepped => (step_head stepped).within within, fun s r started found => ⟨fun more time => ?_, fun all => ?_⟩⟩
  · refine ⟨rampTick s, exec_rampTick started found more time, ?_, ?_, fun c => ⟨fun ramping => ?_, fun other => ?_⟩,
      fun ramping starts targets => ?_⟩
    · rw [rampTick_eq found]
      rfl
    · rw [rampTick_eq found]
      rfl
    · have head := rampTick_head found c
      rw [if_pos ramping] at head
      rw [head]
      refine ⟨rfl, rampValue_int _ _ _ _ more, fun last => ?_⟩
      rw [last]
      exact rampValue_last _ _ (by omega)
    · rw [rampTick_head found, if_neg other]
    · rw [rampTick_applied found ramping]
      exact .ramp more starts targets
  · exact ⟨rampEnd s, exec_rampEnd started found all, rfl, rfl, rfl, fun c =>
      ⟨fun ramping => by rw [rampEnd_head, if_pos ramping], fun other => by rw [rampEnd_head, if_neg other]⟩⟩

end Sys2Proof.Machine
end

section
/-! Regulation and the sensor readings: O47; overpressure and the air supply: O48. -/

namespace Sys2Proof.Machine

open Sys2Proof

section
variable {s u : State} {c : HeadCh}

/-! ### A fault of the head carried through -/

/-- A fault taken by a started part and carried through leaves the head as it was, or vents it (R87, R122). -/
theorem settle_takeFault_hpc (k : FaultKind) (started : u.started = true) :
    (settle (takeFault k u)).hpc = u.hpc ∨ (settle (takeFault k u)).hpc = (ventHead u).hpc := by
  obtain ⟨running, holding⟩ := takeFault_calm k started
  rw [(settle_calm running holding).2.1]
  exact takeFault_hpc k u

/-- The same, channel by channel. -/
theorem settle_takeFault_head (k : FaultKind) (started : u.started = true) (c : HeadCh) :
    (settle (takeFault k u)).head c = u.head c ∨ (settle (takeFault k u)).head c = (u.head c).vent := by
  rw [← ventHead_head]
  rcases settle_takeFault_hpc k started with hpc | hpc <;> simp [State.head, hpc]

/-- A change of HPC alone leaves what a report of a fault finds outside. -/
theorem setHpc_outside (s : State) (x : Hpc) : OutsideStands s (s.setHpc x) :=
  ⟨rfl, rfl, rfl, rfl, rfl, rfl, rfl, rfl, rfl, rfl, rfl⟩

/-- A fault that HPC reports with a change of its own alone has been reported (R87). -/
theorem hpcFault_reported (k : FaultKind) (started : s.started = true) (x : Hpc) :
    FaultReported k s (settle (takeFault k (s.setHpc x))) :=
  takeFault_reported k started rfl rfl rfl (setHpc_outside s x)

/-! ### Regulation -/

theorem withinTolerance_iff {tol measured applied : Nat} :
    withinTolerance tol measured applied = true ↔ measured ≤ applied + tol ∧ applied ≤ measured + tol := by
  rw [withinTolerance, decide_eq_true_iff, diff]
  omega

theorem PerHead.set_set {α : Type} (v : PerHead α) (i : HeadCh) (x y : α) : (v.set i x).set i y = v.set i y := by cases i <;> rfl

/-- A notice reads nothing of HPC. -/
theorem placeNotice_setHpc (kind : Nat) (body : List Byte) (s : State) (x : Hpc) :
    (placeNotice kind body s).setHpc x = placeNotice kind body (s.setHpc x) := by
  have silent : (s.setHpc x).silent = s.silent := rfl
  unfold placeNotice
  rw [silent, State.setHpc_lnk]
  split
  · rfl
  · split <;> rfl

theorem exec_regulationTimeout (started : s.started = true) (regulating : (s.head c).state = .regulating)
    (time : 1000 * s.img.settleLimit ≤ (s.head c).regTimer) :
    exec (.regulationTimeout c) s = .next (settle (judgeRegulation c s)) := by
  have due : regulationDue c s = true := by
    have time : ms s.img.settleLimit ≤ (s.head c).regTimer := (Nat.mul_comm ..).trans_le time
    simp [regulationDue, regulating, time]
  change execRegulationTimeout c s = _
  rw [execRegulationTimeout, started, due]
  rfl

theorem judgeRegulation_of_low (low : (s.head c).measured + s.img.regTolerance < (s.head c).applied) :
    judgeRegulation c s = takeFault .leak (clearRegTimer c s) := by
  have out : withinTolerance s.img.regTolerance (s.head c).measured (s.head c).applied = false := by
    rw [← Bool.not_eq_true, withinTolerance_iff]
    omega
  have leak : leakNow c s = true := by
    simp only [leakNow, out, Bool.not_false, Bool.true_and, decide_eq_true_iff]
    omega
  exact if_pos leak

theorem judgeRegulation_of_high (high : (s.head c).applied + s.img.regTolerance < (s.head c).measured)
    (unreported : (s.head c).highReported = false) : judgeRegulation c s = clearRegTimer c (reportHigh c s) := by
  have out : withinTolerance s.img.regTolerance (s.head c).measured (s.head c).applied = false := by
    rw [← Bool.not_eq_true, withinTolerance_iff]
    omega
  have tight : leakNow c s = false := by
    simp only [leakNow, out, Bool.not_false, Bool.true_and, decide_eq_false_iff_not]
    omega
  have above : highNow c s = true := by
    simp only [highNow, out, unreported, Bool.not_false, Bool.true_and, Bool.and_true, decide_eq_true_iff]
    omega
  rw [judgeRegulation, tight, above]
  rfl

theorem judgeRegulation_of_quiet (notBelow : (s.head c).applied ≤ (s.head c).measured)
    (quiet : (s.head c).measured ≤ (s.head c).applied + s.img.regTolerance ∨ (s.head c).highReported = true) :
    judgeRegulation c s = clearRegTimer c s := by
  have tight : leakNow c s = false := by simp [leakNow, notBelow]
  have still : highNow c s = false := by
    rcases quiet with near | reported
    · have within : withinTolerance s.img.regTolerance (s.head c).measured (s.head c).applied = true :=
        withinTolerance_iff.2 ⟨near, by omega⟩
      simp [highNow, within]
    · simp [highNow, reported]
  rw [judgeRegulation, tight, still]
  rfl

/-- The notice of a high channel, with its mark set and its timer at 0 (R124). -/
theorem clearRegTimer_reportHigh (c : HeadCh) (s : State) : clearRegTimer c (reportHigh c s) =
    placeNotice 13 (byteOf (numHeadCh c) :: (le2 (s.head c).applied ++ le2 (s.head c).measured))
      { s with hpc := { s.hpc with ch := s.hpc.ch.set c { s.head c with highReported := true, regTimer := 0 } } } := by
  have hpc : (reportHigh c s).hpc = (s.setHead c { s.head c with highReported := true }).hpc := by simp [reportHigh]
  rw [clearRegTimer, State.setHead, State.head, hpc, reportHigh, placeNotice_setHpc]
  simp only [State.setHead, State.setHpc, PerHead.get_set_self, PerHead.set_set]
  rfl

end

/-- Settles O47: the timeout by where the sensor stands, and a reading. -/
theorem regulationIsJudged : Obligations.RegulationIsJudged := by
  unfold Obligations.RegulationIsJudged
  refine fun s c => ⟨fun started regulating time => ?_, fun value => ?_⟩
  · have judged := exec_regulationTimeout started regulating time
    refine ⟨fun low => ?_, fun high unreported => ?_, fun notBelow quiet => ?_⟩
    · rw [judgeRegulation_of_low low] at judged
      have cleared : ((clearRegTimer c s).head c).regTimer = 0 := by simp [clearRegTimer, State.setHead, State.head]
      refine ⟨_, judged, ?_, hpcFault_reported .leak started _⟩
      rcases settle_takeFault_head .leak (u := clearRegTimer c s) started c with head | head
      · rw [head, cleared]
      · rw [head]
        rfl
    · rw [judged, judgeRegulation_of_high high unreported, clearRegTimer_reportHigh]
    · rw [judged, judgeRegulation_of_quiet notBelow quiet]
      rfl
  · intro back
    have near : withinTolerance s.img.regTolerance value (s.head c).applied = decide back := by
      rw [Bool.eq_iff_iff, withinTolerance_iff, decide_eq_true_iff]
    change Host.Outcome.next (measure c value s) = _
    simp only [measure, near, overLimit, decide_eq_true_iff]
    rfl

section
variable {s : State} {c : HeadCh}

/-! ### Overpressure -/

theorem HeadChan.vent_state (h : HeadChan) : h.vent.state = .vented ∨ h.vent.state = .channelFault := by
  unfold HeadChan.vent
  dsimp only
  split
  · exact .inl rfl
  · exact .inr rfl

theorem overpressureVent_head_self (c : HeadCh) (s : State) :
    (overpressureVent c s).head c = { (s.head c).vent with state := .channelFault, overTimer := 0 } := by
  rw [overpressureVent, State.setHead, State.head, State.setHpc_hpc, PerHead.get_set_self, ventHead_head]

theorem overpressureVent_head_other {c x : HeadCh} (other : x ≠ c) (s : State) : (overpressureVent c s).head x = (s.head x).vent := by
  rw [overpressureVent, State.setHead, State.head, State.setHpc_hpc, PerHead.get_set_of_ne _ _ other.symm, ← ventHead_head]
  rfl

/-- What overpressure makes of a channel: nothing applied and no target, and CHANNEL_FAULT in its own channel alone (R122, R125). -/
structure Tripped (c x : HeadCh) (h : HeadChan) : Prop where
  applied : h.applied = 0
  target : h.target = 0
  faulted : x = c → h.state = .channelFault
  rest : h.state = .vented ∨ h.state = .channelFault

theorem overpressureVent_tripped (c x : HeadCh) (s : State) : Tripped c x ((overpressureVent c s).head x) := by
  by_cases own : x = c
  · subst own
    rw [overpressureVent_head_self]
    exact ⟨rfl, rfl, fun _ => rfl, .inr rfl⟩
  · rw [overpressureVent_head_other own]
    exact ⟨rfl, rfl, fun x => absurd x own, HeadChan.vent_state _⟩

/-- A vent of a channel tripped leaves it so (R122). -/
theorem Tripped.vent {c x : HeadCh} {h : HeadChan} (tripped : Tripped c x h) : Tripped c x h.vent :=
  ⟨rfl, rfl, fun own => by simp [HeadChan.vent, HeadChan.sound, tripped.faulted own], h.vent_state⟩

theorem exec_overpressure (started : s.started = true) (sound : (s.head c).state ≠ .channelFault)
    (time : 100000 ≤ (s.head c).overTimer) :
    exec (.overpressure c) s = .next (settle (takeFault .overpressure (overpressureVent c s))) := by
  have due : overDue c s = true := by
    have time : overTime ≤ (s.head c).overTimer := time
    simp [overDue, HeadChan.sound, sound, time]
  change execOverpressure c s = _
  rw [execOverpressure, started, due]
  rfl

/-! ### The air supply -/

theorem exec_supplyAir (started : s.started = true) (time : 50000 ≤ s.hpc.tripTimer)
    (pressed : (s.head c).state = .ramping ∨ (s.head c).state = .regulating) :
    exec .supplyAir s = .next (settle (takeFault .supplyAir (s.setHpc { s.hpc with tripTimer := 0 }))) := by
  have due : airTripDue s = true := by
    have time : airTripTime ≤ s.hpc.tripTimer := time
    have member : s.head c ∈ s.hpc.ch.toList := by cases c <;> simp [PerHead.toList, State.head, PerHead.get]
    have pressed : headPressed s = true := List.any_eq_true.2 ⟨_, member, by simpa using pressed⟩
    simp [airTripDue, time, pressed]
  change execSupplyAir s = _
  rw [execSupplyAir, started, due]
  rfl

end

/-- Settles O48: the channels and the head as the fault is carried through, and the two events of the warning. -/
theorem overpressureAndAirSupply : Obligations.OverpressureAndAirSupply := by
  unfold Obligations.OverpressureAndAirSupply
  refine fun s started => ⟨fun c sound time => ?_, fun time ⟨c, pressed⟩ => ?_, fun armed low => ?_, fun disarmed time => ?_⟩
  · have up : (overpressureVent c s).started = true := by simpa [State.started, State.inReset] using started
    have tripped : ∀ x, Tripped c x ((settle (takeFault .overpressure (overpressureVent c s))).head x) := fun x => by
      rcases settle_takeFault_head .overpressure up x with head | head
      · exact head ▸ overpressureVent_tripped c x s
      · exact head ▸ (overpressureVent_tripped c x s).vent
    refine ⟨_, exec_overpressure started sound time, (tripped c).faulted rfl, fun x => ⟨(tripped x).applied, (tripped x).target, fun _ => ?_⟩,
      ?_, ?_, takeFault_reported .overpressure started (by simp) (by simp) (by simp) (setHpc_outside ..)⟩
    · rcases (tripped x).rest with state | state <;> simp [state]
    · rcases settle_takeFault_hpc .overpressure up with hpc | hpc <;> rw [hpc] <;> rfl
    · rcases settle_takeFault_hpc .overpressure up with hpc | hpc <;> rw [hpc] <;> rfl
  · refine ⟨_, exec_supplyAir started time pressed, ?_, hpcFault_reported .supplyAir started _⟩
    rcases settle_takeFault_hpc .supplyAir (u := s.setHpc { s.hpc with tripTimer := 0 }) started with hpc | hpc <;> rw [hpc] <;> rfl
  · have due : airWarnDue s = true := by simp [airWarnDue, armed, low]
    change execSupplyWarn s = _
    rw [execSupplyWarn, started, due]
    rfl
  · have due : rearmDue s = true := by
      have time : rearmTime ≤ s.hpc.rearmTimer := time
      simp [rearmDue, disarmed, time]
    change execWarnRearm s = _
    rw [execWarnRearm, started, due]
    rfl

end Sys2Proof.Machine
end

section
/-! The arm's own events (R132 to R136): O49; the life counters and their remainders (R139 to R141): O51. -/

namespace Sys2Proof.Machine

open Sys2Proof

section
variable {s : State}

/-! ### When an event of the arm is due -/

theorem nearCommand_iff : nearCommand s = true ↔
    s.pins.armFeedback ≤ s.pcc.radius + 1000000 ∧ s.pcc.radius ≤ s.pins.armFeedback + 1000000 := by
  have one : mmRadius 1 = 1000000 := rfl
  rw [nearCommand, decide_eq_true_iff, diff, one]
  omega

theorem arrivalDue_iff : arrivalDue s = true ↔
    s.pcc.arm = .movingIn ∧ s.pcc.radius = s.pcc.destination ∧ nearCommand s = true := by
  simp [arrivalDue, and_assoc]

theorem parkDue_iff : parkDue s = true ↔ s.pcc.arm = .lifting ∧ s.pcc.radius = 420000000 ∧ nearCommand s = true := by
  have park : parkRadius = 420000000 := rfl
  simp [parkDue, park, and_assoc]

theorem homeDue_iff : homeDue s = true ↔ s.pcc.arm = .parked ∧ s.pcc.search.isSome = true ∧ s.pins.homeSwitch = true := by
  simp [homeDue, and_assoc]

/-- The bound of the present segment in the arm's direction is reached (R134). -/
def boundReached (s : State) : Prop :=
  match s.pcc.direction with
  | .outward => outerOf s.pcc.segments s.pcc.segment ≤ s.pcc.radius
  | .inward => s.pcc.radius ≤ innerOf s.pcc.segments s.pcc.segment

theorem boundReached_of_outward (direction : s.pcc.direction = .outward) :
    boundReached s ↔ outerOf s.pcc.segments s.pcc.segment ≤ s.pcc.radius := by
  rw [boundReached, direction]

theorem boundReached_of_inward (direction : s.pcc.direction = .inward) :
    boundReached s ↔ s.pcc.radius ≤ innerOf s.pcc.segments s.pcc.segment := by
  rw [boundReached, direction]

theorem boundaryDue_iff : boundaryDue s = true ↔
    s.pcc.arm = .sweeping ∧ 40000000 < lastOuter s.pcc.segments ∧ boundReached s := by
  have inner : innerRadius = 40000000 := rfl
  unfold boundaryDue boundReached
  cases s.pcc.direction <;> simp [inner, and_assoc]

/-! ### What it does -/

theorem arrive_eq {st : StepRec} (now : s.stepNow = some st) :
    arrive s = s.setPcc { s.pcc with
      arm := .sweeping, downforce := min st.downforce s.img.maxDownforce, resume := none, stallTimer := 0
      direction := if 40000000 < lastOuter s.pcc.segments then s.pcc.direction else .outward } := by
  have downforce : appliedDownforce s = min st.downforce s.img.maxDownforce := by rw [appliedDownforce, now]; rfl
  rw [arrive, downforce]
  rfl

theorem crossBoundary_of_outward (direction : s.pcc.direction = .outward) :
    crossBoundary s = s.setPcc (if s.pcc.segment < s.pcc.segments.length
      then { s.pcc with segment := s.pcc.segment + 1 } else { s.pcc with direction := .inward }) := by
  rw [crossBoundary, direction, apply_ite s.setPcc]

theorem crossBoundary_of_inward (direction : s.pcc.direction = .inward) :
    crossBoundary s = s.setPcc (if s.pcc.radius ≤ 40000000
      then { s.pcc with direction := .outward, segment := firstAboveInner s.pcc.segments }
      else { s.pcc with segment := s.pcc.segment - 1 }) := by
  rw [crossBoundary, direction, apply_ite s.setPcc]
  rfl

/-- A boundary that the sweeping arm has reached is crossed (R134). -/
theorem exec_segmentBoundary_of_reached (started : s.started = true) (sweeping : s.pcc.arm = .sweeping)
    (span : 40000000 < lastOuter s.pcc.segments) (reached : boundReached s) :
    exec .segmentBoundary s = .next (crossBoundary s) := by
  change execSegmentBoundary s = _
  rw [execSegmentBoundary, started, boundaryDue_iff.2 ⟨sweeping, span, reached⟩]
  rfl

/-- A span of no width has no boundary (R134). -/
theorem exec_segmentBoundary_of_noWidth (narrow : lastOuter s.pcc.segments ≤ 40000000) :
    exec .segmentBoundary s = .next s := by
  have idle : boundaryDue s = false :=
    Bool.eq_false_iff.2 fun due => absurd (boundaryDue_iff.1 due).2.1 (by omega)
  change execSegmentBoundary s = _
  rw [execSegmentBoundary, idle, Bool.and_false]
  rfl

end

/-- Settles O49: arrival, the profile without a boundary, park, home, and a boundary by the direction in which it is met. -/
theorem armMovesThroughItsSweep : Obligations.ArmMovesThroughItsSweep := by
  unfold Obligations.ArmMovesThroughItsSweep
  intro s started
  refine ⟨fun arm there near st now => ?_, fun _ narrow => exec_segmentBoundary_of_noWidth narrow, fun arm there near => ?_,
    fun arm search switch => ?_, fun arm span => ⟨fun direction reached => ?_, fun direction reached => ?_⟩⟩
  · change execArmArrival s = _
    rw [execArmArrival, started, arrivalDue_iff.2 ⟨arm, there, nearCommand_iff.2 near⟩, Bool.and_self, whenDue_true, arrive_eq now]
    rfl
  · change execArmParked s = _
    rw [execArmParked, started, parkDue_iff.2 ⟨arm, there, nearCommand_iff.2 near⟩]
    rfl
  · change execHomeFound s = _
    rw [execHomeFound, started, homeDue_iff.2 ⟨arm, search, switch⟩]
    rfl
  · rw [exec_segmentBoundary_of_reached started arm span ((boundReached_of_outward direction).2 reached),
      crossBoundary_of_outward direction]
    rfl
  · rw [exec_segmentBoundary_of_reached started arm span ((boundReached_of_inward direction).2 reached),
      crossBoundary_of_inward direction]
    rfl

section
variable {s : State}

/-! ### A microsecond of the remainders -/

/-- A microsecond of SWEEPING adds the applied downforce (R139, log entry 2). -/
theorem tickPcc_diskRemainder (s : State) : (tickPcc s).diskRemainder =
    s.pcc.diskRemainder + (if s.pcc.arm = .sweeping then s.pcc.downforce else 0) :=
  (apply_ite (s.pcc.diskRemainder + ·) (s.pcc.arm = .sweeping) s.pcc.downforce 0).symm

/-- A microsecond under wafer pressure adds 1 (R140, log entries 2 and 38). -/
theorem tickPcc_padRemainder (s : State) :
    (tickPcc s).padRemainder = s.pcc.padRemainder + (if padCounts s = true then 1 else 0) :=
  (apply_ite (s.pcc.padRemainder + ·) (padCounts s = true) 1 0).symm

/-- Time passes on an empty queue when nothing is due. -/
theorem step_of_quiet (empty : s.pending = []) (quiet : dueList s = []) : step s = .next (tick s) := by
  rw [step_of_empty empty, idle, quiet]

theorem tick_pcc_of_started (started : s.started = true) : (tick s).pcc = tickPcc s := by
  rw [tick_of_started started]

/-! ### The rise of a counter -/

/-- A rise warns from 90 % of the limit on, once, and not at the largest value, where the counter no longer rises (R141). -/
theorem warns_eq (warned : Bool) (old new limit : Nat) : (!warned && decide (old < new) && atWarning new limit) =
    decide (warned = false ∧ old < new ∧ limit * 9 ≤ new * 10) := by
  rw [Bool.eq_iff_iff]
  simp [atWarning, and_assoc]

theorem exec_diskLifeIncrement (started : s.started = true) (full : 1000000 ≤ s.pcc.diskRemainder) :
    exec .diskLifeIncrement s = .next (diskIncrement s) := by
  change execDiskLifeIncrement s = _
  rw [execDiskLifeIncrement, started, show diskDue s = true from decide_eq_true full]
  rfl

theorem exec_padLifeIncrement (started : s.started = true) (full : 1000000 ≤ s.pcc.padRemainder) :
    exec .padLifeIncrement s = .next (padIncrement s) := by
  change execPadLifeIncrement s = _
  rw [execPadLifeIncrement, started, show padDue s = true from decide_eq_true full]
  rfl

end

/-- Settles O51: a microsecond of the remainders, then the rise of the disk's counter and of the pad's. -/
theorem lifeCountersRise : Obligations.LifeCountersRise := by
  unfold Obligations.LifeCountersRise
  refine fun s started => ⟨fun empty quiet => ?_, fun full => ?_, fun full => ?_⟩
  · refine ⟨tick s, step_of_quiet empty quiet, ?_⟩
    rw [tick_pcc_of_started started]
    exact ⟨rfl, rfl, tickPcc_diskRemainder s, tickPcc_padRemainder s⟩
  · rw [exec_diskLifeIncrement started full]
    simp only [diskIncrement, warns_eq, decide_eq_true_iff]
    rfl
  · rw [exec_padLifeIncrement started full]
    simp only [padIncrement, warns_eq, decide_eq_true_iff]
    rfl

end Sys2Proof.Machine
end

section
/-! Orders that LNK does not take, and orders in LOCKOUT (R171, R180, R184, R202): O20. -/

namespace Sys2Proof.Machine

open Sys2Proof

section
variable {s : State} {m : OrderMeta}

/-! ### Orders not taken -/

/-- What keeps LNK from taking an ORDER (R180, R184, R202). -/
theorem takesOrder_eq_false
    (bars : s.started = false ∨ s.cfg.startUp = .listen ∨ m.source ≠ s.img.cmdNode ∨ s.cfg.restartPending = true ∨
      (m.toAll = false ∧ s.cfg.startUp ≠ .duplicateNode ∧ 4 ≤ s.lnk.answers.length)) : takesOrder m s = false := by
  rcases bars with off | early | stranger | pending | ⟨addressed, answering, full⟩
  · simp [takesOrder, off]
  · simp [takesOrder, early]
  · simp [takesOrder, stranger]
  · simp [takesOrder, pending]
  · simp [takesOrder, addressed, answering, full]

/-- An order that its owner serves changes nothing where LNK does not take it. -/
theorem exec_dropped {c : Instr} {owner : State → Reply} (dropped : takesOrder m s = false)
    (served : exec c s = .next (serve m owner s)) : exec c s = .next s :=
  served.trans (congrArg _ (serve_dropped dropped owner))

/-- A payload that LNK does not take changes nothing, whatever it reads as (R184). -/
theorem takeOrder_dropped (dropped : takesOrder m s = false) (payload : List Byte) : takeOrder m payload s = s := by
  unfold takeOrder
  split
  · exact serve_dropped dropped _
  · exact serve_dropped dropped _
  · exact serve_dropped dropped _

/-! ### Orders in LOCKOUT -/

/-- An owner whose first check is the tool mode answers MODE in LOCKOUT (R171). -/
theorem exec_locked_out {c : Instr} {owner : State → Reply} (takes : takesOrder m s = true)
    (served : exec c s = .next (serve m owner s)) (mode : owner s = .bare s .mode) : exec c s = .next (answered m 11 [] s) :=
  refused_of_reply (code := .mode) served takes mode

end

/-- Settles O20: each order not taken, then each that LOCKOUT refuses. -/
theorem ordersTurnedAway : Obligations.OrdersTurnedAway := by
  unfold Obligations.OrdersTurnedAway
  refine ⟨fun s m n i k data mask bars c order => ?_, fun s m n i data takes lockout => ⟨fun c order => ?_, fun long => ?_, fun long => ?_,
    fun long => ?_, ?_⟩⟩
  · have dropped := takesOrder_eq_false bars
    fin_cases order
    · exact congrArg _ (takeOrder_dropped dropped data)
    all_goals exact exec_dropped dropped rfl
  · fin_cases order
    all_goals exact exec_locked_out takes rfl (if_pos lockout)
  · exact exec_locked_out takes (writeHeader_checks long) (if_pos lockout)
  · exact exec_locked_out takes (writeStep_checks long) (if_pos lockout)
  · exact exec_locked_out takes (writeProfile_checks long) (if_pos lockout)
  · have mode : orderResume s = ⟨s, .mode, [byteOf (bitSet s.seq.causes.bits)]⟩ := if_pos lockout
    exact congrArg _ (serve_of takes mode rfl)

end Sys2Proof.Machine
end

section
/-! The drives: ramps, at speed, tach pulses and feedback readings (R172 to R174): O55. -/

namespace Sys2Proof.Machine

open Sys2Proof

/-! ### A drive replaced -/

theorem PerDrive.set_get_self {α : Type} (v : PerDrive α) (i : Drive) : v.set i (v.get i) = v := by cases i <;> rfl

theorem PerDrive.set_set {α : Type} (v : PerDrive α) (i : Drive) (x y : α) : (v.set i x).set i y = v.set i y := by cases i <;> rfl

theorem State.drive_setDrive_self (s : State) (d : Drive) (x : DriveState) : (s.setDrive d x).drive d = x := PerDrive.get_set_self ..

theorem State.drive_setDrive_of_ne (s : State) {d e : Drive} (x : DriveState) (other : e ≠ d) : (s.setDrive d x).drive e = s.drive e :=
  PerDrive.get_set_of_ne _ _ other.symm

theorem State.setDrive_drive (s : State) (d : Drive) : s.setDrive d (s.drive d) = s := by
  rw [State.setDrive, State.drive, PerDrive.set_get_self]
  rfl

theorem State.setDrive_setDrive (s : State) (d : Drive) (x y : DriveState) : (s.setDrive d x).setDrive d y = s.setDrive d y := by
  simp only [State.setDrive, State.setDrv_drv, PerDrive.set_set]
  rfl

section
variable {s : State} {d : Drive}

/-! ### At speed -/

theorem feedback_eq (s : State) (d : Drive) :
    feedback s d = if (s.drive d).source = .tach then s.pins.tachSpeed.get d else s.pins.estimate.get d := by
  unfold feedback
  cases (s.drive d).source <;> rfl

/-- The at-speed timer runs at a steady command with its feedback near it (R173, R175). -/
theorem speedRuns_eq (s : State) (d : Drive) : speedRuns s d =
    (((s.drive d).command == (s.drive d).setpoint && !s.pins.trip.get d) && speedNear (feedback s d) (s.drive d).command) :=
  Bool.and_right_comm ..

/-- A drive judged: off speed with its timer at 0 where its at-speed timer does not run (R173). -/
def DriveState.judged (x : DriveState) (runs : Bool) : DriveState :=
  { x with atSpeed := x.atSpeed && runs, atSpeedTimer := if runs then x.atSpeedTimer else 0 }

theorem DriveState.judged_true (x : DriveState) : x.judged true = x := by simp [DriveState.judged]

theorem judgeSpeed_eq (d : Drive) (s : State) : judgeSpeed d s = s.setDrive d ((s.drive d).judged (speedRuns s d)) := by
  unfold judgeSpeed
  cases speedRuns s d
  · simp [DriveState.judged]
  · exact (DriveState.judged_true (s.drive d) ▸ State.setDrive_drive s d).symm

/-- A judgement reads of the drive its command, its setpoint and its source alone. -/
theorem speedRuns_setDrive {x : DriveState} (command : x.command = (s.drive d).command) (setpoint : x.setpoint = (s.drive d).setpoint)
    (source : x.source = (s.drive d).source) : speedRuns (s.setDrive d x) d = speedRuns s d := by
  simp only [speedRuns, feedback, State.drive_setDrive_self, command, setpoint, source, State.setDrive_keeps]

/-- A drive replaced without touching what a judgement reads, and judged. -/
theorem judgeSpeed_setDrive {x : DriveState} (command : x.command = (s.drive d).command) (setpoint : x.setpoint = (s.drive d).setpoint)
    (source : x.source = (s.drive d).source) : judgeSpeed d (s.setDrive d x) = s.setDrive d (x.judged (speedRuns s d)) := by
  rw [judgeSpeed_eq, State.setDrive_setDrive, State.drive_setDrive_self, speedRuns_setDrive command setpoint source]

theorem exec_atSpeed (started : s.started = true) (runs : speedRuns s d = true) (off : (s.drive d).atSpeed = false)
    (time : 1000000 ≤ (s.drive d).atSpeedTimer) : exec (.atSpeed d) s = .next (reachSpeed d s) := by
  have due : (s.started && atSpeedDue d s) = true := by
    have time : atSpeedTime ≤ (s.drive d).atSpeedTimer := time
    simp [started, atSpeedDue, runs, off, time]
  exact congrArg Host.Outcome.next (if_pos due)

/-! ### The end of a ramp, and a reading -/

theorem exec_driveCommandAtSetpoint (started : s.started = true) (ramping : (s.drive d).ramp.isSome = true)
    (arrived : (s.drive d).command = (s.drive d).setpoint) : exec (.driveCommandAtSetpoint d) s =
      .next (s.setDrive d (({ s.drive d with ramp := none } : DriveState).judged (speedRuns s d))) := by
  have due : (s.started && rampDoneDue d s) = true := by simp [started, rampDoneDue, ramping, arrived]
  exact (congrArg Host.Outcome.next (if_pos due)).trans (congrArg _ (judgeSpeed_setDrive rfl rfl rfl))

/-- The inputs after a reading of a drive's two speeds. -/
def withReading (d : Drive) (tach estimate : Nat) (s : State) : State :=
  s.setPins { s.pins with tachSpeed := s.pins.tachSpeed.set d tach, estimate := s.pins.estimate.set d estimate }

/-- A reading of a drive's two speeds: the agreement and the at-speed timer are judged on it (R173, R174). -/
theorem takeFeedback_eq (d : Drive) (tach estimate : Nat) (s : State) :
    takeFeedback d tach estimate s = (withReading d tach estimate s).setDrive d
      (({ s.drive d with agreement := if tachAgrees tach estimate then (s.drive d).agreement else 0 } : DriveState).judged
        (speedRuns (withReading d tach estimate s) d)) := by
  have agreed : takeFeedback d tach estimate s = judgeSpeed d ((withReading d tach estimate s).setDrive d
      { s.drive d with agreement := if tachAgrees tach estimate then (s.drive d).agreement else 0 }) := by
    refine congrArg (judgeSpeed d) ?_
    cases tachAgrees tach estimate
    · rfl
    · exact (State.setDrive_drive (withReading d tach estimate s) d).symm
  rw [agreed]
  exact judgeSpeed_setDrive rfl rfl rfl

/-! ### Ramps -/

theorem DriveState.take_of_eq {x : DriveState} {setpoint : Nat} (same : x.setpoint = setpoint) : x.take setpoint = x := if_pos same

theorem DriveState.take_of_ne {x : DriveState} {setpoint : Nat} (new : x.setpoint ≠ setpoint) : x.take setpoint = { x with
    setpoint := setpoint, ramp := if x.command = setpoint then none else some (x.command, 0)
    atSpeed := false, atSpeedTimer := 0 } := if_neg new

/-- An idle microsecond of a started part moves each drive by its tick. -/
theorem step_idle_drive (started : s.started = true) (empty : s.pending = []) (none_due : dueList s = []) :
    ∃ t, step s = .next t ∧ ∀ d, t.drive d = tickDrive s d := by
  refine ⟨tick s, ?_, fun d => ?_⟩
  · rw [step_of_empty empty, idle, none_due]
  · rw [tick_of_started started]
    exact PerDrive.get_of ..

theorem tickDrive_motion (s : State) (d : Drive) :
    let moved := (s.drive d).move (s.img.acceleration.get d) (s.pins.trip.get d)
    (tickDrive s d).setpoint = moved.setpoint ∧ (tickDrive s d).command = moved.command ∧ (tickDrive s d).ramp = moved.ramp :=
  ⟨rfl, rfl, rfl⟩

theorem DriveState.move_setpoint (x : DriveState) (a : Nat) (trip : Bool) : (x.move a trip).setpoint = x.setpoint := by
  unfold DriveState.move
  split
  · rfl
  · split <;> rfl

theorem DriveState.move_of_trip (x : DriveState) (a : Nat) : (x.move a true).command = 0 := rfl

theorem DriveState.move_of_steady {x : DriveState} (steady : x.ramp = none) (a : Nat) : x.move a false = x := by
  simp [DriveState.move, steady]

theorem DriveState.move_of_ramp {x : DriveState} {start n : Nat} (ramping : x.ramp = some (start, n)) (a : Nat) :
    x.move a false = { x with ramp := some (start, n + 1), command := rampCommand start x.setpoint a (n + 1) } := by
  simp [DriveState.move, ramping]

theorem rampCommand_up {start setpoint : Nat} (up : start ≤ setpoint) (a t : Nat) :
    rampCommand start setpoint a t = min setpoint (start + a * t / 1000000) := if_pos up

theorem rampCommand_down {start setpoint : Nat} (down : setpoint < start) (a t : Nat) :
    rampCommand start setpoint a t = max setpoint (start - a * t / 1000000) := if_neg (Nat.not_le_of_lt down)

end

/-- Settles O55: a setpoint taken, an idle microsecond, a pulse, at speed, the end of a ramp, a reading. -/
theorem drivesReachTheirSpeed : Obligations.DrivesReachTheirSpeed := by
  unfold Obligations.DrivesReachTheirSpeed
  intro s d
  dsimp only
  refine ⟨fun x setpoint => ⟨DriveState.take_of_eq, DriveState.take_of_ne⟩, fun started empty none_due => ?_, rfl,
    fun started steady near off time => ?_, fun started ramping arrived => ?_, fun tach estimate => ?_⟩
  · obtain ⟨t, stepped, drives⟩ := step_idle_drive started empty none_due
    obtain ⟨setpoint, command, ramp⟩ := tickDrive_motion s d
    rw [← drives d] at setpoint command ramp
    refine ⟨t, stepped, setpoint.trans (DriveState.move_setpoint ..), fun trip => ?_, fun free => ⟨fun steady => ?_, fun a n ramping => ?_⟩⟩
    · rw [command, trip, DriveState.move_of_trip]
    · rw [command, ramp, free, DriveState.move_of_steady steady]
      exact ⟨rfl, steady⟩
    · rw [command, ramp, free, DriveState.move_of_ramp ramping]
      exact ⟨rfl, fun up => rampCommand_up up .., fun down => rampCommand_down down ..⟩
  · rw [← feedback_eq] at near
    have runs : speedRuns s d = true := by
      rw [speedRuns_eq, steady, Bool.true_and]
      exact near
    exact exec_atSpeed started runs off time
  · rw [exec_driveCommandAtSetpoint started ramping arrived, speedRuns_eq, feedback_eq]
    rfl
  · refine congrArg Host.Outcome.next ((takeFeedback_eq d tach estimate s).trans ?_)
    rw [speedRuns_eq, feedback_eq]
    simp only [withReading, State.setPins_pins, PerDrive.get_set_self, tachAgrees, Bool.or_eq_true, decide_eq_true_iff]
    rfl

end Sys2Proof.Machine
end

section
/-! The fallback of a drive to its estimate and its return, and the TACH_FALLBACK flag of the step (R89, R173, R174). -/

namespace Sys2Proof.Machine

open Sys2Proof

/-! ### A notice and the block it was placed over -/

/-- A notice changes LNK alone. -/
theorem placeNotice_alone (kind : Nat) (body : List Byte) (s : State) :
    placeNotice kind body s = s.setLnk (placeNotice kind body s).lnk := by
  unfold placeNotice
  split
  · rfl
  · split <;> rfl

/-- Placed over a state with the same LNK and CFG, a notice leaves the same LNK. -/
theorem placeNotice_over {s s' : State} (lnk : s'.lnk = s.lnk) (cfg : s'.cfg = s.cfg) (kind : Nat) (body : List Byte) :
    placeNotice kind body s' = s'.setLnk (placeNotice kind body s).lnk := by
  rw [placeNotice_alone, placeNotice_lnk_congr lnk cfg]

theorem placeNotice_setDrv (kind : Nat) (body : List Byte) (s : State) (x : Drv) :
    placeNotice kind body (s.setDrv x) = (placeNotice kind body s).setDrv x := by
  rw [placeNotice_over (s' := s.setDrv x) (s := s) rfl rfl, placeNotice_alone kind body s]
  rfl

theorem placeNotice_setSeq (kind : Nat) (body : List Byte) (s : State) (x : Seq) :
    placeNotice kind body (s.setSeq x) = (placeNotice kind body s).setSeq x := by
  rw [placeNotice_over (s' := s.setSeq x) (s := s) rfl rfl, placeNotice_alone kind body s]
  rfl

/-! ### TACH_FALLBACK as a change is carried through -/

section
variable {s : State} {d : Drive}

/-- In RUNNING the flag joins the TACH_LOST event, and outside RUNNING it stands (R89, R174). -/
theorem markFlags_tachFallback (flagged : s.seq.flags.tachFallback = true ∨ (s.seq.state = .running ∧ s.drv.tachLost = true)) :
    (markFlags s).seq.flags.tachFallback = true := by
  by_cases running : s.seq.state = .running
  · rcases flagged with flagged | ⟨-, lost⟩
    · simp [markFlags, running, flagged]
    · simp [markFlags, running, lost]
  · rw [markFlags_of_ne_running running]
    exact flagged.elim id fun lost => absurd lost.1 running

theorem carry_tachFallback (flagged : s.seq.flags.tachFallback = true ∨ (s.seq.state = .running ∧ s.drv.tachLost = true)) :
    (carry s).seq.flags.tachFallback = true := markFlags_tachFallback (by simpa using flagged)

/-- SEQ is RUNNING, or it is held for a SHARE whose condition holds: where the rounds of a change carried through in RUNNING stand. -/
def RunsOrShared (s : State) : Prop :=
  s.seq.state = .running ∨ (s.seq.state = .holding ∧ s.seq.causes.share = true ∧ s.sdu.share = true)

/-- SDU's reports taken there leave the step's flags. -/
theorem takeReports_flags (stage : RunsOrShared s) : (takeReports s).seq.flags = s.seq.flags := by
  rcases stage with running | ⟨holding, cause, share⟩
  · simp only [takeReports, running]
    split
    · simp
    · rfl
  · rw [takeReports_of_shared holding cause share]
    rfl

/-- The first round of a change carried through in RUNNING leaves the second there (R50, R76). -/
theorem round_runsOrShared (running : s.seq.state = .running) : RunsOrShared (carry (takeReports (carry s))) := by
  have running' : (carry s).seq.state = .running := by simpa using running
  by_cases share : (carry s).sdu.share = true
  · have taken : takeReports (carry s) = enterHolding .running ((carry s).seq.causes.add .share) (carry s) := by
      simp only [takeReports, running', share, if_true]
    have holding : (takeReports (carry s)).seq.state = .holding := by rw [taken, enterHolding_seq]
    have cause : (takeReports (carry s)).seq.causes.share = true := by
      rw [taken, enterHolding_seq]
      rfl
    have seq := carry_seq_of_ne_running (s := takeReports (carry s)) (by simp [holding])
    refine .inr ⟨by rw [seq, holding], by rw [seq, cause], share_stays share ?_ ?_ holding ?_ ?_⟩
    all_goals simp [taken, State.stepNow]
  · have taken : takeReports (carry s) = carry s := by simp only [takeReports, running', share, if_false, Bool.false_eq_true]
    exact .inl (by simpa [taken] using running)

/-- A TACH_LOST that stands in RUNNING flags the step as it is carried through (R89, R174). -/
theorem settle_tachFallback (started : s.started = true) (running : s.seq.state = .running) (lost : s.drv.tachLost = true) :
    (settle s).seq.flags.tachFallback = true := by
  have first : (takeReports (carry s)).seq.flags.tachFallback = true := by
    rw [takeReports_flags (.inl (by simpa using running))]
    exact carry_tachFallback (.inr ⟨running, lost⟩)
  have second : (takeReports (carry (takeReports (carry s)))).seq.flags.tachFallback = true := by
    rw [takeReports_flags (round_runsOrShared running)]
    exact carry_tachFallback (.inl first)
  rw [settle, if_pos started]
  simpa [judgePersist, apply_ite State.seq] using carry_tachFallback (.inl second)

/-! ### A change of source -/

/-- What a change of a drive's source to `x`, with its notice placed, makes of the part: the drive is `x` but for its at-speed judgement, TACH_LOST
is `lost`, and all else stands (R174). -/
structure SourceChanged (d : Drive) (x : DriveState) (lost : Bool) (noticed u : State) : Prop where
  tachLost : u.drv.tachLost = lost
  drive : u.drive d = { x with atSpeed := (u.drive d).atSpeed, atSpeedTimer := (u.drive d).atSpeedTimer }
  others : ∀ e, e ≠ d → u.drive e = noticed.drive e
  alone : u = { noticed with drv := u.drv }

theorem judgeSpeed_sourceChanged (d : Drive) (x : DriveState) (lost : Bool) (kind : Nat) (body : List Byte) (s : State) :
    SourceChanged d x lost (placeNotice kind body s)
      (judgeSpeed d (placeNotice kind body (s.setDrv { drive := s.drv.drive.set d x, tachLost := lost }))) := by
  rw [placeNotice_setDrv, judgeSpeed_eq]
  have drive : ((placeNotice kind body s).setDrv { drive := s.drv.drive.set d x, tachLost := lost }).drive d = x := PerDrive.get_set_self ..
  refine ⟨rfl, ?_, fun e other => ?_, rfl⟩
  · rw [State.drive_setDrive_self, drive]
    rfl
  · rw [State.drive_setDrive_of_ne _ _ other]
    simp [State.drive, PerDrive.get_set_of_ne _ _ other.symm]

theorem loseTach_sourceChanged (d : Drive) (s : State) :
    SourceChanged d { s.drive d with source := .estimate, tachLoss := 0, agreement := 0 } true
      (placeNotice 20 (byteOf (numDrive d) :: (le2 (s.drive d).command ++ le2 (s.pins.estimate.get d))) s) (loseTach d s) := by
  have changed := judgeSpeed_sourceChanged d { s.drive d with source := .estimate, tachLoss := 0, agreement := 0 } true 20
    (byteOf (numDrive d) :: (le2 (s.drive d).command ++ le2 (s.pins.estimate.get d))) s
  cases d <;> exact changed

theorem restoreTach_sourceChanged (d : Drive) (s : State) :
    SourceChanged d { s.drive d with source := .tach, tachLoss := 0, agreement := 0 } s.drv.tachLost
      (placeNotice 21 [byteOf (numDrive d)] s) (restoreTach d s) :=
  judgeSpeed_sourceChanged ..

end

end Sys2Proof.Machine
end

section
/-! The trip inputs (R175, R176), and O56. -/

namespace Sys2Proof.Machine

open Sys2Proof

section
variable {s : State} {d : Drive}

/-! ### A drive under its trip -/

/-- A drive that a trip holds: no command, no ramp, not at speed, its tach-loss timer at 0 (R174, R175). -/
structure DriveState.Held (x : DriveState) : Prop where
  command : x.command = 0
  ramp : x.ramp = none
  atSpeed : x.atSpeed = false
  tachLoss : x.tachLoss = 0

theorem holdTripped_held (d : Drive) (s : State) : ((holdTripped d s).drive d).Held := by
  rw [holdTripped, State.drive_setDrive_self]
  exact ⟨rfl, rfl, rfl, rfl⟩

/-- A setpoint of 0 starts no ramp of a drive that a trip holds (R172). -/
theorem DriveState.Held.take_zero {x : DriveState} (held : x.Held) : (x.take 0).Held := by
  by_cases same : x.setpoint = 0
  · rwa [DriveState.take_of_eq same]
  · rw [DriveState.take_of_ne same, if_pos held.command]
    exact ⟨held.command, rfl, rfl, held.tachLoss⟩

/-- A fault leaves the drives as they are or commands both to 0 (R87). -/
theorem takeFault_drv (k : FaultKind) (s : State) : (takeFault k s).drv = s.drv ∨ (takeFault k s).drv = (stopDrives s).drv := by
  unfold takeFault
  split
  · cases state : s.seq.state <;> simp [enterRest, enterAborting, stopDrives]
  · exact .inl rfl

/-- A change of a drive alone leaves what a report of a fault finds outside. -/
theorem setDrive_outside (s : State) (d : Drive) (x : DriveState) : OutsideStands s (s.setDrive d x) :=
  ⟨rfl, rfl, rfl, rfl, rfl, rfl, rfl, rfl, rfl, rfl, rfl⟩

/-- The fault of a trip, carried through, leaves the drive held (R175). -/
theorem settle_takeFault_held (k : FaultKind) (started : s.started = true) (held : (s.drive d).Held) :
    ((settle (takeFault k s)).drive d).Held := by
  obtain ⟨running, holding⟩ := takeFault_calm k started
  obtain ⟨-, -, -, -, drv, -⟩ := settle_calm running holding
  rw [State.drive, drv]
  rcases takeFault_drv k s with same | stopped
  · rwa [same]
  · rw [stopped, stopDrives, State.setDrv_drv, PerDrive.get_map]
    exact held.take_zero

/-! ### The events -/

theorem exec_tachLost_of_slow (slow : (s.drive d).command < 5) : exec (.tachLost d) s = .next s := by
  have due : (s.started && tachLostDue d s) = false := by simp [tachLostDue, Nat.not_le_of_lt slow]
  exact congrArg Host.Outcome.next (if_neg (by simp [due]))

theorem exec_tachLost (started : s.started = true) (source : (s.drive d).source = .tach) (fast : 5 ≤ (s.drive d).command)
    (time : 500000 ≤ (s.drive d).tachLoss) : exec (.tachLost d) s = .next (settle (loseTach d s)) := by
  have due : (s.started && tachLostDue d s) = true := by
    have time : tachLossTime ≤ (s.drive d).tachLoss := time
    simp [started, tachLostDue, source, fast, time]
  exact congrArg Host.Outcome.next (if_pos due)

theorem exec_tachRestored (started : s.started = true) (source : (s.drive d).source = .estimate)
    (time : 2000000 ≤ (s.drive d).agreement) : exec (.tachRestored d) s = .next (settle (restoreTach d s)) := by
  have due : (s.started && tachRestoredDue d s) = true := by
    have time : agreementTime ≤ (s.drive d).agreement := time
    simp [started, tachRestoredDue, source, time]
  exact congrArg Host.Outcome.next (if_pos due)

theorem exec_driveTrip (started : s.started = true) (free : s.pins.trip.get d = false) :
    exec (.driveTrip d) s = .next (settle (takeFault .driveTrip (holdTripped d (setTrip d true s)))) :=
  congrArg Host.Outcome.next (if_pos (by simp [started, free]))

theorem exec_driveTripRelease (started : s.started = true) (tripped : s.pins.trip.get d = true) :
    exec (.driveTripRelease d) s = .next (releaseTrip d (setTrip d false s)) :=
  congrArg Host.Outcome.next (if_pos (by simp [started, tripped]))

/-- Before the image is in force a trip input changes alone (R176). -/
theorem exec_driveTrip_of_not_started (off : s.started = false) :
    exec (.driveTrip d) s = .next (setTrip d true s) ∧ exec (.driveTripRelease d) s = .next (setTrip d false s) :=
  ⟨congrArg Host.Outcome.next (if_neg (by simp [off])), congrArg Host.Outcome.next (if_neg (by simp [off]))⟩

end

/-- Settles O56: a tach lost and restored, a trip and its release. -/
theorem tachFallbackAndTrips : Obligations.TachFallbackAndTrips := by
  unfold Obligations.TachFallbackAndTrips
  refine fun s d => ⟨exec_tachLost_of_slow, fun started source fast time => ?_, fun started source time => ?_, fun free => ⟨fun started => ?_,
    fun off => (exec_driveTrip_of_not_started off).1⟩, fun tripped => ⟨exec_driveTripRelease (tripped := tripped),
    fun off => (exec_driveTrip_of_not_started off).2⟩⟩
  · have changed := loseTach_sourceChanged d s
    have seq : (loseTach d s).seq = s.seq := by rw [changed.alone]; simp
    have started' : (loseTach d s).started = true := by rw [changed.alone]; simpa [State.started, State.inReset] using started
    refine ⟨_, exec_tachLost started source fast time, changed.tachLost, changed.drive, fun x other => ?_, changed.alone,
      fun running => settle_tachFallback started' (by rw [seq, running]) changed.tachLost⟩
    rw [changed.others x other]
    simp [State.drive]
  · have changed := restoreTach_sourceChanged d s
    refine ⟨_, exec_tachRestored started source time, changed.tachLost, changed.drive, fun x other => ?_, changed.alone⟩
    rw [changed.others x other]
    simp [State.drive]
  · have held := settle_takeFault_held .driveTrip (s := holdTripped d (setTrip d true s)) started (holdTripped_held d _)
    exact ⟨_, exec_driveTrip started free, held.command, held.ramp, held.atSpeed, held.tachLoss,
      takeFault_reported .driveTrip started rfl rfl rfl (setDrive_outside ..)⟩

end Sys2Proof.Machine
end

section
/-! A hold, and a fault with its STOP, behind the notice of the event that brings them (R77, R79, R85, R87, R166, R167). -/

namespace Sys2Proof.Machine

open Sys2Proof

/-! ### A hold behind a notice -/

/-- A step has been held for a cause (R77): HOLDING with the cause in its set and the state it left as resume target; the step, its times, its dose
and its drives stand. -/
structure StepHeld (c : Cause) (target : ResumeTarget) (s t : State) : Prop where
  state : t.seq.state = .holding
  cause : t.seq.causes.has c = true
  resume : t.seq.resume = some target
  index : t.seq.index = s.seq.index
  elapsed : t.seq.elapsed = s.seq.elapsed
  record : t.seq.record = s.seq.record
  dose : t.sdu.dose = s.sdu.dose
  drv : t.drv = s.drv
  ilk : t.ilk = s.ilk
  stands : OutsideStands s t

/-- A cause has joined the set of a step that is held already (R77): the state and the resume target stand, and no notice follows. -/
structure CauseJoined (c : Cause) (s t : State) : Prop where
  state : t.seq.state = .holding
  cause : t.seq.causes.has c = true
  resume : t.seq.resume = s.seq.resume
  notices : t.lnk.notices = s.lnk.notices

section
variable {s : State} {c : Cause} {target : ResumeTarget}

/-- The state that a hold leaves is its resume target (R77). -/
theorem resumeTarget_of_step (step : s.seq.state = .waiting ∨ s.seq.state = .running) :
    (s.seq.state = .waiting ∧ (if s.seq.state = .waiting then ResumeTarget.waiting else .running) = .waiting) ∨
    (s.seq.state = .running ∧ (if s.seq.state = .waiting then ResumeTarget.waiting else .running) = .running) := by
  rcases step with state | state <;> simp [state]

theorem CauseSet.has_of_withdrawn {v : CauseSet} {share supply : Bool} (stays : c ≠ .share ∧ c ≠ .supply) :
    ({ v with share := share, supply := supply } : CauseSet).has c = v.has c := by
  cases c <;> simp_all [CauseSet.has]

/-- A hold for a cause that SDU cannot withdraw, carried through: it stands, whether the part has started or not. -/
theorem holdFor_stepHeld (enters : (s.seq.state = .waiting ∧ target = .waiting) ∨ (s.seq.state = .running ∧ target = .running))
    (stays : c ≠ .share ∧ c ≠ .supply) : StepHeld c target s (settle (holdFor c s)) := by
  have seq := enterHolding_seq target (s.seq.causes.add c) s
  rw [holdFor_of_step enters]
  have settled : ∃ share supply, (settle (enterHolding target (s.seq.causes.add c) s)).seq = { s.seq with
      state := .holding, resume := some target
      causes := { s.seq.causes.add c with share := share, supply := supply } } ∧
      (settle (enterHolding target (s.seq.causes.add c) s)).drv = s.drv := by
    by_cases started : s.started = true
    · obtain ⟨seq', drv⟩ := enterHolding_settled (target := target) started (CauseSet.notForSlurry_add (v := s.seq.causes) c stays)
      exact ⟨_, _, seq', drv⟩
    · have off : (enterHolding target (s.seq.causes.add c) s).started = false := by
        simpa [State.started, State.inReset] using started
      rw [settle_of_not_started off, seq]
      exact ⟨_, _, rfl, by simp⟩
  obtain ⟨share, supply, seq', drv⟩ := settled
  refine ⟨by rw [seq'], ?_, by rw [seq'], by simp, by simp, by rw [seq'], by simp, drv, by simp, by simp [OutsideStands]⟩
  rw [seq']
  exact (CauseSet.has_of_withdrawn stays).trans (CauseSet.has_add_self ..)

/-- A cause that comes in HOLDING, carried through, has joined the set. -/
theorem holdFor_causeJoined (state : s.seq.state = .holding) (stays : c ≠ .share ∧ c ≠ .supply) : CauseJoined c s (settle (holdFor c s)) := by
  by_cases started : s.started = true
  · obtain ⟨seq, -, -, -, notices⟩ := holdFor_holding_settled started state stays
    refine ⟨by rw [seq]; exact state, ?_, by rw [seq], notices⟩
    rw [seq]
    exact (CauseSet.has_of_withdrawn stays).trans (CauseSet.has_add_self ..)
  · have off : s.started = false := by simpa using started
    have stands : settle (holdFor c s) = holdFor c s := by
      rw [holdFor_of_holding state]
      exact settle_of_not_started off
    rw [stands, holdFor_of_holding state]
    exact ⟨state, CauseSet.has_add_self .., rfl, rfl⟩

/-! ### A notice before the hold -/

variable (kind : Nat) (body : List Byte)

theorem OutsideStands.of_noticed {t : State} (stands : OutsideStands (placeNotice kind body s) t) : OutsideStands s t := by
  simpa [OutsideStands] using stands

theorem StepHeld.of_noticed {t : State} (held : StepHeld c target (placeNotice kind body s) t) : StepHeld c target s t := by
  obtain ⟨state, cause, resume, index, elapsed, record, dose, drv, ilk, stands⟩ := held
  simp only [placeNotice_keeps] at index elapsed record dose drv ilk
  exact ⟨state, cause, resume, index, elapsed, record, dose, drv, ilk, stands.of_noticed⟩

/-- A hold of a step, noticed before and carried through. -/
theorem noticed_stepHeld (step : s.seq.state = .waiting ∨ s.seq.state = .running) (stays : c ≠ .share ∧ c ≠ .supply) :
    StepHeld c (if s.seq.state = .waiting then .waiting else .running) s (settle (holdFor c (placeNotice kind body s))) :=
  (holdFor_stepHeld (by simpa using resumeTarget_of_step step) stays).of_noticed kind body

theorem holdFor_noticed_of_holding (state : s.seq.state = .holding) : holdFor c (placeNotice kind body s) =
    placeNotice kind body (s.setSeq { s.seq with causes := s.seq.causes.add c }) := by
  rw [holdFor_of_holding (by simpa using state), placeNotice_setSeq]
  simp

theorem holdFor_noticed_of_ending (state : s.seq.state = .ending) : holdFor c (placeNotice kind body s) =
    placeNotice kind body (s.setSeq { s.seq with deferred := s.seq.deferred.add c }) := by
  rw [holdFor_of_ending (by simpa using state), placeNotice_setSeq]
  simp

theorem holdFor_noticed_of_rest (rest : s.seq.state.atRest = true ∨ s.seq.state = .aborting) :
    holdFor c (placeNotice kind body s) = placeNotice kind body s := by
  have seq : (placeNotice kind body s).seq = s.seq := by simp
  refine holdFor_of_rest ?_
  rw [seq]
  revert rest
  cases s.seq.state <;> simp [SeqState.atRest, SeqState.inRun]

end

/-! ### A fault with its STOP -/

/-- A fault reported reads of the state after it the sequencer, the drives, the notices, the answers and the dose (R85, R87). -/
theorem FaultReported.congr {k : FaultKind} {s t t' : State} (reported : FaultReported k s t) (seq : t'.seq = t.seq) (drv : t'.drv = t.drv)
    (notices : t'.lnk.notices = t.lnk.notices) (lost : t'.lnk.lost = t.lnk.lost) (answers : t'.lnk.answers = t.lnk.answers)
    (dose : t'.sdu.dose = t.sdu.dose) (stands : OutsideStands s t') : FaultReported k s t' := by
  obtain ⟨run, rest, first, later, faulted, dosed, answered, -⟩ := reported
  simp only [CutsStep, State.drive] at run
  simp only [FaultReported, CutsStep, State.drive, seq, drv, notices, lost, answers, dose]
  exact ⟨run, rest, first, later, faulted, dosed, answered, stands⟩

theorem OutsideStands.refl (s : State) : OutsideStands s s := ⟨rfl, rfl, rfl, rfl, rfl, rfl, rfl, rfl, rfl, rfl, rfl⟩

/-- A fault taken by a started part and carried through has been reported (R87). -/
theorem settle_takeFault_reported {s : State} (k : FaultKind) (started : s.started = true) : FaultReported k s (settle (takeFault k s)) :=
  takeFault_reported k started rfl rfl rfl (.refl s)

/-- A fault with a STOP placed behind it, carried through, has been reported (R167). -/
theorem placeStopFrame_reported {s : State} (k : FaultKind) (line : Nat) (started : s.started = true) :
    FaultReported k s (settle (placeStopFrame line (takeFault k s))) := by
  obtain ⟨running, holding⟩ := takeFault_calm k started
  obtain ⟨seq, -, -, -, drv, notices, lost, -⟩ := settle_calm running holding
  obtain ⟨seq', -, -, -, drv', notices', lost', -⟩ := settle_calm (s := placeStopFrame line (takeFault k s)) (by simpa using running)
    (by simpa using holding)
  refine (settle_takeFault_reported k started).congr ?_ ?_ ?_ ?_ (by simp) (by simp) (by simp [OutsideStands])
  · rw [seq', seq]; simp
  · rw [drv', drv]; simp
  · rw [notices', notices]; simp
  · rw [lost', lost]; simp

/-- The STOP placed behind a fault fills its slot, but for a silent link (R167, R178, R180). -/
theorem placeStopFrame_stopSlot (k : FaultKind) (line : Nat) (s : State) :
    (settle (placeStopFrame line (takeFault k s))).lnk.stopSlot =
      if s.silent = true then s.lnk.stopSlot else some ⟨.stop, 0, [byteOf line], 0⟩ := by
  have silent : (takeFault k s).silent = s.silent := by simp [State.silent]
  have placed : (placeStopFrame line (takeFault k s)).lnk.stopSlot =
      if s.silent = true then (takeFault k s).lnk.stopSlot else some ⟨.stop, 0, [byteOf line], 0⟩ := by
    rw [placeStopFrame, silent]
    split <;> rfl
  simpa using placed

theorem placeNotice_started {s : State} (kind : Nat) (body : List Byte) (started : s.started = true) :
    (placeNotice kind body s).started = true := by
  simpa [State.started, State.inReset] using started

end Sys2Proof.Machine
end

section
/-! The tool mode decoded (R170, R171): O54. -/

namespace Sys2Proof.Machine

open Sys2Proof

section
variable {s : State}

/-! ### The pair and its mode -/

/-- Table 9-3, pair by pair. -/
theorem modeOf_eq (first second : Bool) : modeOf (first, second) =
    if second = false then .lockout else if first = true then .run else .service := by
  cases first <;> cases second <;> rfl

theorem illegalPair_eq (first second : Bool) : illegalPair (first, second) = (first && !second) := by
  cases first <;> cases second <;> rfl

theorem setModeLines_eq (first second : Bool) (s : State) : setModeLines first second s = { s with
    pins := { s.pins with modeFirst := first, modeSecond := second }
    ilk := { s.ilk with
      modeTimer := if s.pins.modeFirst = first ∧ s.pins.modeSecond = second then s.ilk.modeTimer else 0 } } := by
  by_cases same : s.pins.modeFirst = first ∧ s.pins.modeSecond = second
  · simp [setModeLines, rawPair, same]
    rfl
  · simp [setModeLines, rawPair, same]
    rfl

/-! ### The decoding -/

/-- The part once the raw combination has been decoded (R170). -/
def withDecoded (s : State) : State := { s with ilk := { s.ilk with
  mode := modeOf (rawPair s), decoded := some (rawPair s), modeIllegal := s.ilk.modeIllegal || illegalPair (rawPair s) } }

theorem exec_modeDecoded (held : s.cfg.held = false) (low : s.pins.supplyLow = false) (ready : s.cfg.startUp ≠ .configFault)
    (time : 20000 ≤ s.ilk.modeTimer) (new : s.ilk.decoded ≠ some (s.pins.modeFirst, s.pins.modeSecond)) :
    exec .modeDecoded s = .next (settle (decodeMode s)) := by
  have due : modeDue s = true := by
    have time : modeTime ≤ s.ilk.modeTimer := time
    simp [modeDue, inReset_eq_false held low, ready, new, rawPair, time]
  exact congrArg Host.Outcome.next (if_pos due)

theorem decodeMode_of_same (same : modeOf (rawPair s) = s.ilk.mode) : decodeMode s = withDecoded s := if_pos same

/-- MODE_CHANGED stands before what SEQ makes of the new mode (R171). -/
theorem decodeMode_of_change (change : modeOf (rawPair s) ≠ s.ilk.mode) : decodeMode s = modeChanged (modeOf (rawPair s))
    (placeNotice 19 [byteOf (numMode (modeOf (rawPair s))), yesNo (illegalPair (rawPair s))] (withDecoded s)) := if_neg change

end

/-- Settles O54: the lines, then the decoding by the mode it comes to and the sequencer's state. -/
theorem toolModeIsDecoded : Obligations.ToolModeIsDecoded := by
  unfold Obligations.ToolModeIsDecoded
  refine fun s => ⟨fun first second => congrArg Host.Outcome.next (setModeLines_eq first second s), fun held low ready time new => ?_⟩
  intro illegal mode u noticed
  have decoded := exec_modeDecoded held low ready time new
  have mode_eq : modeOf (rawPair s) = mode := modeOf_eq ..
  have illegal_eq : illegalPair (rawPair s) = illegal := illegalPair_eq ..
  have u_eq : withDecoded s = u := by rw [withDecoded, mode_eq, illegal_eq]; rfl
  refine ⟨fun same => ?_, fun change => ?_⟩
  · rw [decoded, decodeMode_of_same (mode_eq.trans same), u_eq]
  have acted : decodeMode s = modeChanged mode (noticed u) := by
    rw [decodeMode_of_change (mode_eq ▸ change), mode_eq, illegal_eq, u_eq]
    rfl
  have seq : (noticed u).seq = s.seq := by simp [noticed, u]
  rw [decoded, acted]
  refine ⟨fun run => by rw [run]; rfl, fun service => ?_, fun lockout => ?_⟩
  · have holds : modeChanged mode (noticed u) = holdFor .mode (noticed u) := congrArg (modeChanged · (noticed u)) service
    rw [holds]
    refine ⟨fun step => ⟨_, rfl, ?_⟩, fun state => ⟨?_, ?_⟩, fun state => ?_, fun rest => ?_⟩
    · obtain ⟨state, cause, resume, index, elapsed, record, dose, drv, ilk, stands⟩ := noticed_stepHeld (s := u) (c := .mode) 19
        [byteOf (numMode mode), yesNo illegal] step ⟨nofun, nofun⟩
      exact ⟨ilk, state, cause, resume, index, elapsed, record, dose, drv, stands⟩
    · exact congrArg (Host.Outcome.next ∘ settle) (holdFor_noticed_of_holding (s := u) _ _ state)
    · rintro t ⟨⟩
      obtain ⟨state, cause, resume, notices⟩ := holdFor_causeJoined (s := noticed u) (c := .mode) (by rw [seq, state]) ⟨nofun, nofun⟩
      exact ⟨state, cause, resume.trans (congrArg Seq.resume seq),
        notices.trans (congrArg Lnk.notices (placeNotice_lnk_congr (s := s) (s' := u) rfl rfl ..))⟩
    · exact congrArg (Host.Outcome.next ∘ settle) (holdFor_noticed_of_ending (s := u) _ _ state)
    · exact congrArg (Host.Outcome.next ∘ settle) (holdFor_noticed_of_rest (s := u) _ _ rest)
  · have aborts : modeChanged mode (noticed u) = abortRun .lockedOut (noticed u) := congrArg (modeChanged · (noticed u)) lockout
    rw [aborts]
    refine ⟨fun run => ⟨_, rfl, ?_⟩, fun rest => ?_⟩
    · rw [abortRun_of_run (by rw [seq, run])]
      obtain ⟨aborting, setpoints, -, -, -, -, cuts, -, stands⟩ := enterAborting_aborts .lockedOut (noticed u)
      rw [aborting]
      exact ⟨by simp [noticed, u], rfl, rfl, rfl, rfl, rfl, rfl, setpoints, by simp [noticed, u], cuts, stands.of_noticed⟩
    · exact congrArg (Host.Outcome.next ∘ settle) (abortRun_of_rest (by rw [seq, rest]))

end Sys2Proof.Machine
end

section
/-! The interlock lines: raw levels, the debounce and the event a change makes (R163 to R166). -/

namespace Sys2Proof.Machine

open Sys2Proof

section
variable {s : State} {l : Line}

/-! ### Levels -/

theorem State.line_setLine_self (s : State) (l : Line) (x : LineState) : (s.setLine l x).line l = x := PerLine.get_set_self ..

theorem levelIs_iff (x : Level) (active : Bool) : levelIs x active = true ↔ x = levelOf active := by
  cases x <;> cases active <;> decide

theorem debouncing_eq_false_iff (s : State) (l : Line) : debouncing s l = false ↔ (s.line l).level = levelOf (rawActive s l) := by
  rw [debouncing, Bool.not_eq_false', levelIs_iff]

theorem debouncing_iff (s : State) (l : Line) : debouncing s l = true ↔ (s.line l).level ≠ levelOf (rawActive s l) := by
  rw [← Bool.not_eq_false, debouncing_eq_false_iff]

theorem debounceDue_of_time (started : s.started = true) (differs : (s.line l).level ≠ levelOf (rawActive s l))
    (time : 1000 * (s.img.lines.get l).debounce ≤ (s.line l).timer) : debounceDue l s = true := by
  have time : ms (s.img.lines.get l).debounce ≤ (s.line l).timer := (Nat.mul_comm ..).trans_le time
  simp [debounceDue, started, (debouncing_iff s l).2 differs, time]

theorem exec_debounceExpiry (started : s.started = true) (differs : (s.line l).level ≠ levelOf (rawActive s l))
    (time : 1000 * (s.img.lines.get l).debounce ≤ (s.line l).timer) :
    exec (.debounceExpiry l) s = .next (settle (takeLine l s)) :=
  congrArg Host.Outcome.next (if_pos (debounceDue_of_time started differs time))

/-! ### A new raw level -/

/-- The part with a line's raw level changed. -/
def withRaw (l : Line) (high : Bool) (s : State) : State := { s with pins := { s.pins with lines := s.pins.lines.set l high } }

theorem rawActive_withRaw (l : Line) (high : Bool) (s : State) :
    rawActive (withRaw l high s) l = (high == (s.img.lines.get l).activeHigh) :=
  congrArg (· == (s.img.lines.get l).activeHigh) (PerLine.get_set_self ..)

/-- A raw level back at the debounced level sets the timer to 0 (R164). -/
theorem setRaw_of_back {high : Bool} (back : (s.line l).level = levelOf (high == (s.img.lines.get l).activeHigh)) :
    setRaw l high s = (withRaw l high s).setLine l { s.line l with timer := 0 } :=
  if_neg (by
    rw [Bool.not_eq_true]
    exact (debouncing_eq_false_iff (withRaw l high s) l).2 (back.trans (congrArg levelOf (rawActive_withRaw l high s).symm)))

theorem setRaw_of_away {high : Bool} (away : (s.line l).level ≠ levelOf (high == (s.img.lines.get l).activeHigh)) :
    setRaw l high s = withRaw l high s :=
  if_pos ((debouncing_iff (withRaw l high s) l).2 fun back => away (back.trans (congrArg levelOf (rawActive_withRaw l high s))))

/-! ### A line of debounce 0 -/

theorem takeAtOnce_of_slow (slow : s.started = false ∨ (s.img.lines.get l).debounce ≠ 0) : takeAtOnce l s = s := by
  have due : ((s.img.lines.get l).debounce == 0 && debounceDue l s) = false := by
    rcases slow with off | slow
    · simp [debounceDue, off]
    · simp [slow]
  rw [takeAtOnce, due, whenDue_false]

theorem takeAtOnce_of_level (level : (s.line l).level = levelOf (rawActive s l)) : takeAtOnce l s = s := by
  have due : debounceDue l s = false := by simp [debounceDue, (debouncing_eq_false_iff s l).2 level]
  rw [takeAtOnce, due, Bool.and_false, whenDue_false]

/-- A line of debounce 0 takes its raw level as the expiry of another's debounce timer does (R164). -/
theorem takeAtOnce_of_fast (fast : (s.img.lines.get l).debounce = 0) : exec (.debounceExpiry l) s = .next (takeAtOnce l s) := by
  rw [takeAtOnce, fast]
  rfl

/-! ### The line taken -/

theorem takeLine_line (l : Line) (s : State) :
    (takeLine l s).line l = (s.line l).takeLevel l (s.img.lines.get l).type (rawActive s l) := by
  have taken : ((s.setLine l ((s.line l).takeLevel l (s.img.lines.get l).type (rawActive s l))).ilk).lines.get l =
      (s.line l).takeLevel l (s.img.lines.get l).type (rawActive s l) := PerLine.get_set_self ..
  simp only [takeLine]
  split
  · exact taken
  · split
    · simpa [lineEvent, State.line] using taken
    · exact taken

/-- Once taken and carried through, the debounced level is the raw level (R164). -/
theorem settle_takeLine_level (l : Line) (s : State) : ((settle (takeLine l s)).line l).level = levelOf (rawActive s l) := by
  have ilk : (settle (takeLine l s)).ilk = (takeLine l s).ilk := by simp
  rw [State.line, ilk]
  exact congrArg LineState.level (takeLine_line l s)

theorem settle_takeLine_inputs (l : Line) (s : State) :
    (settle (takeLine l s)).pins = s.pins ∧ (settle (takeLine l s)).img = s.img := by simp [State.img]

/-! ### Levels taken, and events -/

theorem isEvent_of_inactive (l : Line) (t : LineType) (x : LineState) : isEvent l t x false = false := by simp [isEvent]

theorem isEvent_of_quiet {t : LineType} {x : LineState}
    (quiet : l = .il1 ∨ (t = .edge ∧ x.level = .unknown) ∨ (t = .level ∧ x.armed = false)) : isEvent l t x true = false := by
  rcases quiet with rfl | ⟨rfl, level⟩ | ⟨rfl, armed⟩
  · rfl
  · simp [isEvent, level]
  · simp [isEvent, armed]

theorem isEvent_of_event {t : LineType} {x : LineState} (line : l ≠ .il1)
    (event : (t = .edge ∧ x.level = .inactive) ∨ (t = .level ∧ x.armed = true)) : isEvent l t x true = true := by
  rcases event with ⟨rfl, level⟩ | ⟨rfl, armed⟩
  · simp [isEvent, line, level]
  · simp [isEvent, line, armed]

theorem takeLevel_inactive (x : LineState) (l : Line) (t : LineType) :
    x.takeLevel l t false = { level := .inactive, timer := 0, armed := x.armed || decide (t = .level), sticky := x.sticky } := by
  cases t <;> simp [LineState.takeLevel, isEvent_of_inactive, levelOf]

theorem takeLevel_of_quiet {t : LineType} {x : LineState} (quiet : isEvent l t x true = false) :
    x.takeLevel l t true = { level := .active, timer := 0, armed := x.armed, sticky := x.sticky } := by
  cases t <;> simp [LineState.takeLevel, quiet, levelOf]

theorem takeLevel_of_event {t : LineType} {x : LineState} (event : isEvent l t x true = true) :
    x.takeLevel l t true = { level := .active, timer := 0, armed := if t = .level then false else x.armed, sticky := true } := by
  cases t <;> simp [LineState.takeLevel, event, levelOf]

/-- A change that is no event changes the line alone (R165, R166). -/
theorem takeLine_of_quiet (quiet : isEvent l (s.img.lines.get l).type (s.line l) (rawActive s l) = false) :
    takeLine l s = s.setLine l ((s.line l).takeLevel l (s.img.lines.get l).type (rawActive s l)) := by
  simp only [takeLine, quiet, Bool.false_eq_true, if_false]
  split <;> rfl

/-- An event is noticed and routed behind the change of its line (R166, R167). -/
theorem takeLine_of_event {r : Routing} (routed : routingOf s.img l = some r)
    (event : isEvent l (s.img.lines.get l).type (s.line l) (rawActive s l) = true) :
    takeLine l s = lineEvent r l (s.setLine l ((s.line l).takeLevel l (s.img.lines.get l).type (rawActive s l))) := by
  have routed' : ∀ x, routingOf (s.setLine l x).img l = some r := fun _ => routed
  simp only [takeLine, routed', event, if_true]

theorem routingOf_of_image (l0 : l ≠ .il0) (l1 : l ≠ .il1) (i : Image) : routingOf i l = some (i.lines.get l).routing := by
  cases l
  case il0 => exact absurd rfl l0
  case il1 => exact absurd rfl l1
  all_goals rfl

theorem routingOf_of_linkStop {i : Image} (line : l ≠ .il1) (stop : l = .il0 ∨ (i.lines.get l).routing = .linkStop) :
    routingOf i l = some .linkStop := by
  by_cases l0 : l = .il0
  · rw [l0]
    rfl
  · rw [routingOf_of_image l0 line, stop.resolve_left l0]

end

end Sys2Proof.Machine
end

section
/-! The interlock lines by their routing (R163 to R167): O53. -/

namespace Sys2Proof.Machine

open Sys2Proof

section
variable {s : State} {l : Line}

/-! ### A new raw level, by the line's debounce -/

theorem exec_lineLevelChange (l : Line) (high : Bool) (s : State) :
    exec (.lineLevelChange l high) s = .next (takeAtOnce l (setRaw l high (takeAtOnce l s))) := rfl

/-- A line that has a debounce time only shows its raw level to its timer (R164). -/
theorem lineLevelChange_of_slow {high : Bool} (slow : s.started = false ∨ (s.img.lines.get l).debounce ≠ 0) :
    exec (.lineLevelChange l high) s = .next { withRaw l high s with ilk := { s.ilk with
      lines := if (s.line l).level = levelOf (high == (s.img.lines.get l).activeHigh) then s.ilk.lines.set l { s.line l with timer := 0 }
        else s.ilk.lines } } := by
  rw [exec_lineLevelChange, takeAtOnce_of_slow slow]
  by_cases back : (s.line l).level = levelOf (high == (s.img.lines.get l).activeHigh)
  · rw [setRaw_of_back back, takeAtOnce_of_slow (s := (withRaw l high s).setLine l _) slow, if_pos back]
    rfl
  · rw [setRaw_of_away back, takeAtOnce_of_slow (s := withRaw l high s) slow, if_neg back]
    rfl

/-- A change of a line of debounce 0 away from its level is taken at once (R164). -/
theorem lineLevelChange_of_fast {high : Bool} (fast : (s.img.lines.get l).debounce = 0) (level : (s.line l).level = levelOf (rawActive s l))
    (away : (s.line l).level ≠ levelOf (high == (s.img.lines.get l).activeHigh)) :
    exec (.lineLevelChange l high) s = exec (.debounceExpiry l) (withRaw l high s) := by
  rw [exec_lineLevelChange, takeAtOnce_of_level level, setRaw_of_away away, takeAtOnce_of_fast (s := withRaw l high s) fast]

theorem lineLevelChange_of_back {high : Bool} (level : (s.line l).level = levelOf (rawActive s l))
    (back : (s.line l).level = levelOf (high == (s.img.lines.get l).activeHigh)) :
    exec (.lineLevelChange l high) s = .next ((withRaw l high s).setLine l { s.line l with timer := 0 }) := by
  have level' : (((withRaw l high s).setLine l { s.line l with timer := 0 }).line l).level = levelOf (rawActive (withRaw l high s) l) := by
    rw [rawActive_withRaw, ← back]
    rw [State.line_setLine_self]
  rw [exec_lineLevelChange, takeAtOnce_of_level level, setRaw_of_back back,
    takeAtOnce_of_level (s := (withRaw l high s).setLine l _) level']

/-- A change that still stands on a line of debounce 0 is taken before the next (R164). -/
theorem lineLevelChange_after_standing {high : Bool} (started : s.started = true) (fast : (s.img.lines.get l).debounce = 0)
    (differs : (s.line l).level ≠ levelOf (rawActive s l)) :
    ∃ v, exec (.debounceExpiry l) s = .next v ∧ (v.line l).level = levelOf (rawActive s l) ∧
      exec (.lineLevelChange l high) s = exec (.lineLevelChange l high) v := by
  have taken := exec_debounceExpiry started differs (by simp [fast])
  have once : takeAtOnce l s = settle (takeLine l s) := Host.Outcome.next.inj ((takeAtOnce_of_fast fast).symm.trans taken)
  obtain ⟨pins, img⟩ := settle_takeLine_inputs l s
  have raw : rawActive (settle (takeLine l s)) l = rawActive s l := by simp only [rawActive, pins, img]
  have level := settle_takeLine_level l s
  refine ⟨_, taken, level, ?_⟩
  rw [exec_lineLevelChange, exec_lineLevelChange, once, takeAtOnce_of_level (level.trans (congrArg levelOf raw.symm))]

/-! ### The debounce time -/

theorem rawActive_of_ne (raw : s.pins.lines.get l ≠ (s.img.lines.get l).activeHigh) : rawActive s l = false := by simp [rawActive, raw]

theorem rawActive_of_eq (raw : s.pins.lines.get l = (s.img.lines.get l).activeHigh) : rawActive s l = true := by simp [rawActive, raw]

theorem debounceExpiry_to_inactive (started : s.started = true) (time : 1000 * (s.img.lines.get l).debounce ≤ (s.line l).timer)
    (raw : rawActive s l = false) (differs : (s.line l).level ≠ .inactive) :
    exec (.debounceExpiry l) s = .next (settle (s.setLine l
      { level := .inactive, timer := 0, armed := (s.line l).armed || decide ((s.img.lines.get l).type = .level)
        sticky := (s.line l).sticky })) := by
  rw [exec_debounceExpiry started (by rwa [raw]) time, takeLine_of_quiet (by rw [raw, isEvent_of_inactive]), raw, takeLevel_inactive]

theorem debounceExpiry_of_quiet (started : s.started = true) (time : 1000 * (s.img.lines.get l).debounce ≤ (s.line l).timer)
    (raw : rawActive s l = true) (differs : (s.line l).level ≠ .active)
    (quiet : isEvent l (s.img.lines.get l).type (s.line l) true = false) :
    exec (.debounceExpiry l) s = .next (settle (s.setLine l
      { level := .active, timer := 0, armed := (s.line l).armed, sticky := (s.line l).sticky })) := by
  rw [exec_debounceExpiry started (by rwa [raw]) time, takeLine_of_quiet (by rwa [raw]), raw, takeLevel_of_quiet quiet]

/-- An event of a line: the flag set, the notice queued, and the routing behind it (R165 to R167). -/
theorem debounceExpiry_of_event {r : Routing} (started : s.started = true) (time : 1000 * (s.img.lines.get l).debounce ≤ (s.line l).timer)
    (raw : rawActive s l = true) (differs : (s.line l).level ≠ .active)
    (event : isEvent l (s.img.lines.get l).type (s.line l) true = true) (routed : routingOf s.img l = some r) :
    exec (.debounceExpiry l) s = .next (settle (lineEvent r l (s.setLine l
      { level := .active, timer := 0, armed := if (s.img.lines.get l).type = .level then false else (s.line l).armed
        sticky := true }))) := by
  rw [exec_debounceExpiry started (by rwa [raw]) time, takeLine_of_event routed (by rwa [raw]), raw, takeLevel_of_event event]

end

/-- Settles O53: a new raw level by the line's debounce, then the debounce time by level, event, routing and the sequencer's state. -/
theorem interlockLines : Obligations.InterlockLines := by
  unfold Obligations.InterlockLines
  refine fun s l => ⟨fun high slow => lineLevelChange_of_slow slow, fun high started fast => ⟨fun level away => ?_, fun level back => ?_,
    fun differs => lineLevelChange_after_standing started fast differs⟩, fun started time => ?_⟩
  · exact lineLevelChange_of_fast fast level away
  · exact lineLevelChange_of_back level back
  intro type after noticed
  refine ⟨fun raw differs => debounceExpiry_to_inactive started time (rawActive_of_ne raw) differs, fun raw differs => ⟨fun quiet => ?_,
    fun line event => ?_⟩⟩
  · exact debounceExpiry_of_quiet started time (rawActive_of_eq raw) differs (isEvent_of_quiet quiet)
  intro u
  have routes : ∀ r, routingOf s.img l = some r → exec (.debounceExpiry l) s = .next (settle (route r l (noticed (numRouting r) u))) :=
    fun r => debounceExpiry_of_event started time (rawActive_of_eq raw) differs (isEvent_of_event line event)
  have seq : ∀ r, (noticed r u).seq = s.seq := fun r => by simp [noticed, u, after]
  refine ⟨fun l0 routing => ?_, fun l0 routing => ?_, fun l0 routing => ?_, fun stop => ?_⟩
  · exact routes .note (by rw [routingOf_of_image l0 line, routing])
  · rw [routes .hold (by rw [routingOf_of_image l0 line, routing])]
    refine ⟨fun step => ⟨_, rfl, ?_⟩, fun state => ⟨?_, ?_⟩, fun state => ?_, fun rest => ?_⟩
    · obtain ⟨state, cause, resume, index, elapsed, record, dose, drv, ilk, stands⟩ := noticed_stepHeld (s := u) (c := .interlock) 18
        [byteOf (numLine l), byteOf 1, byteOf (numState s.seq.state)] step ⟨nofun, nofun⟩
      exact ⟨ilk, state, cause, resume, index, elapsed, record, dose, drv, stands⟩
    · exact congrArg (Host.Outcome.next ∘ settle) (holdFor_noticed_of_holding (s := u) _ _ state)
    · rintro t ⟨⟩
      obtain ⟨state, cause, resume, notices⟩ := holdFor_causeJoined (s := noticed 1 u) (c := .interlock) (by rw [seq, state]) ⟨nofun, nofun⟩
      exact ⟨state, cause, resume.trans (congrArg Seq.resume (seq 1)),
        notices.trans (congrArg Lnk.notices (placeNotice_lnk_congr (s := s) (s' := u) rfl rfl ..))⟩
    · exact congrArg (Host.Outcome.next ∘ settle) (holdFor_noticed_of_ending (s := u) _ _ state)
    · exact congrArg (Host.Outcome.next ∘ settle) (holdFor_noticed_of_rest (s := u) _ _ rest)
  · exact ⟨_, routes .abort (by rw [routingOf_of_image l0 line, routing]),
      settle_takeFault_reported .interlock (placeNotice_started (s := u) _ _ started)⟩
  · have slot := placeStopFrame_stopSlot .interlock (numLine l) (noticed 3 u)
    have silent : (noticed 3 u).silent = s.silent := by simp [State.silent, noticed, u, after]
    have stopSlot : (noticed 3 u).lnk.stopSlot = s.lnk.stopSlot := by simp [noticed, u, after]
    rw [silent, stopSlot] at slot
    exact ⟨_, routes .linkStop (routingOf_of_linkStop line stop),
      placeStopFrame_reported .interlock (numLine l) (placeNotice_started (s := u) _ _ started),
      fun heard => slot.trans (if_neg (by simp [heard])), fun silent => slot.trans (if_pos silent)⟩

end Sys2Proof.Machine
end

section
/-! UNKNOWN_ORDER: payloads that read as no order, and those that read well (R184, R185, R189): O21. -/

namespace Sys2Proof.Machine

open Sys2Proof

section
variable {s : State} {m : OrderMeta}

/-! ### What a payload reads as -/

/-- The order bytes of Table 10-3 end at 21. -/
theorem parseBody_of_gt {code : Nat} (beyond : 21 < code) (p : List Byte) : parseBody code p = .unknown := by
  obtain ⟨n, rfl⟩ := Nat.exists_eq_add_of_le' beyond
  rfl

theorem needs_of_length {n : Nat} {p : List Byte} (good : p.length = n) (o : Order) : needs n p o = .order o := if_pos good

theorem needs_of_badLength {n : Nat} {p : List Byte} (bad : p.length ≠ n) (o : Order) : needs n p o = .badLength := if_neg bad

/-! ### What the reading comes to -/

/-- A payload without a meaning is answered UNKNOWN (R184). -/
theorem unknownOrder_of_unknown {payload : List Byte} (takes : takesOrder m s = true) (reads : parseOrder payload = .unknown) :
    exec (.unknownOrder m payload) s = .next (answered m 12 [] s) := by
  change execUnknownOrder m payload s = _
  rw [execUnknownOrder, takeOrder, reads]
  exact congrArg _ (serve_refused (c := .unknown) takes rfl)

/-- A payload of the wrong length is answered RANGE, and RESUME's with the cause set (R184, R185). -/
theorem unknownOrder_of_badLength {c : Byte} {p : List Byte} (takes : takesOrder m s = true) (reads : parseOrder (c :: p) = .badLength) :
    exec (.unknownOrder m (c :: p)) s =
      .next (answered m 4 (if c = 4 then [byteOf (bitSet s.seq.causes.bits)] else []) s) := by
  have reply : refuseLength (c :: p) s = ⟨s, .range, if c = 4 then [byteOf (bitSet s.seq.causes.bits)] else []⟩ := by
    have first : par (c :: p) 0 = c := rfl
    rw [refuseLength, first]
    split
    · rfl
    · rfl
  change execUnknownOrder m (c :: p) s = _
  rw [execUnknownOrder, takeOrder, reads]
  exact congrArg _ (serve_of takes reply rfl)

theorem unknownOrder_of_needs {c : Byte} {p : List Byte} {n : Nat} {o : Order} (takes : takesOrder m s = true)
    (reads : parseOrder (c :: p) = needs n p o) (bad : p.length ≠ n) :
    exec (.unknownOrder m (c :: p)) s =
      .next (answered m 4 (if c = 4 then [byteOf (bitSet s.seq.causes.bits)] else []) s) :=
  unknownOrder_of_badLength takes (reads.trans (needs_of_badLength bad o))

/-- A payload that reads well runs as the order whose owner carries it out (R184, log entry 34). -/
theorem unknownOrder_of_order {c : Byte} {p : List Byte} {n : Nat} {o : Order} {order : Instr} {owner : State → Reply}
    (reads : parseOrder (c :: p) = needs n p o) (good : p.length = n) (served : exec order s = .next (serve m owner s))
    (owned : carryOut m.toAll o s = owner s) : exec (.unknownOrder m (c :: p)) s = exec order s := by
  change execUnknownOrder m (c :: p) s = _
  rw [execUnknownOrder, takeOrder, reads, needs_of_length good, served]
  simp only [serve, owned]

end

/-- Settles O21: no meaning, a wrong length by the bytes an order needs, and each order that reads well. -/
theorem unknownAndMalformedOrders : Obligations.UnknownAndMalformedOrders := by
  unfold Obligations.UnknownAndMalformedOrders
  intro s m takes taken
  refine ⟨unknownOrder_of_unknown takes rfl, fun c p beyond => unknownOrder_of_unknown takes (parseBody_of_gt beyond p), fun p => ?_,
    fun n i k data => ?_⟩
  · refine ⟨fun bad c order => ?_, fun some c order => ?_, fun some => ?_, fun bad => ?_, fun bad => ?_, fun bad => ?_, fun bad => ?_,
      fun bad => ?_⟩
    · fin_cases order
      all_goals exact unknownOrder_of_needs takes rfl bad
    · have bad : p.length ≠ 0 := fun none => some (List.eq_nil_of_length_eq_zero none)
      fin_cases order
      all_goals exact unknownOrder_of_needs takes rfl bad
    · exact unknownOrder_of_needs takes rfl fun none => some (List.eq_nil_of_length_eq_zero none)
    all_goals exact unknownOrder_of_needs takes rfl bad
  · have contents : ∀ {l : Nat}, data.length = l → (n :: i :: data).length = 2 + l := fun long => by simpa [long] using by omega
    refine ⟨?_, ?_, ?_, ?_, ?_, ?_, ?_, ?_, fun long => ?header, fun long => ?step, ?_, ?_, ?_, ?_, ?_, ?_, fun long => ?profile, ?_, ?_, ?_,
      ?_, ?_⟩
    case header => exact unknownOrder_of_order rfl (contents long) (writeHeader_checks long) rfl
    case step => exact unknownOrder_of_order rfl (contents long) (writeStep_checks long) rfl
    case profile => exact unknownOrder_of_order rfl (contents long) (writeProfile_checks long) rfl
    all_goals exact unknownOrder_of_order rfl rfl rfl rfl

end Sys2Proof.Machine
end

section
/-! Frames sent: the arbiter's start, the bits driven, the end of a frame, collisions, another node's carrier (R177 to R179, R186, R202): O19. -/

namespace Sys2Proof.Machine

open Sys2Proof

/-! ### The start of a frame -/

/-- The candidate is the head of the lowest class that has a frame (R178, Table 10-1). -/
theorem candidate_of_class {l : Lnk} {f : Frame} {cls : Nat}
    (head : (cls = 0 ∧ f.kind = .stop ∧ l.stopSlot = some f) ∨
      (cls = 1 ∧ f.kind = .answer ∧ l.stopSlot = none ∧ l.answers.head? = some f) ∨
      (cls = 2 ∧ f.kind = .demand ∧ l.stopSlot = none ∧ l.answers = [] ∧ l.demandSlot = some f) ∨
      (cls = 3 ∧ f.kind = .notice ∧ l.stopSlot = none ∧ l.answers = [] ∧ l.demandSlot = none ∧ l.notices.head? = some f)) :
    candidate l = some f ∧ classOf f.kind = cls := by
  rcases head with ⟨rfl, kind, stop⟩ | ⟨rfl, kind, stop, answer⟩ | ⟨rfl, kind, stop, answer, demand⟩ |
    ⟨rfl, kind, stop, answer, demand, notice⟩
  · simp [candidate, stop, kind, classOf]
  · obtain ⟨rest, answers⟩ := List.head?_eq_some_iff.1 answer
    simp [candidate, stop, answers, kind, classOf]
  · simp [candidate, stop, answer, demand, kind, classOf]
  · obtain ⟨rest, notices⟩ := List.head?_eq_some_iff.1 notice
    simp [candidate, stop, answer, demand, notices, kind, classOf]

/-- The candidate starts once the quiet time has reached its gap (R177, R178). -/
theorem transmitStart_spec {s : State} {f : Frame} (ready : s.cfg.startUp = .ready) (run : s.inReset = false)
    (own : s.lnk.sending = none) (line : s.lnk.carrier = none) (head : candidate s.lnk = some f) (gap : gapOf s.img f ≤ s.lnk.quiet) :
    exec .transmitStart s = .next { s with lnk := { s.lnk with sending := some (startOf f s.lnk.lost), quiet := 0 } } := by
  have due : transmitDue s = true := by simp [transmitDue, ready, run, Lnk.idle, own, line, head, gap]
  change execTransmitStart s = _
  rw [execTransmitStart, due, whenDue_true, startFrame, head]
  rfl

/-! ### The bits of a frame -/

theorem byteBits_length (b : Byte) : (byteBits b).length = 10 := rfl

theorem flatMap_byteBits_length (bytes : List Byte) : (bytes.flatMap byteBits).length = bytes.length * 10 := by
  induction bytes with
  | nil => rfl
  | cons b rest ih => rw [List.flatMap_cons, List.length_append, ih, byteBits_length, List.length_cons]; omega

/-- Ten bits a byte: bit `k` of byte `j` is driven `10 j + k` bit times after the start (R179). -/
theorem flatMap_byteBits_getElem? {bytes : List Byte} {j : Nat} {b : Byte} (byte : bytes[j]? = some b) {k : Nat} (hk : k < 10) :
    (bytes.flatMap byteBits)[10 * j + k]? = (byteBits b)[k]? := by
  induction bytes generalizing j with
  | nil => simp at byte
  | cons x rest ih =>
    rw [List.flatMap_cons]
    cases j with
    | zero =>
      obtain rfl : x = b := by simpa using byte
      rw [Nat.mul_zero, Nat.zero_add, List.getElem?_append_left (by rw [byteBits_length]; exact hk)]
    | succ j =>
      rw [List.getElem?_append_right (by rw [byteBits_length]; omega), byteBits_length, ← ih (by simpa using byte)]
      congr 1
      omega

/-- A start bit at 0, the byte's bits from bit 0 up, a stop bit at 1 (R179). -/
theorem byteBits_getElem? (b : Byte) :
    (byteBits b)[0]? = some false ∧ (byteBits b)[9]? = some true ∧ ∀ k, k < 8 → (byteBits b)[1 + k]? = some (b.getLsbD k) := by
  refine ⟨rfl, rfl, fun k hk => ?_⟩
  interval_cases k <;> rfl

theorem wire_length (f : Frame) (i : Image) : (f.wire i).length = 5 + f.payload.length := by
  simp [Frame.wire, frameBytes, frameHead]
  omega

/-! ### A frame that leaves its place -/

/-- What leaves LNK with the frame on the line: the head of a queue, or a slot's frame unless that was filled anew (R178). -/
theorem removeSent_eq (x : Sending) (l : Lnk) : removeSent x l = { l with
    stopSlot := if x.frame.kind = .stop ∧ x.replaced = false then none else l.stopSlot
    answers := if x.frame.kind = .answer ∨ x.frame.kind = .order then l.answers.tail else l.answers
    demandSlot := if x.frame.kind = .demand ∧ x.replaced = false then none else l.demandSlot
    notices := if x.frame.kind = .notice then l.notices.tail else l.notices } := by
  unfold removeSent
  cases kind : x.frame.kind <;> cases replaced : x.replaced <;> simp

theorem restartIfSent_eq (s : State) : restartIfSent s =
    if s.cfg.restartPending = true ∧ s.lnk.answers = [] then doReset .restartOrder false s else s := by
  simp [restartIfSent]

/-- No restart takes place while none is pending or an ANSWER is left (R202). -/
theorem restartIfSent_stays {s : State} (stays : s.cfg.restartPending = false ∨ s.lnk.answers ≠ []) : restartIfSent s = s := by
  rw [restartIfSent_eq, if_neg]
  rintro ⟨pending, none⟩
  rcases stays with calm | left
  · simp [calm] at pending
  · exact left none

/-- The end of a frame driven in full (R177, R178, R186, R202). -/
theorem frameSent_spec {s : State} {x : Sending} (started : s.started = true) (sending : s.lnk.sending = some x)
    (driven : x.frame.length ≤ x.timer) :
    exec .frameSent s = .next (restartIfSent (s.setLnk { removeSent x s.lnk with
      sending := none, carrier := none, quiet := 0, lost := (removeSent x s.lnk).lost - x.lost })) := by
  have due : (s.started && sentDue s) = true := by simp [started, sentDue, sending, driven]
  change execFrameSent s = _
  rw [execFrameSent, due, whenDue_true, finishFrame, sending]

/-! ### A collision -/

section
variable {s : State} {x : Sending}

/-- A foreign level shows only over a driven 1 (R179, log entry 45). -/
theorem mismatchDue_iff (sending : s.lnk.sending = some x) : mismatchDue s = true ↔ (x.frame.bits s.img)[x.timer]? = some true := by
  have bit : drivenBit s = (x.frame.bits s.img)[x.timer]? := by rw [drivenBit, sending]; rfl
  rw [mismatchDue, bit]
  rcases (x.frame.bits s.img)[x.timer]? with _ | own
  · simp
  · cases own <;> simp [lineLevel]

/-- Over a 0, or past the frame's bits, nothing is seen (R179). -/
theorem echoMismatch_unseen (sending : s.lnk.sending = some x) (unseen : (x.frame.bits s.img)[x.timer]? ≠ some true) :
    exec .echoMismatch s = .next s := by
  have quiet : (s.started && mismatchDue s) = false := by
    rw [Bool.eq_false_iff.2 (mt (mismatchDue_iff sending).1 unseen), Bool.and_false]
  change execEchoMismatch s = _
  rw [execEchoMismatch, quiet, whenDue_false]

/-- LNK after a collision of the frame on the line (R179, R186). -/
def collided (x : Sending) (l : Lnk) : Lnk :=
  { discardWorn x (countCollision x l) with sending := none, carrier := some false, collisionSeen := true }

/-- Over a driven 1 the collision is counted, and the station resets where a pending restart has lost its ANSWER (R179, R202). -/
theorem echoMismatch_seen (started : s.started = true) (sending : s.lnk.sending = some x)
    (seen : (x.frame.bits s.img)[x.timer]? = some true) :
    exec .echoMismatch s = .next (restartIfSent (s.setLnk (collided x s.lnk))) := by
  have due : (s.started && mismatchDue s) = true := by rw [started, (mismatchDue_iff sending).2 seen]; rfl
  change execEchoMismatch s = _
  rw [execEchoMismatch, due, whenDue_true, mismatchEcho, sending]
  rfl

theorem collided_notice {l : Lnk} {f : Frame} {rest : List Frame} (kind : x.frame.kind = .notice) (notices : l.notices = f :: rest) :
    collided x l = { l with
      sending := none, carrier := some false, collisionSeen := true
      notices := if x.frame.collisions + 1 < 16 then { f with collisions := f.collisions + 1 } :: rest else rest
      lost := if x.frame.collisions + 1 < 16 then l.lost else min 255 (l.lost + 1) } := by
  rw [collided, discardWorn, removeSent_eq]
  split <;> simp [countCollision, collideHead, Frame.collide, lostMore, kind, notices]

theorem collided_answer {l : Lnk} {f : Frame} {rest : List Frame} (kind : x.frame.kind = .answer) (answers : l.answers = f :: rest) :
    collided x l = { l with
      sending := none, carrier := some false, collisionSeen := true
      answers := if x.frame.collisions + 1 < 16 then { f with collisions := f.collisions + 1 } :: rest else rest } := by
  rw [collided, discardWorn, removeSent_eq]
  split <;> simp [countCollision, collideHead, Frame.collide, kind, answers]

theorem collided_demand {l : Lnk} {f : Frame} (kind : x.frame.kind = .demand) (slot : l.demandSlot = some f) :
    collided x l = { l with
      sending := none, carrier := some false, collisionSeen := true
      demandSlot := if x.replaced = true then some f
        else if x.frame.collisions + 1 < 16 then some { f with collisions := f.collisions + 1 } else none } := by
  rw [collided, discardWorn, removeSent_eq]
  cases replaced : x.replaced <;> split <;> simp [countCollision, collideSlot, Frame.collide, kind, slot, replaced]

theorem collided_stop {l : Lnk} {f : Frame} (kind : x.frame.kind = .stop) (slot : l.stopSlot = some f) :
    collided x l = { l with
      sending := none, carrier := some false, collisionSeen := true
      stopSlot := if x.replaced = true then some f
        else if x.frame.collisions + 1 < 16 then some { f with collisions := f.collisions + 1 } else none } := by
  rw [collided, discardWorn, removeSent_eq]
  cases replaced : x.replaced <;> split <;> simp [countCollision, collideSlot, Frame.collide, kind, slot, replaced]

/-- A collision that leaves no pending restart without its ANSWER. -/
theorem echoMismatch_counted {l : Lnk} (started : s.started = true) (sending : s.lnk.sending = some x)
    (seen : (x.frame.bits s.img)[x.timer]? = some true) (counted : collided x s.lnk = l)
    (stays : s.cfg.restartPending = false ∨ l.answers ≠ []) : exec .echoMismatch s = .next { s with lnk := l } := by
  rw [echoMismatch_seen started sending seen, counted, restartIfSent_stays (s := s.setLnk l) stays]
  rfl

/-- The ANSWER of a pending restart discarded: the station resets (R202). -/
theorem echoMismatch_restarts {f : Frame} (started : s.started = true) (sending : s.lnk.sending = some x)
    (seen : (x.frame.bits s.img)[x.timer]? = some true) (kind : x.frame.kind = .answer) (answers : s.lnk.answers = [f])
    (worn : 16 ≤ x.frame.collisions + 1) (pending : s.cfg.restartPending = true) :
    exec .echoMismatch s = .next (doReset .restartOrder false { s with lnk := { s.lnk with carrier := some false } }) := by
  rw [echoMismatch_seen started sending seen, collided_answer kind answers, if_neg (Nat.not_lt.2 worn), restartIfSent_eq,
    if_pos ⟨pending, rfl⟩]
  rfl

end

/-- Settles O19: the start by class, the bits, the end of a frame, a collision by the frame's kind, and another node's carrier. -/
theorem framesAreSentByClass : Obligations.FramesAreSentByClass := by
  unfold Obligations.FramesAreSentByClass
  refine ⟨fun s f cls ready held supply own line head gap => ?_, fun f i => ⟨?_, fun j b byte => ?_⟩,
    fun s x started sending driven => ?_, fun s x started sending => ⟨echoMismatch_unseen sending, fun seen => ?_⟩, fun s quiet => ?_⟩
  · obtain ⟨candidate, rfl⟩ := candidate_of_class head
    exact transmitStart_spec ready (inReset_eq_false held supply) own line candidate gap
  · rw [Frame.bits, flatMap_byteBits_length, wire_length]
  · have bit := fun {k} => flatMap_byteBits_getElem? byte (k := k)
    obtain ⟨first, last, bits⟩ := byteBits_getElem? b
    refine ⟨(bit (by omega)).trans first, (bit (by omega)).trans last, fun k hk => ?_⟩
    rw [Nat.add_assoc]
    exact (bit (by omega)).trans (bits k hk)
  · rw [frameSent_spec started sending driven, restartIfSent_eq, removeSent_eq]
    rfl
  · refine ⟨fun f rest kind notices stays => echoMismatch_counted started sending seen (collided_notice kind notices) stays,
      fun f rest kind answers => ⟨fun stays => ?_, fun pending worn none => ?_⟩, fun stays => ⟨fun f kind slot => ?_, fun f kind slot => ?_⟩⟩
    · refine echoMismatch_counted started sending seen (collided_answer kind answers) (stays.imp_right fun left => ?_)
      dsimp only
      split
      · simp
      · exact left.resolve_left ‹_›
    · exact echoMismatch_restarts started sending seen kind (by rw [answers, none]) worn pending
    · exact echoMismatch_counted started sending seen (collided_demand kind slot) stays
    · exact echoMismatch_counted started sending seen (collided_stop kind slot) stays
  · change execCarrierBegins s = _
    rw [execCarrierBegins, beginCarrier, quiet]
    rfl

end Sys2Proof.Machine
end

section
/-! Frames received: the checks, the delivery by kind, and a duplicate node number (R181 to R183, R197): O16. -/

namespace Sys2Proof.Machine

open Sys2Proof

/-! ### The end of a carrier -/

/-- The end of another node's carrier, before any check (R177, R181, log entry 30). -/
def carrierEnded (b : List Byte) (s : State) : State := { s with lnk := { s.lnk with
  carrier := none, received := if takesFrame s = true then b else []
  quiet := if s.lnk.sending.isNone = true then 0 else s.lnk.quiet } }

theorem frameReceived_of_untaken {s : State} {b : List Byte} (untaken : takesFrame s = false) :
    exec (.frameReceived b) s = .next (carrierEnded b s) :=
  congrArg Host.Outcome.next (if_neg (by simp [untaken]))

theorem frameReceived_of_taken {s : State} {b : List Byte} (takes : takesFrame s = true) :
    exec (.frameReceived b) s = .next (settle (checkFrame b (carrierEnded b s))) := congrArg Host.Outcome.next (if_pos takes)

theorem started_of_takesFrame {s : State} (takes : takesFrame s = true) : s.started = true := by
  simp only [takesFrame, Bool.and_eq_true] at takes
  exact takes.1.1

/-! ### The checks -/

section
variable {s : State} {b : List Byte} {k : FrameKind}

/-- Checks 1 and 2 (R181). -/
theorem checkFrame_of_bad (bad : lengthGood b = false ∨ sumGood b = false) :
    checkFrame b s = s.setLnk { s.lnk with checkErrorSeen := true } := by
  rw [checkFrame, if_pos]
  simpa using bad

theorem checks_pass (length : lengthGood b = true) (sum : sumGood b = true) : ¬ (!lengthGood b || !sumGood b) = true := by
  simp [length, sum]

/-- Check 3 (R181). -/
theorem checkFrame_of_unknownKind (length : lengthGood b = true) (sum : sumGood b = true) (kind : kindOf (rd b 1) = none) :
    checkFrame b s = s.setLnk { s.lnk with malformedSeen := true } := by
  rw [checkFrame, if_neg (checks_pass length sum), kind]

theorem checkFrame_of_other (length : lengthGood b = true) (sum : sumGood b = true) (kind : kindOf (rd b 1) = some k)
    (other : sourceOf b ≠ s.img.node) : checkFrame b s = hearOther k b s := by
  rw [checkFrame, if_neg (checks_pass length sum), kind]
  exact if_neg other

theorem checkFrame_of_own (length : lengthGood b = true) (sum : sumGood b = true) (kind : kindOf (rd b 1) = some k)
    (own : sourceOf b = s.img.node) : checkFrame b s = findDuplicate s := by
  rw [checkFrame, if_neg (checks_pass length sum), kind]
  exact if_pos own

/-! ### A frame heard -/

/-- SHR runs for all four feeds where ISOLATED was set (R16). -/
def runsIf (isolated : Bool) (u : State) : State := if isolated = true then shrRuns allFeeds u else u

theorem runsIf_alone (isolated : Bool) (u : State) : ShrAlone u (runsIf isolated u) := .ite isolated (shrRuns_alone allFeeds u)

theorem hearOther_eq : hearOther k b s = runsIf s.peer.isolated (acceptFrame k b (hearFrame s)) := rfl

/-- Check 4: no node has the number 15 (R181). -/
theorem acceptFrame_of_15 (source : sourceOf b = 15) : acceptFrame k b s = s.setLnk { s.lnk with malformedSeen := true } := if_pos source

theorem acceptFrame_of_addressed (source : sourceOf b ≠ 15) (here : targetNode b = s.img.node ∨ targetNode b = 15) :
    acceptFrame k b s = deliver k b s := (if_neg source).trans (if_pos here)

/-- A frame for another station, an ANSWER and a NOTICE are only heard (R181, R183). -/
theorem acceptFrame_of_heard (source : sourceOf b ≠ 15)
    (heard : (targetNode b ≠ s.img.node ∧ targetNode b ≠ 15) ∨ k = .answer ∨ k = .notice) : acceptFrame k b s = s := by
  by_cases here : targetNode b = s.img.node ∨ targetNode b = 15
  · rw [acceptFrame_of_addressed source here]
    rcases heard with ⟨notOwn, notAll⟩ | rfl | rfl
    · exact absurd here (not_or.2 ⟨notOwn, notAll⟩)
    · rfl
    · rfl
  · exact (if_neg source).trans (if_neg here)

/-- What a frame of another node, good in its checks 1 to 3, comes to (R181, R183). -/
theorem frameReceived_of_other (takes : takesFrame s = true) (length : lengthGood b = true) (sum : sumGood b = true)
    (kind : kindOf (rd b 1) = some k) (other : sourceOf b ≠ s.img.node) :
    exec (.frameReceived b) s =
      .next (settle (runsIf s.peer.isolated (acceptFrame k b (hearFrame (carrierEnded b s))))) := by
  rw [frameReceived_of_taken takes, checkFrame_of_other (s := carrierEnded b s) length sum kind other, hearOther_eq]
  rfl

/-! ### A DEMAND delivered -/

/-- A DEMAND that fails R3's checks is dropped whole (R3). -/
theorem takeDemand_of_bad {n : Nat} {p : List Byte} (other : n ≠ s.img.node) (bad : demandOk n p = false) :
    takeDemand n p s = s.setLnk { s.lnk with malformedSeen := true } := by
  rw [takeDemand, if_neg other, if_neg (by simp [bad])]

/-- A mark, where one is seen, field by field (R21). -/
theorem FeedShare.ite_mark (x : FeedShare) (marked : Bool) (now period : Nat) :
    (if marked = true then x.mark now period else x) =
      { x with
        k := if (marked && x.raises now period) = true then x.k + 1 else x.k
        lastIncrement := if (marked && x.raises now period) = true then some now else x.lastIncrement
        markFree := if marked = true then 0 else x.markFree
        markSeen := marked || x.markSeen } := by
  cases marked
  · rfl
  · unfold FeedShare.mark
    cases x.raises now period <;> rfl

/-- The share of every feed once an accepted DEMAND has been taken (R6, R20 to R23). -/
theorem takeDemand_share {n : Nat} {p : List Byte} (started : s.started = true) (other : n ≠ s.img.node) (ok : demandOk n p = true)
    (f : Feed) : (takeDemand n p s).shr.get f =
      if touchedByDemand s n p f = true then (shareMarked s n p f).take (computedGrant (takeDemand n p s) f) s.now s.period
      else shareMarked s n p f := by
  obtain ⟨touched, untouched⟩ := (takeDemand_spec started other ok).2 f
  split
  next h => exact touched h
  next h =>
    obtain ⟨stands, unmarked⟩ := untouched (Bool.eq_false_iff.2 h)
    rw [stands, shareMarked, if_neg (by simp [unmarked])]

/-- What the runs after an accepted DEMAND leave alone once they are carried through. -/
theorem demandHeard_keeps {n : Nat} {p : List Byte} (isolated : Bool) (started : s.started = true) (other : n ≠ s.img.node)
    (ok : demandOk n p = true) :
    let t := settle (runsIf isolated (takeDemand n p s))
    t.peer.table = putEntry (entryOf n p) s.peer.table ∧ t.peer.quiet = s.peer.quiet ∧ t.peer.isolated = s.peer.isolated ∧
    t.lnk.received = s.lnk.received ∧ t.lnk.carrier = s.lnk.carrier ∧ t.cfg = s.cfg ∧ t.rcp = s.rcp ∧ t.ilk = s.ilk ∧
    t.pins = s.pins ∧ t.pending = s.pending := by
  have taken : ShrAlone (s.setPeer { s.peer with table := putEntry (entryOf n p) s.peer.table }) (takeDemand n p s) :=
    (takeDemand_spec started other ok).1
  have changed : runsIf isolated (takeDemand n p s) = { s with
      shr := (runsIf isolated (takeDemand n p s)).shr, peer := { s.peer with table := putEntry (entryOf n p) s.peer.table } } :=
    taken.trans (runsIf_alone isolated _)
  have lnk : (runsIf isolated (takeDemand n p s)).lnk = s.lnk := by rw [changed]
  obtain ⟨table, quiet, clear, cfg, rcp, ilk, pins, -, pending, -⟩ := tableChange_keeps changed
  exact ⟨table, quiet, clear, by simp [lnk], by simp [lnk], cfg, rcp, ilk, pins, pending⟩

end

/-! ### A duplicate node number -/

/-- The station as a duplicate silences it, before the fault is taken (R180, R182). -/
def duplicateSilenced (s : State) : State :=
  (s.setCfg { s.cfg with startUp := .duplicateNode }).setLnk { silenceLnk s.lnk with dupFound := true }

theorem findDuplicate_of_calm {s : State} (calm : s.cfg.restartPending = false) :
    findDuplicate s = takeFault .duplicateNode (duplicateSilenced s) := if_neg (by simp [calm])

/-- A silent LNK discards every notice placed (R180). -/
theorem placeNotice_of_silent {s : State} (silent : s.silent = true) (kind : Nat) (body : List Byte) : placeNotice kind body s = s :=
  if_pos silent

/-- Every state of the sequencer as a fault meets it (R87). -/
theorem SeqState.fault_cases (x : SeqState) :
    x.inRun = true ∨ (x = .empty ∨ x = .loaded ∨ x = .done) ∨ x = .aborting ∨ x = .faulted := by
  cases x <;> simp [SeqState.inRun]

/-- No step is cut outside a run (R85). -/
theorem cutOf_of_not_inRun {s : State} (rest : s.seq.state.inRun = false) : cutOf s = [] := by
  rw [cutOf, if_neg]
  rintro ⟨cut | cut | cut, -⟩ <;> simp [cut, SeqState.inRun] at rest

section
variable {k : FaultKind} {s t : State}

/-- The run record after a fault: the entry of the step it cuts, where it cuts one (R85). -/
theorem FaultReported.record (reported : FaultReported k s t) : t.seq.record = s.seq.record ++ cutOf s := by
  obtain ⟨run, rest, first, later, faulted, -⟩ := reported
  have kept {q : Seq} (seq : t.seq = q) (record : q.record = s.seq.record) (calm : s.seq.state.inRun = false) :
      t.seq.record = s.seq.record ++ cutOf s := by rw [seq, record, cutOf_of_not_inRun calm, List.append_nil]
  rcases s.seq.state.fault_cases with inRun | state | state | state
  · obtain ⟨-, -, -, -, -, -, -, record, -⟩ := run inRun
    rw [record]
    simp [cutOf, stepEntry]
  · exact kept (rest state).1 rfl (by rcases state with h | h | h <;> rw [h] <;> rfl)
  · by_cases none : s.seq.first = none
    · exact kept (first state none).1 rfl (by rw [state]; rfl)
    · exact kept (later state none).1 rfl (by rw [state]; rfl)
  · exact kept (faulted state).1 rfl (by rw [state]; rfl)

/-- A silent LNK keeps no notice of the fault (R180). -/
theorem FaultReported.notices_of_silent (reported : FaultReported k s t) (silent : s.silent = true) : t.lnk.notices = s.lnk.notices := by
  obtain ⟨run, rest, first, later, faulted, -⟩ := reported
  have dropped := placeNotice_of_silent silent
  simp only [CutsStep, dropped] at run rest first later faulted
  rcases s.seq.state.fault_cases with inRun | state | state | state
  · obtain ⟨-, -, -, -, -, -, -, -, notices, -⟩ := run inRun
    rw [notices, cutOf]
    split <;> simp [dropped]
  · exact (rest state).2.1
  · by_cases none : s.seq.first = none
    · exact (first state none).2.1
    · exact (later state none).2.1
  · exact (faulted state).2.1

/-- The sequencer's state after a fault: ABORTING from a run, FAULTED from rest (R87). -/
theorem FaultReported.state (reported : FaultReported k s t) :
    (s.seq.state.inRun = true ∨ s.seq.state = .aborting → t.seq.state = .aborting) ∧
    (s.seq.state.inRun = false → s.seq.state ≠ .aborting → t.seq.state = .faulted) := by
  obtain ⟨run, rest, first, later, faulted, -⟩ := reported
  rcases s.seq.state.fault_cases with inRun | state | state | state
  · exact ⟨fun _ => (run inRun).1, fun calm => absurd inRun (by simp [calm])⟩
  · refine ⟨fun none => ?_, fun _ _ => by rw [(rest state).1]⟩
    rcases state with h | h | h <;> simp [h, SeqState.inRun] at none
  · refine ⟨fun _ => ?_, fun _ other => absurd state other⟩
    by_cases none : s.seq.first = none
    · rw [(first state none).1]; exact state
    · rw [(later state none).1]; exact state
  · refine ⟨fun none => by simp [state, SeqState.inRun] at none, fun _ _ => ?_⟩
    rw [(faulted state).1]
    exact state

/-- The fault is the first of the record in a run, and where none was (R87). -/
theorem FaultReported.first (reported : FaultReported k s t) (none : s.seq.state.inRun = true ∨ s.seq.first = none) :
    t.seq.first = some k ∨ s.seq.state = .faulted := by
  obtain ⟨run, rest, first, -⟩ := reported
  rcases s.seq.state.fault_cases with inRun | state | state | state
  · exact .inl (run inRun).2.2.1
  · exact .inl (by rw [(rest state).1])
  · have none := none.resolve_left (by simp [state, SeqState.inRun])
    exact .inl (by rw [(first state none).1])
  · exact .inr state

end

/-- Outside READY a change of the record places no DEMAND (R12). -/
theorem rebuildRecord_lnk {s : State} (early : s.cfg.startUp ≠ .ready) : (rebuildRecord s).lnk = s.lnk := by
  unfold rebuildRecord
  dsimp only
  split
  · rfl
  · simp [placeDemand, early]

theorem carry_lnk {s : State} (early : s.cfg.startUp ≠ .ready) : (carry s).lnk = s.lnk := by
  simp [carry, rebuildRecord_lnk early]

/-- Outside READY, RUNNING and HOLDING nothing is sent as a change is carried through. -/
theorem settle_lnk {s : State} (early : s.cfg.startUp ≠ .ready) (running : s.seq.state ≠ .running) (holding : s.seq.state ≠ .holding) :
    (settle s).lnk = s.lnk := by
  have once := carry_lnk early
  have twice := carry_lnk (s := carry s) (by simpa using early)
  have thrice := carry_lnk (s := carry (carry s)) (by simpa using early)
  rw [settle_eq_of_calm running holding]
  split
  · simp [thrice, twice, once]
  · rfl

/-- The link after a duplicate: every queue and slot empty, nothing on the line, and the FAULT line held (R182). -/
theorem duplicate_lnk {s : State} (started : s.started = true) :
    let t := settle (takeFault .duplicateNode (duplicateSilenced s))
    t.cfg.startUp = .duplicateNode ∧ t.faultLine = true ∧ t.lnk.stopSlot = none ∧ t.lnk.answers = [] ∧ t.lnk.demandSlot = none ∧
    t.lnk.notices = [] ∧ t.lnk.sending = none ∧ FaultReported .duplicateNode (duplicateSilenced s) t := by
  intro t
  have run := not_inReset_of_started started
  have started' : (duplicateSilenced s).started = true := by
    have reset : (duplicateSilenced s).inReset = false := run
    rw [State.started, reset]
    rfl
  have reported := settle_takeFault_reported .duplicateNode started'
  obtain ⟨running, holding⟩ := takeFault_calm .duplicateNode started'
  have cfg : t.cfg = (duplicateSilenced s).cfg := by simp [t]
  have pins : t.pins = s.pins := by simp [t, duplicateSilenced]
  have lnk : t.lnk = (takeFault .duplicateNode (duplicateSilenced s)).lnk := settle_lnk (by simp [duplicateSilenced]) running holding
  refine ⟨by rw [cfg]; rfl, ?_, ?_, ?_, ?_, reported.notices_of_silent rfl, ?_, reported⟩
  · have held : t.lnk.dupFound = true := by rw [lnk]; simp [duplicateSilenced]
    have reset : t.inReset = false := by rw [State.inReset, cfg, pins]; exact run
    simp [State.faultLine, held, reset]
  all_goals rw [lnk]; simp [duplicateSilenced, silenceLnk]

/-- A duplicate with a restart pending: the station resets, with what its line carries (R182, R202). -/
theorem settle_findDuplicate_of_pending {s : State} (pending : s.cfg.restartPending = true) :
    settle (findDuplicate s) = doReset .restartOrder false s := by
  have reset : findDuplicate s = doReset .restartOrder false s := if_pos pending
  rw [reset]
  exact settle_of_not_started (by simp [doReset, State.started, Cfg.reset])

/-- Settles O16: the carrier's end, the checks in order, the delivery by kind, then a duplicate without and with a restart pending. -/
theorem receivedFramesAreCheckedAndDelivered : Obligations.ReceivedFramesAreCheckedAndDelivered := by
  unfold Obligations.ReceivedFramesAreCheckedAndDelivered
  constructor
  · intro s b heard told runs
    refine ⟨frameReceived_of_untaken, fun takes bad => ?_, fun takes length sum kind => ?_, fun takes length sum k kind other => ?_⟩
    · rw [frameReceived_of_taken takes, checkFrame_of_bad bad]
      rfl
    · rw [frameReceived_of_taken takes, checkFrame_of_unknownKind length sum kind]
      rfl
    intro malformed
    have started : told.started = true := started_of_takesFrame (s := s) takes
    have heardOther : exec (.frameReceived b) s = .next (settle (runs (acceptFrame k b told))) :=
      frameReceived_of_other takes length sum kind other
    rw [heardOther]
    refine ⟨fun source => by rw [acceptFrame_of_15 source]; rfl, fun source only => by rw [acceptFrame_of_heard (s := told) source only],
      fun source here => ?_⟩
    rw [acceptFrame_of_addressed (s := told) source here]
    refine ⟨?_, ?_, ?_, ?_⟩
    · rintro rfl
      exact ⟨congrArg Host.Outcome.next (if_pos started), rfl⟩
    · rintro rfl
      exact ⟨_, rfl, rfl⟩
    · rintro rfl bad
      exact congrArg (Host.Outcome.next ∘ settle ∘ runs) (takeDemand_of_bad other bad)
    · rintro rfl ok
      obtain ⟨table, quiet, clear, received, kept⟩ := demandHeard_keeps s.peer.isolated started other ok
      refine ⟨_, _, demandReceived_spec started _ _, rfl, rfl, (takeDemand_spec started other ok).1, fun f => ?_, table, quiet, clear,
        received.trans (if_pos takes), kept⟩
      have share := takeDemand_share started other ok f
      rw [shareMarked, FeedShare.ite_mark] at share
      exact share
  · intro s b k takes length sum kind own
    rw [frameReceived_of_taken takes, checkFrame_of_own (s := carrierEnded b s) length sum kind own]
    refine ⟨fun calm => ?_, fun pending => ?_⟩
    · obtain ⟨startUp, faultLine, stopSlot, answers, demandSlot, notices, sending, reported⟩ :=
        duplicate_lnk (s := carrierEnded b s) (started_of_takesFrame (s := s) takes)
      rw [findDuplicate_of_calm (s := carrierEnded b s) calm]
      exact ⟨_, rfl, startUp, faultLine, stopSlot, answers, demandSlot, notices, sending, reported.state.1, reported.record,
        reported.state.2, reported.first, by simp [duplicateSilenced, carrierEnded]⟩
    · rw [settle_findDuplicate_of_pending (s := carrierEnded b s) pending]
      rfl

end Sys2Proof.Machine
end

section
/-! The FAULT output line: its three causes, and what releases it (R198, R199): O6. -/

namespace Sys2Proof.Machine

open Sys2Proof

/-- A part held in reset releases the line, whatever else stands (R199). -/
theorem faultLine_of_inReset {s : State} (held : s.inReset = true) : s.faultLine = false := by simp [State.faultLine, held]

/-- Out of reset the line shows CONFIG_FAULT, a duplicate node number or a first fault (R198). -/
theorem faultLine_iff {s : State} (run : s.inReset = false) :
    s.faultLine = true ↔ s.cfg.startUp = .configFault ∨ s.lnk.dupFound = true ∨ s.seq.first.isSome = true := by
  simp [State.faultLine, run, or_assoc]

/-- None of the three causes outlasts a reset (R193, R199). -/
theorem AfterReset.faultLine {s : State} (h : AfterReset s) : s.faultLine = false := by
  obtain ⟨cfg, -, -, -, seq, -, -, -, -, -, -, -, lnk⟩ := h
  rw [State.faultLine, cfg, seq, lnk]
  simp [Cfg.reset, Seq.reset, Lnk.reset]

/-- A release of a line that was not active resets a supplied part, and a part without its supply stands (R199). -/
theorem releaseReset_faultLine {s : State} (free : s.cfg.held = false) : (releaseReset s).faultLine = false := by
  rw [releaseReset, if_neg (by simp [free])]
  split
  next low => exact faultLine_of_inReset (by simp [State.inReset, low])
  next => exact (doReset_afterReset ..).faultLine

/-- A reset line that becomes active holds the part, supplied or not (R199). -/
theorem activateReset_faultLine {s : State} (free : s.cfg.held = false) : (activateReset s).faultLine = false := by
  rw [activateReset, if_neg (by simp [free])]
  split
  · exact faultLine_of_inReset (by simp [State.inReset])
  · exact (doReset_afterReset ..).faultLine

/-- No fault is taken before the end of LOADING, nor in CONFIG_FAULT (R87). -/
theorem takeFault_of_not_started {s : State} (k : FaultKind) (off : s.started = false) : takeFault k s = s := by
  simp [takeFault, off]

/-- Settles O6: the line out of reset and in it, each way into a reset, and the fault not taken before the start. -/
theorem faultLineFollowsItsThreeCauses : Obligations.FaultLineFollowsItsThreeCauses := by
  unfold Obligations.FaultLineFollowsItsThreeCauses
  refine ⟨fun s free supplied => faultLine_iff (inReset_eq_false free supplied),
    fun s held => faultLine_of_inReset (by simpa [State.inReset] using held),
    fun s cause held => (doReset_afterReset cause held s).faultLine, ?_, fun s k off => takeFault_of_not_started k off⟩
  rintro s t c (rfl | rfl | rfl) free ⟨⟩
  · exact (doReset_afterReset ..).faultLine
  · exact activateReset_faultLine free
  · exact releaseReset_faultLine free

end Sys2Proof.Machine
end

section
/-! QUERY_STATUS: the two pages of the status record, each field read back from its place (R192, R200, Table 10-11): O28. -/

namespace Sys2Proof.Machine

open Sys2Proof

/-! ### Fields in bytes -/

/-- Bit `i` of a bit set is its member `i` (R187). -/
theorem bitSet_testBit (bs : List Bool) (i : Nat) : (bitSet bs).testBit i = bs.getD i false := by
  induction bs generalizing i with
  | nil => simp [bitSet]
  | cons b r ih =>
    have shifted : bitSet (b :: r) = Nat.bit b (bitSet r) := by
      rw [Nat.bit_val, bitSet, List.foldr_cons, ← bitSet]
      cases b <;> simp [Nat.add_comm]
    rw [shifted]
    cases i with
    | zero => exact Nat.testBit_bit_zero b _
    | succ i => exact (Nat.testBit_bit_succ i b _).trans (ih i)

theorem byteOf_bitSet_getLsbD (bs : List Bool) {i : Nat} (h : i < 8) : (byteOf (bitSet bs)).getLsbD i = bs.getD i false := by
  rw [byteOf, BitVec.getLsbD_ofNat, bitSet_testBit]
  simp [h]

/-- A byte made of a bit set gives its members back, with 0 in the bits past them. -/
theorem bits_byteOf_bitSet {bs : List Bool} (h : bs.length ≤ 8) :
    (List.range 8).map (fun j => (byteOf (bitSet bs)).getLsbD j) = bs ++ List.replicate (8 - bs.length) false := by
  refine List.ext_getElem (by simp; omega) fun i hi _ => ?_
  have small : i < 8 := by simpa using hi
  rw [List.getElem_map, List.getElem_range, byteOf_bitSet_getLsbD bs small, List.getElem_append]
  split
  next inside => exact List.getD_eq_getElem _ _ inside
  next outside => rw [List.getElem_replicate, List.getD_eq_default _ _ (by omega)]

/-- A byte of two half-byte fields gives both back. -/
theorem halves_readBack {low high : Nat} (hl : low < 16) (hh : high < 16) :
    (byteOf (low + 16 * high)).toNat % 16 = low ∧ (byteOf (low + 16 * high)).toNat / 16 = high := by
  rw [byteOf_toNat]
  omega

/-- A two-byte field shows the low 16 bits of its value (R187). -/
theorem word_le2 (n : Nat) : (byteOf n).toNat + 256 * (byteOf (n / 256)).toNat = n % 65536 := by
  simp only [byteOf_toNat]
  omega

/-! ### The numbers of the enumerations -/

theorem numState_eq_idxOf (x : SeqState) : (byteOf (numState x)).toNat =
    [SeqState.empty, .loaded, .waiting, .running, .holding, .ending, .aborting, .done, .faulted].idxOf x := by
  cases x <;> decide

theorem numKind_eq_idxOf (k : FaultKind) : (byteOf (1 + numKind k)).toNat = 1 +
    [FaultKind.leak, .overpressure, .supplyAir, .valve, .pumpBlocked, .driveTrip, .interlock, .duplicateNode].idxOf k := by
  cases k <;> decide

theorem numFeed_eq_idxOf (f : Feed) : (byteOf (numFeed f)).toNat = [Feed.a, .b, .c, .d].idxOf f := by cases f <;> decide

theorem numMode_eq_idxOf (m : ToolMode) : numMode m = [ToolMode.run, .service, .lockout].idxOf m := by cases m <;> decide

theorem numReset_eq_idxOf (c : ResetCause) : numReset c = [ResetCause.powerOn, .resetLine, .restartOrder].idxOf c := by
  cases c <;> decide

theorem numArm_eq_idxOf (x : ArmState) :
    (byteOf (numArm x)).toNat = [ArmState.parked, .movingIn, .sweeping, .lifting, .lost].idxOf x := by cases x <;> decide

theorem numChan_eq_idxOf (x : ChanState) :
    numChan x = [ChanState.vented, .ramping, .regulating, .channelFault].idxOf x := by cases x <;> decide

theorem numMode_lt (m : ToolMode) : numMode m < 16 := by cases m <;> decide

theorem numReset_lt (c : ResetCause) : numReset c < 16 := by cases c <;> decide

theorem numChan_lt (x : ChanState) : numChan x < 4 := by cases x <;> decide

/-- A life percent fits its byte (R141). -/
theorem lifePercent_byte (life limit : Nat) : (byteOf (lifePercent life limit)).toNat = lifePercent life limit := by
  have fits : lifePercent life limit ≤ 255 := by
    unfold lifePercent
    split
    · exact le_rfl
    · exact Nat.min_le_left ..
  rw [byteOf_toNat, Nat.mod_eq_of_lt (by omega)]

/-! ### Page 0 -/

/-- The five bytes of an item: 7, 0 and 0 for an absent one (log entry 19), else its feed, its request and its effective grant. -/
theorem itemStatus_shows (item : Option Item) (s : State) : ∃ feed q q' grant grant' : Byte,
    itemStatus item s = [feed, q, q', grant, grant'] ∧
    (item = none → feed.toNat = 7 ∧ q.toNat + 256 * q'.toNat = 0 ∧ grant.toNat + 256 * grant'.toNat = 0) ∧
    (∀ x, item = some x → feed.toNat = [Feed.a, .b, .c, .d].idxOf x.feed ∧ q.toNat + 256 * q'.toNat = x.q % 65536 ∧
      grant.toNat + 256 * grant'.toNat = (s.shr.get x.feed).effective % 65536) := by
  cases item with
  | none => exact ⟨7, 0, 0, 0, 0, rfl, fun _ => ⟨rfl, rfl, rfl⟩, nofun⟩
  | some x =>
    refine ⟨_, _, _, _, _, rfl, nofun, ?_⟩
    rintro _ ⟨⟩
    exact ⟨numFeed_eq_idxOf x.feed, word_le2 _, word_le2 _⟩

/-- The first fault's byte: 0 for none, else its number in Table 4-6 from 1 (Table 10-11). -/
theorem firstFaultByte_shows (s : State) : (s.seq.first = none → (firstFaultByte s).toNat = 0) ∧
    ∀ k, s.seq.first = some k → (firstFaultByte s).toNat = 1 +
      [FaultKind.leak, .overpressure, .supplyAir, .valve, .pumpBlocked, .driveTrip, .interlock, .duplicateNode].idxOf k := by
  unfold firstFaultByte
  refine ⟨fun none => by rw [none]; rfl, fun k first => ?_⟩
  rw [first]
  exact numKind_eq_idxOf k

theorem numLine_lt (l : Line) : numLine l < 8 := by cases l <;> decide

theorem PerLine.toList_map_getD {α : Type} (v : PerLine α) (p : α → Bool) (l : Line) :
    (v.toList.map p).getD (numLine l) false = p (v.get l) := by
  cases l <;> rfl

/-- A byte of one bit a line shows each line's own (Table 10-11). -/
theorem lineByte_getLsbD (v : PerLine LineState) (p : LineState → Bool) (l : Line) :
    (byteOf (bitSet (v.toList.map p))).getLsbD (numLine l) = p (v.get l) := by
  rw [byteOf_bitSet_getLsbD _ (numLine_lt l), PerLine.toList_map_getD]

/-! ### Page 1 -/

theorem channelBits_eq (s : State) : channelBits s =
    numChan s.hpc.ch.z1.state + 4 * (numChan s.hpc.ch.z2.state + 4 * (numChan s.hpc.ch.z3.state +
      4 * (numChan s.hpc.ch.z4.state + 4 * (numChan s.hpc.ch.z5.state + 4 * numChan s.hpc.ch.rr.state)))) := rfl

/-- Two bits a channel, so the six fit twelve bits, and each channel's are at its own place (log entry 49). -/
theorem channelBits_readBack (s : State) : channelBits s < 4096 ∧
    ∀ c : HeadCh, channelBits s / 4 ^ numHeadCh c % 4 = numChan (s.head c).state := by
  have z1 := numChan_lt s.hpc.ch.z1.state
  have z2 := numChan_lt s.hpc.ch.z2.state
  have z3 := numChan_lt s.hpc.ch.z3.state
  have z4 := numChan_lt s.hpc.ch.z4.state
  have z5 := numChan_lt s.hpc.ch.z5.state
  have rr := numChan_lt s.hpc.ch.rr.state
  rw [channelBits_eq]
  refine ⟨by omega, fun c => ?_⟩
  cases c <;> simp only [numHeadCh, State.head, PerHead.get] <;> omega

/-- The pressures of a channel at its place in page 1 (Table 10-11). -/
theorem statusPage1_pressures (s : State) (c : HeadCh) :
    let word : Nat → Nat := fun i => ((statusPage1 s).getD i 0).toNat + 256 * ((statusPage1 s).getD (i + 1) 0).toNat
    word (1 + 2 * numHeadCh c) = (s.head c).applied % 65536 ∧ word (13 + 2 * numHeadCh c) = (s.head c).measured % 65536 := by
  cases c <;> exact ⟨word_le2 _, word_le2 _⟩

/-- The channel states are the last two bytes of page 1. -/
theorem statusPage1_channels (s : State) :
    ((statusPage1 s).getD 25 0).toNat + 256 * ((statusPage1 s).getD 26 0).toNat = channelBits s := by
  have fits := (channelBits_readBack s).1
  exact (word_le2 _).trans (Nat.mod_eq_of_lt (by omega))

/-! ### The answers -/

/-- Settles O28: the answer by the page asked, then the fields of page 0 in their order, then those of page 1. -/
theorem queryStatusChangesNothing : Obligations.QueryStatusChangesNothing := by
  unfold Obligations.QueryStatusChangesNothing
  refine ⟨fun s m page takes => ⟨?_, ?_, fun not0 not1 => ?_⟩, fun s => ?_, fun s => ?_⟩
  · rintro rfl
    exact congrArg _ (serve_of (c := .ok) takes rfl rfl)
  · rintro rfl
    exact congrArg _ (serve_of (c := .ok) takes rfl rfl)
  · have refused : orderQueryStatus page s = .bare s .range := by rw [orderQueryStatus, if_neg not0, if_neg not1]
    exact congrArg _ (serve_refused takes refused)
  · obtain ⟨_, _, _, _, _, mainBytes, main⟩ := itemStatus_shows s.peer.own.main s
    obtain ⟨_, _, _, _, _, additiveBytes, additive⟩ := itemStatus_shows s.peer.own.additive s
    obtain ⟨noFault, fault⟩ := firstFaultByte_shows s
    obtain ⟨mode, cause⟩ := halves_readBack (numMode_lt s.ilk.mode) (numReset_lt s.cfg.cause)
    rw [statusPage0, mainBytes, additiveBytes]
    refine ⟨rfl, rfl, numState_eq_idxOf _, byteOf_toNat _, bits_byteOf_bitSet (bs := s.seq.causes.bits) le_rfl, noFault, fault,
      bits_byteOf_bitSet (bs := s.seq.later.bits) le_rfl, ?_, fun derate => ?_, bits_byteOf_bitSet (bs := [_, _, _]) (by simp),
      bits_byteOf_bitSet (bs := eventBits s) le_rfl, fun l => ?_, mode.trans (numMode_eq_idxOf _), cause.trans (numReset_eq_idxOf _),
      numArm_eq_idxOf _, lifePercent_byte _ _, lifePercent_byte _ _, bits_byteOf_bitSet (bs := [_, _, _, _]) (by simp)⟩
    · rintro i item (⟨rfl, rfl⟩ | ⟨rfl, rfl⟩)
      · exact main
      · exact additive
    · have small : ∀ f : Feed, (s.shr.get f).k < 16 := fun f => (derate f).trans_lt (by decide)
      obtain ⟨a, b⟩ := halves_readBack (small .a) (small .b)
      obtain ⟨c, d⟩ := halves_readBack (small .c) (small .d)
      exact ⟨a, b, c, d⟩
    · exact ⟨lineByte_getLsbD .., lineByte_getLsbD _ (fun x => x.level == .active) l,
        lineByte_getLsbD _ (fun x => x.level == .unknown) l⟩
  · refine ⟨rfl, rfl, ?_, fun c => ?_⟩
    · exact (statusPage1_channels s).trans_lt (channelBits_readBack s).1
    · obtain ⟨applied, measured⟩ := statusPage1_pressures s c
      refine ⟨applied, measured, ?_⟩
      dsimp only
      rw [statusPage1_channels, (channelBits_readBack s).2 c, numChan_eq_idxOf]

end Sys2Proof.Machine
end

section
/-! The queue of commands (section 0.1): O1. -/

namespace Sys2Proof.Machine

open Sys2Proof

/-- With a command waiting, a step runs it; with none, `step_of_empty` gives the step. -/
theorem step_of_front {c : Instr} {rest : List Instr} {s : State} (front : s.pending = c :: rest) :
    step s = exec c (s.setPending rest) := by
  simp only [step, front]

/-- Settles O1: the front command's step, the queue's rest written as the record update it is. -/
theorem stepRunsFrontCommand : Obligations.StepRunsFrontCommand := by
  unfold Obligations.StepRunsFrontCommand
  intro c rest s front
  calc step s = exec c (s.setPending rest) := step_of_front front
    _ = exec c { s with pending := rest } := by rw [State.setPending]

end Sys2Proof.Machine
end
